-- ==== Sys2Proof/Word.lean ====
section
/-! DEFINITION. Plain number helpers: bit fields, two's complement, byte strings and rounding, as R12 and R422 use them.
Object values are natural numbers, the little-endian number of their bytes. -/
namespace Sys2Proof

/-- A byte of a message or an image. -/
abbrev Byte := BitVec 8

/-- The field of `width` bits of `n` whose lowest bit is `lo`. -/
def field (n lo width : Nat) : Nat := n / 2 ^ lo % 2 ^ width

/-- Bit `i` of `n`. -/
def bitOf (n i : Nat) : Bool := n / 2 ^ i % 2 == 1

/-- `n` with bit `i` set to `b`. -/
def setBit (n i : Nat) (b : Bool) : Nat :=
  if bitOf n i == b then n else if b then n + 2 ^ i else n - 2 ^ i

/-- 1 for true, 0 for false. -/
def b2n (b : Bool) : Nat := if b then 1 else 0

/-- `n` read as a two's complement number of `bits` bits (R422). -/
def toSigned (bits n : Nat) : Int :=
  if n % 2 ^ bits < 2 ^ (bits - 1) then (n % 2 ^ bits : Nat) else (n % 2 ^ bits : Nat) - (2 ^ bits : Nat)

/-- The two's complement encoding of `i` in `bits` bits; a value outside them wraps. -/
def ofSigned (bits : Nat) (i : Int) : Nat := (i % (2 ^ bits : Nat)).toNat

/-- `i` limited to the interval from `lo` to `hi`. -/
def clampInt (lo hi i : Int) : Int := if i < lo then lo else if i > hi then hi else i

/-- `n` limited to at most `hi`. -/
def satNat (hi n : Nat) : Nat := if n > hi then hi else n

/-- The quotient rounded to the nearest integer, ties toward plus infinity. -/
def divRoundUp (a : Int) (d : Nat) : Int := (2 * a + d) / (2 * d : Nat)

/-- The quotient rounded to the nearest integer, ties to the even neighbour. -/
def divRoundEven (a : Int) (d : Nat) : Int :=
  let q := a / (d : Nat)
  let r := a - q * d
  if 2 * r < d then q else if 2 * r > d then q + 1 else if q % 2 = 0 then q else q + 1

/-- The quotient rounded to the nearest integer, ties away from zero. -/
def divRoundAway (a : Int) (d : Nat) : Int :=
  if a ≥ 0 then (2 * a + d) / (2 * d : Nat) else -((2 * (-a) + d) / (2 * d : Nat))

/-- The quotient rounded up. -/
def ceilDiv (a d : Nat) : Nat := (a + d - 1) / d

/-- The bytes of `n`, least significant first (R422). -/
def toBytes : Nat → Nat → List Nat
  | 0, _ => []
  | k + 1, n => n % 256 :: toBytes k (n / 256)

/-- The number whose little-endian bytes are given. -/
def ofBytes : List Nat → Nat
  | [] => 0
  | b :: bs => b % 256 + 256 * ofBytes bs

/-- The list with element `i` replaced, unchanged where it has none. -/
def listSet {α : Type} (l : List α) (i : Nat) (x : α) : List α := l.set i x

/-- The list with element `i` changed by `f`. -/
def listUpd {α : Type} (l : List α) (i : Nat) (f : α → α) : List α := l.modify i f

/-- The sum of a list of naturals. -/
def sumNat (l : List Nat) : Nat := l.foldl (· + ·) 0

/-- The sum of a list of integers. -/
def sumInt (l : List Int) : Int := l.foldl (· + ·) 0

/-- The magnitude of a rational. -/
def ratAbs (x : Rat) : Rat := if x < 0 then -x else x

/-- The nearest integer, ties away from zero. -/
def ratRoundAway (x : Rat) : Int := divRoundAway x.num x.den

/-- The exclusive or of two naturals' bits is core's; this is one step of a reflected CRC with polynomial `poly`. -/
def crcStep (poly c : Nat) : Nat := if c % 2 = 1 then (c / 2) ^^^ poly else c / 2

/-- Eight steps for one byte. -/
def crcByte (poly c b : Nat) : Nat :=
  let c := c ^^^ b
  crcStep poly (crcStep poly (crcStep poly (crcStep poly (crcStep poly (crcStep poly (crcStep poly (crcStep poly c)))))))

/-- CRC-32 of IEEE 802.3 (R174): polynomial 0x04C11DB7 reflected, initial and final value 0xFFFFFFFF. -/
def crc32 (bytes : List Nat) : Nat := bytes.foldl (crcByte 0xEDB88320) 0xFFFFFFFF ^^^ 0xFFFFFFFF

/-- The number whose fields, least significant first, have the widths and values given. -/
def pack : List (Nat × Nat) → Nat
  | [] => 0
  | (w, v) :: r => v % 2 ^ w + 2 ^ w * pack r

/-- The elements of a list in groups of `n`, `fuel` bounding their number. -/
def chunks {α : Type} (n : Nat) : Nat → List α → List (List α)
  | 0, _ => []
  | _ + 1, [] => []
  | fuel + 1, l => l.take n :: chunks n fuel (l.drop n)

/-- The integer square root, by bisection over `bits` bits. -/
def sqrtBits : Nat → Nat → Nat → Nat
  | 0, _, r => r
  | b + 1, n, r => if (r + 2 ^ b) * (r + 2 ^ b) ≤ n then sqrtBits b n (r + 2 ^ b) else sqrtBits b n r

/-- The floor of the square root of a number below 2 to the 256. -/
def sqrtNat (n : Nat) : Nat := sqrtBits 128 n 0

end Sys2Proof
end

