-- ==== Sys2Proof/Syntax.lean ====
section
/-! DEFINITION. The commands and events of the block: one constructor per row of the table of operations and events.
Operands are what the outside world decides: unit numbers, written values, received messages, measured quantities, and
`dt`, the number of 4 ns ticks that pass before an event whose instant the hub's own state does not fix. -/
namespace Sys2Proof

/-- A received TT_FOLLOW (Table 13.7). Times are in 2⁻¹⁶ ns, `siteMinusArray` is the signed difference at t1. `masterTx` and
`masterRx` are the master port's latency constants in ps, which R212 uses. -/
structure TtFollow where
  seq : Nat
  t1 : Nat
  t4 : Nat
  increment : Nat
  siteMinusArray : Int
  arrayQuality : Nat
  siteQuality : Nat
  level : Nat
  hub : Nat
  masterTx : Int
  masterRx : Int
deriving DecidableEq, Repr, Inhabited

/-- A received PTP Announce message: the fields the client uses (R415). `sender` is the master's port identity. -/
structure PtpAnnounce where
  version : Nat
  domain : Nat
  sender : Nat
  gm : Nat
  priority1 : Nat
  clockClass : Nat
  accuracy : Nat
  variance : Nat
  priority2 : Nat
  steps : Nat
  timescale : Bool
  utc : Int
  logInterval : Int
  badFcs : Bool
deriving DecidableEq, Repr, Inhabited

/-- The header fields of a received PTP Sync, Follow_Up or Delay_Resp message, with its time in 2⁻¹⁶ ns and its
correctionField (R415). -/
structure PtpHead where
  version : Nat
  domain : Nat
  sender : Nat
  seq : Nat
  time : Nat
  correction : Int
  badFcs : Bool
deriving DecidableEq, Repr, Inhabited

/-- What the environment shows at a grid instant: the differential voltage of each local channel in LSB₁₈(G3) / 256 (0 where
not listed), the channels whose common-mode comparator is tripped, and the sensed output of each driver in 1.25 mV / 65,536
(nominal where not listed). -/
structure HoldReadings where
  volts : List Int
  trips : List Nat
  senses : List (Option Nat)
deriving DecidableEq, Repr, Inhabited

/-- The readings of one converter in step B (R179, R182): the means of ZERO, PLUS and MINUS in 2⁻¹⁶ codes and the spread of
each phase at its first and its second attempt in 0.01 LSB₁₈. -/
structure CalConv where
  zero : Int
  plus : Int
  minus : Int
  spread1 : List Nat
  spread2 : List Nat
deriving DecidableEq, Repr, Inhabited

/-- What a foreground step has read (Table 6.4). `convs`: converter c of FE f (12 the swing core) at f × 13 + c. `refs`: the 64
readings r[f][i] of R183 of each FE die in 2⁻¹⁶ codes; `refTrips`: the dies whose CALREF comparator tripped. `means` and
`spreads`, by channel, are in 2⁻¹⁶ codes and 0.01 LSB₁₈: for step C the four ranges with the input shorted; for step D the
differences between +L and −L, L₀ direct and in G0, then L_r in G(r−1) and in G_r; for step E core and swing core at +L₀,
−L₀ and short. `dt` is the time the computation took, and `bad` lists the records and hub dies whose NVM write failed
twice. -/
structure CalReading where
  convs : List CalConv
  refs : List (List Int)
  refTrips : List Nat
  means : List (List Int)
  spreads : List (List Nat)
  dt : Nat
  bad : List (Nat × Nat)
deriving DecidableEq, Repr, Inhabited

/-- An ARM, DISARM or FIRE message (Table 13.7): the originating hub, the number, the TIME96 word and FORCED. -/
structure TrigMsg where
  hub : Nat
  num : Nat
  time : Nat
  forced : Bool
deriving DecidableEq, Repr, Inhabited


/-- One measurement of a lane's eye (R395, R399): the open phase points, the open voltage points (in 2 mV), and the five DFE taps that the
receiver had converged to. -/
structure EyeReading where
  width : Fin 65
  height : Fin 256
  taps : Fin 1099511627776
deriving DecidableEq, Repr

/-- The measurements of an equalisation pass in its order (R395): one with the coefficients at which TRAIN began, one for each boost, one
for each preset of the far transmitter, and again one for each boost. -/
structure TrainPass where
  first : EyeReading
  low : Vector EyeReading 16
  presets : Vector EyeReading 11
  high : Vector EyeReading 16
deriving DecidableEq, Repr

/-- What a receiver meets among 64 blocks beside whole frames and messages of Table 13.7 (R401, R402): invalid sync headers, blocks of an
unlisted type, messages of an unlisted type, and whether one of those errors falls inside a frame. -/
structure RxBlocks where
  headers : Fin 65
  types : Fin 65
  strays : Fin 65
  inFrame : Bool
deriving DecidableEq, Repr

/-- A frame received on an Ethernet port beside what its own row says (R412, R414): whether its FCS fails, whether it is tagged or longer
than 1,522 B, and the frames of every other kind received since the port's latest one: good ones, ones whose FCS fails, PAUSE frames. -/
structure EthRx where
  badFcs : Bool
  odd : Bool
  other : Nat
  otherBad : Nat
  pauses : Nat
deriving DecidableEq, Repr, Inhabited

/-- A received CAP message (Table 13.7). -/
structure CapMsg where
  hub : Fin 65536
  die : Fin 2
  down : Bool
  port : Fin 4
  rate : Fin 16
  brev : Fin 65536
  rev : Fin 65536
  version : Fin 256
deriving DecidableEq, Repr

/-- A received training word (Table 13.4): whether its mark is inverted, the preset requested of this end, the far end's
RX_READY, and whether the check holds. -/
structure TrainWord where
  inverted : Bool
  rate : Fin 16
  ffeReq : Fin 16
  ready : Bool
  good : Bool
deriving DecidableEq, Repr

/-- A received HOROL message (Table 13.7). -/
structure HorolMsg where
  dest : Fin 65536
  origin : Fin 65536
  number : Fin 65536
  pdu : List (Fin 256)
deriving DecidableEq, Repr

/-- What carries a request to the object server (R440 to R444): a CAN port, a HOROL message of the hub named, the hub's own
TUNNEL_REQUEST on a CAN port, or the mailbox. -/
inductive Carrier where
  | can (port : Fin 2)
  | tunnel (origin : Fin 65536)
  | own (port : Fin 2)
  | mailbox
deriving DecidableEq, Repr, Inhabited

/-- An uncorrectable error of a memory die: its byte address, and of what stood there the row of its capture slot, newest first,
or the place among the words that the trace buffer holds, oldest first. -/
structure MdError where
  addr : Fin 4294967296
  place : Nat
deriving DecidableEq, Repr

/-- What comes with a request: its carrier, its TRANSACTION, the ticks that pass before it reaches the Lead, and whether a write
of NVM that it needs succeeds. -/
structure ReqHead where
  src : Carrier
  tx : Fin 256
  dt : Nat
  nvm : Bool
deriving DecidableEq, Repr

/-- What a lane is configured by: BASE and PERSONALITY of its pair, and its own RATE_DIV, FALLBACK_DIV, TX_INVERT and RX_INVERT
(R389). -/
inductive LaneField where
  | base | personality | rateDiv | fallbackDiv | txInvert | rxInvert
deriving DecidableEq, Repr

/-- The commands and events (spec/opcode_table.json), those without operands last. -/
inductive Instr where
  /-- POWER_ON (R70). -/
  | powerOn (a b wakeHigh buck0 buck1 : Bool)
  /-- WAKE_RISE (R69). -/
  | wakeRise (long buck0 buck1 : Bool)
  /-- DIE_POWER_ON (R77). -/
  | diePowerOn (dt : Nat)
  /-- DIE_BRINGUP_TIMEOUT (R78). -/
  | dieBringupTimeout (i : Fin 8)
  /-- BOOT_COMPLETE (R57). -/
  | bootComplete (cfgOk : Bool) (trims : List (Nat × Nat))
  /-- RST_N_LOW (R80). -/
  | rstNLow (dt : Nat)
  /-- MODE_REQUEST_CONFIGURE (R57). -/
  | modeRequestConfigure (q : ReqHead)
  /-- MODE_REQUEST_SELF_TEST (R57). -/
  | modeRequestSelfTest (q : ReqHead)
  /-- MODE_REQUEST_CALIBRATE (R182). -/
  | modeRequestCalibrate (q : ReqHead)
  /-- MODE_REQUEST_RUN (R57). -/
  | modeRequestRun (q : ReqHead)
  /-- MODE_REQUEST_HOLD (R61). -/
  | modeRequestHold (q : ReqHead)
  /-- MODE_REQUEST_SERVICE (R57). -/
  | modeRequestService (q : ReqHead)
  /-- MODE_REQUEST_SAFE (R62). -/
  | modeRequestSafe (q : ReqHead)
  /-- MODE_REQUEST_CURTAIN_DOWN (R66). -/
  | modeRequestCurtainDown (q : ReqHead)
  /-- MODE_REQUEST_BOOT (R66). -/
  | modeRequestBoot (q : ReqHead)
  /-- SELF_TEST_DONE (R337). -/
  | selfTestDone (dt : Nat) (fails : List (Nat × Nat)) (cut : Fin 3)
  /-- OVER_TEMP_WARNING (R76). -/
  | overTempWarning (i : Fin 8) (dt : Nat) (tj : Int)
  /-- OVER_TEMP_SAFE (R62). -/
  | overTempSafe (i : Fin 8) (dt : Nat) (tj : Int)
  /-- THERMAL_TRIP (R75). -/
  | thermalTrip (i : Fin 8) (dt : Nat)
  /-- POWER_FAIL_WARNING (R75). -/
  | powerFailWarning (dt mv : Nat)
  /-- SHUTDOWN_DONE (R66). -/
  | shutdownDone (dt : Nat) (bad : List (Nat × Nat))
  /-- EMERGENCY_DONE (R75). -/
  | emergencyDone (dt : Nat)
  /-- VIN_LOST (R71). -/
  | vinLost (i : Fin 2) (dt mv : Nat)
  /-- VIN_RESTORED (R71). -/
  | vinRestored (i : Fin 2) (dt : Nat)
  /-- BUCK_FAULT (R73). -/
  | buckFault (k : Fin 2) (dt : Nat)
  /-- WATCHDOG_TIMEOUT (R81). -/
  | watchdogTimeout (x : Fin 2) (dt : Nat)
  /-- HP_RESTART (R81). -/
  | hpRestart (x : Fin 2) (dt : Fin 20000001)
  /-- CB_RECORD_READ (R87). -/
  | cbRecordRead (q : ReqHead)
  /-- GRID_HOLD (R120). -/
  | gridHold (r : HoldReadings)
  /-- CORE_SLOT_BOUNDARY (R134). -/
  | coreSlotBoundary (k : Fin 48) (bg : Int)
  /-- RAW_FRAME_ARRIVAL (R46). -/
  | rawFrameArrival (x : Fin 2) (f : Fin 4) (good : Bool) (dt : Nat)
  /-- RAW_FRAME_RELEASE (R46). -/
  | rawFrameRelease (full0 full1 : Bool)
  /-- DIE_LINK_FAILED (R334). -/
  | dieLinkFailed (x : Fin 2) (f : Fin 4)
  /-- EXC_FAULT (R104). -/
  | excFault (d : Fin 96) (dt : Nat) (ratio : Bool)
  /-- EXC_LATCHED_OFF (R104). -/
  | excLatchedOff (d : Fin 96)
  /-- EXC_FAULT_CLEAR (R104). -/
  | excFaultClear (q : ReqHead) (d : Fin 96)
  /-- EXC_WINDOW_EDGE (R105). -/
  | excWindowEdge (d : Fin 96)
  /-- EXC_DRIVER_TURN_ON (R116). -/
  | excDriverTurnOn (d : Fin 96)
  /-- EXC_RESYNC (R115). -/
  | excResync (n : Fin 384)
  /-- GATED_AVERAGE_OUTPUT (R111). -/
  | gatedAverageOutput (n : Fin 384)
  /-- HOLD_SKEW_MEASURE (R123). -/
  | holdSkewMeasure (skews : List Int)
  /-- INJ_SOURCE_EDGE (R132). -/
  | injSourceEdge (k : Fin 48) (dt : Nat) (f : Fin 512) (rising : Bool)
  /-- INJ_SOFT_START (R132). -/
  | injSoftStart (q : ReqHead) (k : Fin 48)
  /-- INJECTED_HOLD (R133). -/
  | injectedHold (k : Fin 48) (holds : List (Int × Bool)) (resid : Fin 3)
  /-- DIAG_OUTPUT (R130). -/
  | diagOutput (k : Fin 48) (q : Fin 3)
  /-- SWING_REQUEST_TAKEOVER (R140). -/
  | swingRequestTakeover (q : ReqHead) (f : Fin 4) (c : Fin 12)
  /-- SWING_REQUEST_RETURN (R140). -/
  | swingRequestReturn (q : ReqHead) (f : Fin 4)
  /-- SWING_OVERLAP_DONE (R139). -/
  | swingOverlapDone (f : Fin 4) (diff : Nat)
  /-- CORE_FAULT (R141). -/
  | coreFault (k : Fin 48)
  /-- FILTER_OUTPUT (R155). -/
  | filterOutput (n : Fin 384)
  /-- DETECTOR_UPDATE (R163). -/
  | detectorUpdate (d : Fin 64)
  /-- RESYNC_REQUEST (R157). -/
  | resyncRequest (q : ReqHead) (v : Fin 65536)
  /-- BG_CAL_PHASE_DONE (R179). -/
  | bgCalPhaseDone (f : Fin 4) (mean : Int) (spread : Nat)
  /-- BG_CAL_NVM_WRITE (R175). -/
  | bgCalNvmWrite (bad : List (Nat × Nat))
  /-- CAL_STEP_DONE (R182). -/
  | calStepDone (r : CalReading)
  /-- CAL_CANCEL (R184). -/
  | calCancel (q : ReqHead)
  /-- CAL_RECORD_IMPORT (R188). -/
  | calRecordImport (q : ReqHead) (b : List (Fin 256))
  /-- PPS_IN_EDGE (R206). -/
  | ppsInEdge (dt : Nat) (f : Fin 512)
  /-- REFCLK_IN_VALID_CHANGE (R208). -/
  | refclkInValidChange (valid : Bool)
  /-- TOD_NEXT (R207). -/
  | todNext (q : ReqHead) (w : Fin 79228162514264337593543950336)
  /-- TIME_MEASUREMENT (R201). -/
  | timeMeasurement (b : Fin 2) (freq : Nat)
  /-- TIME_SOURCE_LOST (R209). -/
  | timeSourceLost (b : Fin 2)
  /-- SERVO_STALL (R201). -/
  | servoStall (b : Fin 2)
  /-- JUMP_ACCEPT (R203). -/
  | jumpAccept (q : ReqHead) (b : Fin 2)
  /-- TIME_STEP (R203). -/
  | timeStep (b : Fin 2)
  /-- SET (R225). -/
  | set (q : ReqHead) (b : Fin 4) (w : Fin 79228162514264337593543950336)
  /-- INCREMENT_WRITE (R225). -/
  | incrementWrite (q : ReqHead) (v : Fin 18446744073709551616)
  /-- SOURCE_WRITE (R201). -/
  | sourceWrite (q : ReqHead) (b : Fin 2) (port : Bool) (v : Fin 256)
  /-- TIMEBASE_COMPARE (R198). -/
  | timebaseCompare (differ : Bool)
  /-- CLOCK_FAULT (R199). -/
  | clockFault (x : Fin 2)
  /-- TT_SYNC_SEND (R211). -/
  | ttSyncSend (u : Fin 8) (dt : Nat) (f : Fin 512)
  /-- TT_SYNC_RECEIVE (R211). -/
  | ttSyncReceive (u : Fin 8) (dt : Nat) (f : Fin 512) (seq : Fin 65536) (crc : Bool)
  /-- TT_DELAY_SEND (R211). -/
  | ttDelaySend (u : Fin 8) (dt : Nat) (f : Fin 512)
  /-- TT_DELAY_RECEIVE (R211). -/
  | ttDelayReceive (u : Fin 8) (dt : Nat) (f : Fin 512) (seq : Fin 65536) (slaveState : Fin 6) (crc : Bool)
  /-- TT_FOLLOW_SEND (R211). -/
  | ttFollowSend (u : Fin 8)
  /-- TT_FOLLOW_RECEIVE (R212). -/
  | ttFollowReceive (u : Fin 8) (dt : Nat) (m : TtFollow) (crc : Bool)
  /-- TT_EXCHANGE_FAILED (R213). -/
  | ttExchangeFailed (u : Fin 8)
  /-- FREQ_RATIO_MEASURE (R214). -/
  | freqRatioMeasure (u : Fin 8) (ratio : Int)
  /-- UPLINK_SOURCE_RESELECT (R215). -/
  | uplinkSourceReselect (b : Fin 2)
  /-- TIME_CUE_FIRE (R220). -/
  | timeCueFire (c : Fin 32)
  /-- TIME_CUE_ARM (R221). -/
  | timeCueArm (q : ReqHead) (c : Fin 32) (v : Bool)
  /-- TIME_CUE_REARM (R221). -/
  | timeCueRearm (q : ReqHead) (c : Fin 32) (count : Bool) (w : Fin 79228162514264337593543950336)
  /-- TIME_CUE_PERIOD_WRITE (R371). -/
  | timeCuePeriodWrite (q : ReqHead) (c : Fin 32) (v : Fin 18446744073709551616)
  /-- PTP_ANNOUNCE (R415). -/
  | ptpAnnounce (dt : Nat) (a : PtpAnnounce)
  /-- PTP_SYNC (R415). -/
  | ptpSync (dt : Nat) (f : Fin 512) (lane4 twoStep : Bool) (p : PtpHead)
  /-- PTP_FOLLOW_UP (R415). -/
  | ptpFollowUp (dt : Nat) (p : PtpHead)
  /-- PTP_DELAY_REQ_SEND (R415). -/
  | ptpDelayReqSend (dt : Nat) (f : Fin 512)
  /-- PTP_DELAY_RESP (R415). -/
  | ptpDelayResp (dt : Nat) (p : PtpHead) (requester : Nat)
  /-- PTP_ANNOUNCE_TIMEOUT (R415). -/
  | ptpAnnounceTimeout (dt : Nat)
  /-- SEQUENCER_TICK (R234). -/
  | sequencerTick (dt : Nat)
  /-- SEQ_TIMER_EXPIRE (R236). -/
  | seqTimerExpire (t : Fin 2)
  /-- SEQ_COUNTER_REACHED (R236). -/
  | seqCounterReached (c : Fin 2)
  /-- COMPARATOR_EDGE (R239). -/
  | comparatorEdge (k : Fin 32) (dt : Nat) (f : Fin 512) (input : Int)
  /-- COMPARATOR_STAMP (R241). -/
  | comparatorStamp (k : Fin 32) (dt : Nat)
  /-- CUE_FIRE_IN_EDGE (R244). -/
  | cueFireInEdge (dt : Nat) (f : Fin 512) (low : Bool)
  /-- CUE_ARM_IN_EDGE (R237). -/
  | cueArmInEdge (dt : Nat) (f : Fin 512) (high : Bool)
  /-- ARM_MESSAGE (R245). -/
  | armMessage (l : Fin 16) (dt : Nat) (m : TrigMsg) (crc : Bool)
  /-- DISARM_MESSAGE (R245). -/
  | disarmMessage (l : Fin 16) (dt : Nat) (m : TrigMsg) (crc : Bool)
  /-- FIRE_MESSAGE (R245). -/
  | fireMessage (l : Fin 16) (dt : Nat) (m : TrigMsg) (crc : Bool)
  /-- FIRE_INJECT (R245). -/
  | fireInject (q : ReqHead) (v : Fin 87112285931760246646623899502532662132736)
  /-- ARM_INJECT (R245). -/
  | armInject (q : ReqHead) (v : Fin 87112285931760246646623899502532662132736)
  /-- SOFT_TRIGGER (R232). -/
  | softTrigger (q : ReqHead) (v : Fin 256)
  /-- CAPTURE_COMPLETE (R253). -/
  | captureComplete (n : Fin 16)
  /-- RELEASE (R253). -/
  | release (q : ReqHead) (n : Fin 16)
  /-- READOUT_START (R258). -/
  | readoutStart (q : ReqHead) (n : Fin 16)
  /-- CAPTURE_READOUT_DONE (R253). -/
  | captureReadoutDone (n : Fin 16)
  /-- CAPTURE_DATA_READ (R258). -/
  | captureDataRead (q : ReqHead) (i : Fin 16) (n : Fin 65536)
  /-- LOOP_SAFE (R278). -/
  | loopSafe (l : Fin 32)
  /-- INJECTION_DONE (R282). -/
  | injectionDone (l : Fin 32)
  /-- TRACE_FULL (R285). -/
  | traceFull (b : Fin 8)
  /-- PATTERN_STEP_DONE (R306). -/
  | patternStepDone (g : Fin 4)
  /-- PATTERN_CUE_TIMEOUT (R309). -/
  | patternCueTimeout (g : Fin 4)
  /-- PATTERN_FAULT (R308). -/
  | patternFault (g : Fin 4)
  /-- LOOP_MODE_OFF (R276). -/
  | loopModeOff (q : ReqHead) (l : Fin 32)
  /-- LOOP_MODE_MANUAL (R276). -/
  | loopModeManual (q : ReqHead) (l : Fin 32)
  /-- LOOP_MODE_HYSTERETIC (R276). -/
  | loopModeHysteretic (q : ReqHead) (l : Fin 32)
  /-- LOOP_MODE_PROFILE (R276). -/
  | loopModeProfile (q : ReqHead) (l : Fin 32)
  /-- LOOP_MODE_TUNE (R276). -/
  | loopModeTune (q : ReqHead) (l : Fin 32)
  /-- MANUAL_OUTPUT (R276). -/
  | manualOutput (q : ReqHead) (l : Fin 32) (v : Fin 65536)
  /-- TARGET (R275). -/
  | target (q : ReqHead) (l : Fin 32) (v : Fin 18446744073709551616)
  /-- INJ_GO (R282). -/
  | injGo (q : ReqHead) (l : Fin 32)
  /-- TRACE_GO_START (R285). -/
  | traceGoStart (q : ReqHead) (b : Fin 8)
  /-- TRACE_GO_STOP (R285). -/
  | traceGoStop (q : ReqHead) (b : Fin 8)
  /-- TRACE_DATA_READ (R285). -/
  | traceDataRead (q : ReqHead) (b : Fin 8) (n : Fin 65536)
  /-- HOST_LEVEL (R280). -/
  | hostLevel (q : ReqHead) (o : Fin 16) (v : Bool)
  /-- CTL_PULSE_END (R280). -/
  | ctlPulseEnd (o : Fin 16)
  /-- CTL_FAULT (R281). -/
  | ctlFault (o : Fin 16) (dt : Nat)
  /-- CTL_FAULT_CLEAR (R281). -/
  | ctlFaultClear (q : ReqHead) (o : Fin 16)
  /-- FL_OVERCURRENT (R296). -/
  | flOvercurrent (k : Fin 8) (dt : Nat) (again : Bool)
  /-- FL_OPEN (R296). -/
  | flOpen (k : Fin 8) (dt : Nat)
  /-- FL_OPEN_RETRY (R296). -/
  | flOpenRetry (k : Fin 8) (ok : Bool)
  /-- FL_LATCHED_OFF (R296). -/
  | flLatchedOff (k : Fin 8)
  /-- FL_FAULT_CLEAR (R296). -/
  | flFaultClear (q : ReqHead) (n : Fin 8)
  /-- ENG_GO_START (R310). -/
  | engGoStart (q : ReqHead) (g : Fin 4)
  /-- ENG_GO_STOP (R310). -/
  | engGoStop (q : ReqHead) (g : Fin 4)
  /-- RELINQUISH (R321). -/
  | relinquish (x : Fin 2) (c : Fin 13) (item : Nat)
  /-- TAKE_MESSAGE (R328). -/
  | takeMessage (f : Fin 4) (dt : Nat)
  /-- ARBITER_FAILOVER (R329). -/
  | arbiterFailover (f : Fin 4) (clock : Bool)
  /-- FE_COMMAND_TIMEOUT (R334). -/
  | feCommandTimeout (f : Fin 4)
  /-- PEER_LINK_LOST (R322). -/
  | peerLinkLost (crc : Bool)
  /-- PEER_LINK_RETRY (R322). -/
  | peerLinkRetry (ok : Bool)
  /-- PEER_WRITE_TIMEOUT (R43). -/
  | peerWriteTimeout (i : Fin 65536) (sub : Fin 256)
  /-- ISLAND_SILENT (R323). -/
  | islandSilent (x : Fin 2)
  /-- CROSS_COMPARE (R324). -/
  | crossCompare (dt : Nat) (bad : Fin 32)
  /-- ECC_RATE (R325). -/
  | eccRate (x : Fin 2) (n : Nat)
  /-- ROLE_ELECTION (R318). -/
  | roleElection (sel : Bool) (r0 r1 : Fin 16)
  /-- PEER_LINK_BOOT_TIMEOUT (R319). -/
  | peerLinkBootTimeout (sel : Bool) (r0 r1 : Fin 16)
  /-- ROLE_RECOVERY (R317). -/
  | roleRecovery (x : Fin 2)
  /-- READMIT_REQUEST (R332). -/
  | readmitRequest (q : ReqHead)
  /-- ROLE_SWAP_REQUEST (R333). -/
  | roleSwapRequest (q : ReqHead)
  /-- FRAME_RX (R335). -/
  | frameRx (l : Fin 16) (dt : Nat) (words : List Nat) (aborted : Bool)
  /-- GAP_RECORD_RX (R363). -/
  | gapRecordRx (l : Fin 16) (dt : Nat) (words : List Nat)
  /-- RECORD_FRAME_MAX_AGE (R351). -/
  | recordFrameMaxAge (q : Fin 64)
  /-- FWD_TIMEOUT (R366). -/
  | fwdTimeout (j : Fin 128)
  /-- FWD_STREAM_SILENT (R366). -/
  | fwdStreamSilent (j : Fin 128)
  /-- QUEUE_FLUSH (R381). -/
  | queueFlush (q : ReqHead) (x : Fin 2)
  /-- LANE_TX_BLOCK (R403). -/
  | laneTxBlock (l : Fin 16) (dt : Nat) (poison : Bool)
  /-- LANE_ENABLE (R391). -/
  | laneEnable (q : ReqHead) (l : Fin 16) (v : Bool)
  /-- LANE_CONFIG_WRITE (R389). -/
  | laneConfigWrite (q : ReqHead) (l : Fin 16) (o : LaneField) (v : Fin 256)
  /-- RECEIVER_DETECT_STEP (R393). -/
  | receiverDetectStep (l : Fin 16) (found : Bool)
  /-- LANE_DETECT_DONE (R392). -/
  | laneDetectDone (l : Fin 16) (dt : Nat)
  /-- LANE_HALF_DETECT (R392). -/
  | laneHalfDetect (l : Fin 16) (dt : Nat) (signal : Bool)
  /-- TRAINING_WORD_RX (R394). -/
  | trainingWordRx (l : Fin 16) (dt : Nat) (w : TrainWord)
  /-- TRAIN_PASS_DONE (R395). -/
  | trainPassDone (l : Fin 16) (dt : Nat) (e : TrainPass)
  /-- TRAIN_TIMEOUT (R396). -/
  | trainTimeout (l : Fin 16)
  /-- TRAIN_SIGNAL_LOST (R392). -/
  | trainSignalLost (l : Fin 16) (dt : Nat)
  /-- BLOCK_LOCK (R392). -/
  | blockLock (l : Fin 16) (dt : Nat)
  /-- LOCK_TIMEOUT (R392). -/
  | lockTimeout (l : Fin 16)
  /-- CAP (R397). -/
  | cap (l : Fin 16) (dt : Nat) (c : CapMsg) (crc : Bool)
  /-- CAP_RESEND (R397). -/
  | capResend (l : Fin 16)
  /-- EXCHANGE_TIMEOUT (R392). -/
  | exchangeTimeout (l : Fin 16)
  /-- LANE_SIGNAL_LOST (R392). -/
  | laneSignalLost (l : Fin 16) (dt : Nat)
  /-- SYNC_HEADER_ERRORS (R392). -/
  | syncHeaderErrors (l : Fin 16) (dt : Nat) (n : RxBlocks) (wide : Bool)
  /-- RETRAIN (R392). -/
  | retrain (q : ReqHead) (l : Fin 16)
  /-- PLL_UNLOCK (R392). -/
  | pllUnlock (p : Fin 8) (dt : Nat)
  /-- LANE_RETRY (R398). -/
  | laneRetry (l : Fin 16)
  /-- EYE_SCAN (R399). -/
  | eyeScan (l : Fin 16) (e : EyeReading)
  /-- LPM_REQUEST_L1 (R408). -/
  | lpmRequestL1 (q : ReqHead) (l : Fin 16)
  /-- LPM_REQUEST_L2 (R408). -/
  | lpmRequestL2 (q : ReqHead) (l : Fin 16)
  /-- LPM_REQUEST_NONE (R409). -/
  | lpmRequestNone (q : ReqHead) (l : Fin 16)
  /-- LP_ENTER (R408). -/
  | lpEnter (l : Fin 16) (dt : Nat) (target : Fin 256) (crc : Bool)
  /-- LP_ACK (R408). -/
  | lpAck (l : Fin 16) (dt : Nat) (accepted crc : Bool)
  /-- LP_ACK_TIMEOUT (R408). -/
  | lpAckTimeout (l : Fin 16)
  /-- LP_REQUEST_REPEAT (R408). -/
  | lpRequestRepeat (l : Fin 16)
  /-- LANE_WAKE (R409). -/
  | laneWake (l : Fin 16) (dt : Nat) (far : Bool)
  /-- LP_NO_WAKE_TIMEOUT (R392). -/
  | lpNoWakeTimeout (l : Fin 16) (dt : Nat)
  /-- LOOPBACK_NEAR_SERIAL (R411). -/
  | loopbackNearSerial (q : ReqHead) (l : Fin 16)
  /-- LOOPBACK_NEAR_PARALLEL (R411). -/
  | loopbackNearParallel (q : ReqHead) (l : Fin 16)
  /-- LOOPBACK_FAR (R411). -/
  | loopbackFar (q : ReqHead) (l : Fin 16)
  /-- LOOPBACK_STOP (R411). -/
  | loopbackStop (q : ReqHead) (l : Fin 16)
  /-- FLOOP_REQ (R411). -/
  | floopReq (l : Fin 16) (dt : Nat) (start crc : Bool)
  /-- FLOOP_ACK (R411). -/
  | floopAck (l : Fin 16) (dt : Nat) (accepted crc : Bool)
  /-- FAR_LOOP_TIMEOUT (R411). -/
  | farLoopTimeout (l : Fin 16)
  /-- HOROL (R406). -/
  | horol (l : Fin 16) (dt : Nat) (m : HorolMsg) (crc nvm : Bool)
  /-- ARP_REQUEST_RX (R414). -/
  | arpRequestRx (u : Fin 8) (dt : Nat) (target : Nat) (r : EthRx)
  /-- NEIGHBOR_SOLICITATION_RX (R414). -/
  | neighborSolicitationRx (u : Fin 8) (dt : Nat) (target : Nat) (r : EthRx)
  /-- ECHO_REQUEST_RX (R414). -/
  | echoRequestRx (u : Fin 8) (dt : Nat) (v6 : Bool) (target size : Nat) (r : EthRx)
  /-- RESOLVE_REQUEST (R414). -/
  | resolveRequest (u : Fin 8)
  /-- RESOLVE_REFRESH (R414). -/
  | resolveRefresh (u : Fin 8)
  /-- RESOLVE_DROP (R414). -/
  | resolveDrop (u : Fin 8)
  /-- MEMBERSHIP_REPORT (R414). -/
  | membershipReport (u : Fin 8)
  /-- ETH_FAULT (R416). -/
  | ethFault (u : Fin 8) (dt : Nat) (remote : Bool)
  /-- ETH_FAULT_END (R416). -/
  | ethFaultEnd (u : Fin 8)
  /-- READ (R428). -/
  | read (q : ReqHead) (i : Fin 65536) (sub : Fin 256) (staged : Bool)
  /-- WRITE (R425). -/
  | write (q : ReqHead) (i : Fin 65536) (sub : Fin 256) (b : List (Fin 256))
  /-- STAGE (R430). -/
  | stage (q : ReqHead) (i : Fin 65536) (sub : Fin 256) (b : List (Fin 256))
  /-- STAGE_CLEAR (R430). -/
  | stageClear (q : ReqHead)
  /-- COMMIT_PREPARE (R432). -/
  | commitPrepare (q : ReqHead) (id : Fin 65536) (w : Fin 79228162514264337593543950336)
  /-- COMMIT_CONFIRM (R432). -/
  | commitConfirm (q : ReqHead) (id : Fin 65536) (w : Fin 79228162514264337593543950336)
  /-- COMMIT_PREPARE_CONFIRM (R432). -/
  | commitPrepareConfirm (q : ReqHead) (id : Fin 65536) (w : Fin 79228162514264337593543950336)
  /-- ABORT_COMMIT (R437). -/
  | abortCommit (q : ReqHead) (id : Fin 65536)
  /-- ABORT_TRANSFER (R437). -/
  | abortTransfer (q : ReqHead) (t : Fin 256)
  /-- BLOCK_READ (R438). -/
  | blockRead (q : ReqHead) (i : Fin 65536) (sub : Fin 256) (n : Fin 65536)
  /-- BLOCK_WRITE (R438). -/
  | blockWrite (q : ReqHead) (i : Fin 65536) (sub seg : Fin 256) (staged : Bool) (len : Fin 16384) (b : List (Fin 256))
  /-- HEARTBEAT (R437). -/
  | heartbeat (q : ReqHead)
  /-- SERVICE_UNKNOWN (R437). -/
  | serviceUnknown (q : ReqHead) (c : Fin 32) (i : Fin 65536) (sub : Fin 256)
  /-- REQUEST (R442). -/
  | request (p : Fin 2) (fd : Bool) (fn : Fin 16) (node : Fin 128) (b : List (Fin 256)) (dt : Nat) (nvm : Bool)
  /-- TUNNEL_REQUEST (R443). -/
  | tunnelRequest (p : Fin 2) (node : Fin 128) (dest : Fin 65536) (b : List (Fin 256)) (dt : Nat) (nvm : Bool)
  /-- CAN_BUS_OFF (R441). -/
  | canBusOff (p : Fin 2) (dt : Nat)
  /-- CAN_BUS_OFF_RECOVERY (R441). -/
  | canBusOffRecovery (p : Fin 2) (dt : Nat)
  /-- DOORBELL (R444). -/
  | doorbell (v : Fin 65536) (dt : Nat) (nvm : Bool)
  /-- FW_TARGET_SLOT (R447). -/
  | fwTargetSlot (q : ReqHead) (v : Fin 256)
  /-- FW_ERASE (R447). -/
  | fwErase (q : ReqHead)
  /-- FW_DATA (R447). -/
  | fwData (q : ReqHead) (b : List (Fin 256))
  /-- FW_VERIFY (R447). -/
  | fwVerify (q : ReqHead)
  /-- FW_BOOT_SLOT (R447). -/
  | fwBootSlot (q : ReqHead) (x : Fin 2) (v : Fin 256)
  /-- CONFIG_SAVE_STORE (R449). -/
  | configSaveStore (q : ReqHead)
  /-- CONFIG_SAVE_ERASE (R449). -/
  | configSaveErase (q : ReqHead)
  /-- MIRROR_READ (R460). -/
  | mirrorRead (a : Fin 32768) (dt : Nat)
  /-- MIRROR_WRITE (R455). -/
  | mirrorWrite (a : Fin 32768) (v : Fin 65536) (dt : Nat) (nvm : Bool)
  /-- MIRROR_PORT_HANDOVER (R462). -/
  | mirrorPortHandover (dt : Fin 250) (idle : Bool) (a : Fin 32768)
  /-- GR_SCRUB (R469). -/
  | grScrub (x : Fin 2) (dt : Nat) (fixed : List (Fin 8)) (bad : List Nat) (pass : Bool)
  /-- MD_SCRUB (R473). -/
  | mdScrub (m : Fin 2) (dt n : Nat) (bad : List MdError) (pass : Bool)
  /-- GR_COUNTERS_CLEAR (R467). -/
  | grCountersClear (q : ReqHead)
  /-- EXC_FAULT_CLEARED (R104). -/
  | excFaultCleared (d : Fin 96) (dt : Nat)
  /-- MD_INTERFACE_LOST (R325). -/
  | mdInterfaceLost (x : Fin 2)
  /-- DIE_BRINGUP_COMPLETE (R78). -/
  | dieBringupComplete (i : Fin 8) (dt : Nat)
  /-- ARP_REPLY_RX (R414). -/
  | arpReplyRx (u : Fin 8) (dt : Nat) (sender mac : Nat) (r : EthRx)
  /-- NEIGHBOR_ADVERTISEMENT_RX (R414). -/
  | neighborAdvertisementRx (u : Fin 8) (dt : Nat) (target mac : Nat) (r : EthRx)
  /-- RAIL_FAULT (R74). -/
  | railFault
  /-- RAIL_RETRY (R74). -/
  | railRetry
  /-- RST_N_RISE (R80). -/
  | rstNRise
  /-- SYNC_TIMEOUT (R57). -/
  | syncTimeout
  /-- RUN_START (R60). -/
  | runStart
  /-- HOLD_ENTRY (R61). -/
  | holdEntry
  /-- HOLD_EXIT (R61). -/
  | holdExit
  /-- QUEUE_DISCARD (R66). -/
  | queueDiscard
  /-- AUTO_RANGE_DECISION (R95). -/
  | autoRangeDecision
  /-- BG_CAL_ROUND_START (R178). -/
  | bgCalRoundStart
  /-- XCHK_SECOND (R216). -/
  | xchkSecond
  /-- PPS_OUT_PULSE (R223). -/
  | ppsOutPulse
  /-- PPS_OUT_PULSE_END (R223). -/
  | ppsOutPulseEnd
  /-- AUTO_TIMEOUT (R247). -/
  | autoTimeout
  /-- CUE_FIRE_PULSE_END (R237). -/
  | cueFirePulseEnd
  /-- EVENT_SETTLE_EXPIRY (R246). -/
  | eventSettleExpiry
  /-- ENGINE_FRAME (R266). -/
  | engineFrame
  /-- HANDOVER (R328). -/
  | handover
  /-- READMISSION (R332). -/
  | readmission
  /-- READMITS_RESTORE (R332). -/
  | readmitsRestore
  /-- GAP_RECORD_ISSUE (R362). -/
  | gapRecordIssue
  /-- COMMIT_APPLY (R434). -/
  | commitApply
  /-- COMMIT_EXPIRE (R432). -/
  | commitExpire
  /-- TRANSFER_INCOMPLETE (R438). -/
  | transferIncomplete
  /-- HEARTBEAT_SEND (R437). -/
  | heartbeatSend
deriving DecidableEq, Repr

end Sys2Proof
end

