-- ==== Sys2Proof/Config.lean ====
section
/-! DEFINITION. What the specification leaves open: free values. Each is an opaque constant with no body, applied to the
counter `Hub.free` (or to the operands it depends on), so that no proof can see a value of it. -/
namespace Sys2Proof.Config

/-- A free natural number, for each reading of the free counter. -/
opaque freeNat : Nat → Nat

/-- A free integer, for each reading of the free counter. -/
opaque freeInt : Nat → Int

/-- A free truth value, for each reading of the free counter. -/
opaque freeBool : Nat → Bool

/-- Tap `i` of the compensating filter of one of the 24 settings (R152 gives its shape, and the values only through
FIR_COEFF of the part). -/
opaque firCoeff : Nat → Nat → Int

/-- The raw bits under LOST, by grid index and local channel (R255 states LOST alone). -/
opaque lostRaw : Nat → Nat → Nat

/-- What an erased or never written byte of a firmware slot reads as, by hub die, slot and offset. -/
opaque flashByte : Nat → Nat → Nat → Nat

/-- SPARES_USED, GROUP_A and GROUP_B that the fuses of a green-room bank report, by hub die and bank (R470). -/
opaque bankFuses : Nat → Nat → Nat

/-- What the test left open in a trim record's header, by record number and field: WRITER_REV, GENERATION, WRITTEN and BOOT
(Table 6.2). -/
opaque trimField : Nat → Nat → Nat

/-- What a trim record holds beside the terms of the channels and converters, by record number: the skew-line characterisation of
an FE die, and the whole content for a hub die or a memory die (Table 6.3; the spec does not give it). -/
opaque trimContent : Nat → List Nat

/-- The bits by which a loopback's checker begins late, by lane and kind: the length of the loop (R410). -/
opaque loopDelay : Nat → Nat → Nat

end Sys2Proof.Config
end

