-- ==== Sys2Proof/Machine/Aborts.lean ====
section
/-! DEFINITION. The abort codes of Table 14.10. -/
namespace Sys2Proof.Machine.Abort

/-- CAUSE_PERSISTS (R62). -/
abbrev causePersists : Nat := 0x0201
/-- RANGE_LIMITS_INVALID (R94). -/
abbrev rangeLimitsInvalid : Nat := 0x0301
/-- EXC_STAGGER_UNFIT (R106, R109). -/
abbrev excStaggerUnfit : Nat := 0x0302
/-- EXC_PEAK_EXCEEDED (R107, R110). -/
abbrev excPeakExceeded : Nat := 0x0303
/-- EXC_AVERAGE_EXCEEDED (R108, R110). -/
abbrev excAverageExceeded : Nat := 0x0304
/-- GATE_WITHOUT_PULSE (R112). -/
abbrev gateWithoutPulse : Nat := 0x0305
/-- EXC_WINDOW_EMPTY (R112). -/
abbrev excWindowEmpty : Nat := 0x0306
/-- BG_LIST_INCOMPLETE (R128). -/
abbrev bgListIncomplete : Nat := 0x0401
/-- INJ_ELIGIBLE_EXCEEDED (R131). -/
abbrev injEligibleExceeded : Nat := 0x0402
/-- SWING_UNAVAILABLE (R140). -/
abbrev swingUnavailable : Nat := 0x0403
/-- DETECTOR_SOURCE_INVALID (R162, R346). -/
abbrev detectorSourceInvalid : Nat := 0x0501
/-- CAL_REF_MISMATCH (R183). -/
abbrev calRefMismatch : Nat := 0x0601
/-- CAL_REF_UNSTABLE (R183). -/
abbrev calRefUnstable : Nat := 0x0602
/-- CAL_CONVERTER_UNSTABLE (R184). -/
abbrev calConverterUnstable : Nat := 0x0603
/-- CAL_INTERRUPTED (R184). -/
abbrev calInterrupted : Nat := 0x0604
/-- CAL_RECORD_INVALID (R188). -/
abbrev calRecordInvalid : Nat := 0x0605
/-- CAL_RECORD_PROTECTED (R188). -/
abbrev calRecordProtected : Nat := 0x0606
/-- CAL_RECORD_FOREIGN (R188). -/
abbrev calRecordForeign : Nat := 0x0607
/-- TRIGGER_CONFIG_INVALID (R232, R233, R239, R247). -/
abbrev triggerConfigInvalid : Nat := 0x0801
/-- CAPTURE_AREA_EXCEEDED (R249). -/
abbrev captureAreaExceeded : Nat := 0x0802
/-- CAPTURE_SOURCE_INVALID (R250). -/
abbrev captureSourceInvalid : Nat := 0x0803
/-- CAPTURE_TOO_LONG (R251). -/
abbrev captureTooLong : Nat := 0x0804
/-- CAPTURE_NOT_READY (R253). -/
abbrev captureNotReady : Nat := 0x0805
/-- LOOP_CONFIG_INVALID (R263, R272, R276, R283). -/
abbrev loopConfigInvalid : Nat := 0x0901
/-- LOOP_SOURCE_INVALID (R267). -/
abbrev loopSourceInvalid : Nat := 0x0902
/-- LOOP_OUTPUT_CONFLICT (R272, R297). -/
abbrev loopOutputConflict : Nat := 0x0903
/-- LOOP_WRONG_MODE (R276). -/
abbrev loopWrongMode : Nat := 0x0904
/-- CONTROL_BUDGET_EXCEEDED (R279). -/
abbrev controlBudgetExceeded : Nat := 0x0905
/-- CONTROL_PEAK_EXCEEDED (R279). -/
abbrev controlPeakExceeded : Nat := 0x0906
/-- TRACE_NOT_READY (R285). -/
abbrev traceNotReady : Nat := 0x0907
/-- FOOTLIGHTS_CONFIG_INVALID (R297, R306). -/
abbrev footlightsConfigInvalid : Nat := 0x0A01
/-- READMIT_NOT_READY (R332). -/
abbrev readmitNotReady : Nat := 0x0B01
/-- NO_UNDERSTUDY (R333, R338). -/
abbrev noUnderstudy : Nat := 0x0B02
/-- STREAM_CONFIG_INVALID (R369). -/
abbrev streamConfigInvalid : Nat := 0x0C01
/-- STREAM_RATE_MISMATCH (R369). -/
abbrev streamRateMismatch : Nat := 0x0C02
/-- FRAME_TOO_LARGE (R358). -/
abbrev frameTooLarge : Nat := 0x0C03
/-- FORWARD_CONFIG_INVALID (R346, R369). -/
abbrev forwardConfigInvalid : Nat := 0x0C04
/-- DESC_CACHE_EXCEEDED (R344). -/
abbrev descCacheExceeded : Nat := 0x0C05
/-- CHANNEL_STREAMS_EXCEEDED (R368). -/
abbrev channelStreamsExceeded : Nat := 0x0C06
/-- MEMORY_BUDGET_EXCEEDED (R374). -/
abbrev memoryBudgetExceeded : Nat := 0x0C07
/-- LANE_BUDGET_EXCEEDED (R373). -/
abbrev laneBudgetExceeded : Nat := 0x0C08
/-- QUEUE_BUDGET_EXCEEDED (R375). -/
abbrev queueBudgetExceeded : Nat := 0x0C09
/-- LANE_NOT_ACTIVE (R411, Table 13.13). -/
abbrev laneNotActive : Nat := 0x0D01
/-- FAR_LOOP_REFUSED (R411). -/
abbrev farLoopRefused : Nat := 0x0D02
/-- NO_SUCH_OBJECT (R9, R22, R423). -/
abbrev noSuchObject : Nat := 0x0E01
/-- WRITE_TO_READ_ONLY (R425). -/
abbrev writeToReadOnly : Nat := 0x0E02
/-- READ_OF_WRITE_ONLY (R425). -/
abbrev readOfWriteOnly : Nat := 0x0E03
/-- LENGTH_MISMATCH (R423, R428). -/
abbrev lengthMismatch : Nat := 0x0E04
/-- VALUE_OUT_OF_RANGE (R423 and where named). -/
abbrev valueOutOfRange : Nat := 0x0E05
/-- WRONG_MODE (R15, R425 and where named). -/
abbrev wrongMode : Nat := 0x0E06
/-- BUSY (R56, R427 and where named). -/
abbrev busy : Nat := 0x0E07
/-- DIE_UNAVAILABLE (R82). -/
abbrev dieUnavailable : Nat := 0x0E08
/-- NOT_STAGEABLE (R425). -/
abbrev notStageable : Nat := 0x0E09
/-- COMMIT_PENDING (R426, R430, R432). -/
abbrev commitPending : Nat := 0x0E0A
/-- NO_COMMIT_PENDING (R432, R437). -/
abbrev noCommitPending : Nat := 0x0E0B
/-- CUE_POINT_PASSED (R432, R433). -/
abbrev cuePointPassed : Nat := 0x0E0C
/-- STAGING_FULL (R430). -/
abbrev stagingFull : Nat := 0x0E0D
/-- TRANSFER_INCOMPLETE (R438). -/
abbrev transferIncomplete : Nat := 0x0E0E
/-- TRANSFER_ABORTED (R437). -/
abbrev transferAborted : Nat := 0x0E0F
/-- SERVICE_UNKNOWN (R437). -/
abbrev serviceUnknown : Nat := 0x0E10
/-- SEGMENT_INVALID (R438). -/
abbrev segmentInvalid : Nat := 0x0E11
/-- FW_IMAGE_INVALID (Firmware). -/
abbrev fwImageInvalid : Nat := 0x0E12
/-- FW_SIGNATURE_INVALID (Firmware). -/
abbrev fwSignatureInvalid : Nat := 0x0E13
/-- FW_SLOT_IN_USE (Firmware). -/
abbrev fwSlotInUse : Nat := 0x0E14
/-- NVM_WRITE_FAILED (R426, firmware, saved configuration). -/
abbrev nvmWriteFailed : Nat := 0x0E15
/-- COMMIT_TIMED_OUT (R432; outcome in LAST_COMMIT only, never sent as an abort). -/
abbrev commitTimedOut : Nat := 0x0E16
/-- COMMIT_CANCELLED (R432; outcome in LAST_COMMIT only, never sent as an abort). -/
abbrev commitCancelled : Nat := 0x0E17

end Sys2Proof.Machine.Abort
end

