-- ==== Sys2Proof/Machine/Catalog.lean ====
section
/-! DEFINITION. The object catalog: every object of the dictionary (R421 to R424) with its index and subindex range, its
length in bytes (R422), its access class (Table 0.4), its default and the range that R423 step 5 tests. One row stands for
one row of a chapter's object table; the named keys under `Obj` are `index * 256 + subindex`. -/
namespace Sys2Proof.Machine

/-- The access classes of Table 0.4 (R15). -/
inductive Access where
  | ro | wo | live | cue | stopped
deriving DecidableEq, Repr

/-- The restriction an object's definition places on its value alone (R423 step 5). -/
inductive Rng where
  | any
  | bool
  | between (lo hi : Nat)
  | sbetween (bits : Nat) (lo hi : Int)
  | oneOf (l : List Nat)
  | mask (m : Nat)
  | maskBetween (m lo hi : Nat)
  | time96
  | grid500
  | both (a b : Rng)
deriving DecidableEq, Repr

/-- One row: `len` runs from `lenLo` to `lenHi` bytes (equal for the fixed types). -/
structure Row where
  idxLo : Nat
  idxHi : Nat
  subLo : Nat
  subHi : Nat
  lenLo : Nat
  lenHi : Nat
  access : Access
  dflt : Nat
  rng : Rng
deriving DecidableEq, Repr

namespace Catalog

/-! Rows of 0x1000 to 0x1FFF. -/

def rows0 : List Row := [
  ⟨0x1000, 0x1000, 0x00, 0x00, 0, 64, .ro, 0, .any⟩ /- PART_NUMBER -/,
  ⟨0x1001, 0x1001, 0x00, 0x00, 2, 2, .ro, 0, .any⟩ /- SILICON_REV -/,
  ⟨0x1002, 0x1002, 0x00, 0x00, 8, 8, .ro, 0, .any⟩ /- SERIAL -/,
  ⟨0x1003, 0x1003, 0x00, 0x00, 2, 2, .ro, 0, .any⟩ /- DIE_POPULATION -/,
  ⟨0x1004, 0x1004, 0x00, 0x00, 1, 1, .ro, 0, .any⟩ /- TEMP_GRADE -/,
  ⟨0x1008, 0x1008, 0x00, 0x00, 2, 2, .stopped, 0, .any⟩ /- BREV_SELECT -/]

def rows1 : List Row := [
  ⟨0x1009, 0x1009, 0x00, 0x00, 2, 2, .ro, 0, .any⟩ /- BREV_ACTIVE -/,
  ⟨0x100A, 0x100A, 0x00, 0x00, 1, 1, .ro, 0, .any⟩ /- BREV_COUNT -/,
  ⟨0x100A, 0x100A, 0x01, 0x20, 2, 2, .ro, 0, .any⟩ /- BREV_SUPPORTED -/,
  ⟨0x100C, 0x100C, 0x00, 0x00, 4, 4, .ro, 0, .any⟩ /- YDF_CHECK -/,
  ⟨0x1010, 0x1010, 0x00, 0x00, 2, 2, .stopped, 65534, .any⟩ /- HUB_ID -/,
  ⟨0x1011, 0x1011, 0x00, 0x00, 2, 2, .ro, 0, .any⟩ /- HUB_ID_ACTIVE -/]

def rows2 : List Row := [
  ⟨0x1018, 0x1018, 0x01, 0x02, 1, 1, .ro, 0, .any⟩ /- FW_RUNNING_SLOT -/,
  ⟨0x1019, 0x1019, 0x01, 0x02, 1, 1, .stopped, 0, (.between 0 1)⟩ /- FW_BOOT_SLOT -/,
  ⟨0x101A, 0x101A, 0x00, 0x00, 1, 1, .stopped, 1, (.between 0 1)⟩ /- FW_TARGET_SLOT -/,
  ⟨0x101B, 0x101B, 0x00, 0x00, 1, 1, .wo, 0, (.oneOf [1])⟩ /- FW_ERASE -/,
  ⟨0x101C, 0x101C, 0x00, 0x00, 4, 4, .stopped, 0, .any⟩ /- FW_OFFSET -/,
  ⟨0x101D, 0x101D, 0x00, 0x00, 1, 13824, .wo, 0, .any⟩ /- FW_DATA -/]

def rows3 : List Row := [
  ⟨0x101E, 0x101E, 0x00, 0x00, 1, 1, .wo, 0, (.oneOf [1])⟩ /- FW_VERIFY -/,
  ⟨0x101F, 0x101F, 0x01, 0x04, 4, 4, .ro, 0, .any⟩ /- FW_SLOT_INFO -/,
  ⟨0x1020, 0x1020, 0x00, 0x00, 32, 32, .ro, 0, .any⟩ /- FW_KEY_HASH -/,
  ⟨0x1100, 0x1100, 0x01, 0x02, 1, 1, .stopped, 127, (.between 1 127)⟩ /- NODE_ID -/,
  ⟨0x1101, 0x1101, 0x01, 0x02, 1, 1, .stopped, 1, .bool⟩ /- CAN_ENABLE -/,
  ⟨0x1102, 0x1102, 0x01, 0x02, 1, 1, .stopped, 2, (.between 0 3)⟩ /- CAN_NOMINAL_RATE -/]

def rows4 : List Row := [
  ⟨0x1103, 0x1103, 0x01, 0x02, 1, 1, .stopped, 1, (.between 0 3)⟩ /- CAN_DATA_RATE -/,
  ⟨0x1104, 0x1104, 0x01, 0x02, 1, 1, .ro, 0, .any⟩ /- CAN_STATUS -/,
  ⟨0x1105, 0x1105, 0x01, 0x02, 4, 4, .ro, 0, .any⟩ /- CAN_BUS_OFF_COUNT -/,
  ⟨0x1106, 0x1106, 0x01, 0x02, 4, 4, .ro, 0, .any⟩ /- CAN_IGNORED -/,
  ⟨0x1107, 0x1107, 0x00, 0x00, 2, 2, .live, 1000, (.both (.oneOf [0]) (.between 10 10000))⟩ /- HEARTBEAT_PERIOD -/,
  ⟨0x1108, 0x1108, 0x00, 0x00, 1, 1, .live, 0, .bool⟩ /- EVENT_TUNNEL_ENABLE -/]

def rows5 : List Row := [
  ⟨0x1109, 0x1109, 0x00, 0x00, 2, 2, .live, 0, .any⟩ /- EVENT_TUNNEL_DEST -/,
  ⟨0x110A, 0x110A, 0x00, 0x00, 1, 1, .live, 1, .bool⟩ /- MAILBOX_ENABLE -/,
  ⟨0x110B, 0x110B, 0x00, 0x00, 4, 4, .stopped, 100, (.between 5 60000)⟩ /- COMMIT_MIN_LEAD -/,
  ⟨0x110C, 0x110C, 0x00, 0x00, 1, 1, .ro, 0, .any⟩ /- COMMIT_STATE -/,
  ⟨0x110D, 0x110D, 0x00, 0x00, 2, 2, .ro, 0, .any⟩ /- COMMIT_ID -/,
  ⟨0x110E, 0x110E, 0x00, 0x00, 12, 12, .ro, 0, .any⟩ /- COMMIT_CUE -/]

def rows6 : List Row := [
  ⟨0x110F, 0x110F, 0x00, 0x00, 2, 2, .ro, 0, .any⟩ /- STAGED_ENTRIES -/,
  ⟨0x1110, 0x1110, 0x00, 0x00, 1, 1, .wo, 0, (.oneOf [1])⟩ /- STAGE_CLEAR -/,
  ⟨0x1111, 0x1111, 0x00, 0x00, 32, 32, .ro, 0, .any⟩ /- LAST_COMMIT -/,
  ⟨0x1112, 0x1112, 0x00, 0x00, 1, 1, .wo, 0, (.between 1 2)⟩ /- CONFIG_SAVE -/,
  ⟨0x1113, 0x1113, 0x00, 0x00, 12, 12, .ro, 0, .any⟩ /- CONFIG_SAVED_TIME -/,
  ⟨0x1114, 0x1114, 0x00, 0x00, 4, 4, .ro, 0, .any⟩ /- REQUESTS -/]

def rows7 : List Row := [
  ⟨0x1115, 0x1115, 0x00, 0x00, 4, 4, .ro, 0, .any⟩ /- ABORTS_SENT -/,
  ⟨0x1116, 0x1116, 0x00, 0x00, 4, 4, .ro, 0, .any⟩ /- DUPLICATE_REQUESTS -/,
  ⟨0x1200, 0x1200, 0x00, 0x00, 1, 1, .wo, 0, (.between 0 11)⟩ /- MODE_REQUEST -/,
  ⟨0x1201, 0x1201, 0x00, 0x00, 1, 1, .ro, 0, .any⟩ /- MODE -/,
  ⟨0x1202, 0x1202, 0x00, 0x00, 12, 12, .live, 0, .grid500⟩ /- MODE_CUE -/,
  ⟨0x1203, 0x1203, 0x00, 0x00, 12, 12, .ro, 0, .any⟩ /- MODE_ENTRY_TIME -/]

def rows8 : List Row := [
  ⟨0x1204, 0x1204, 0x00, 0x00, 2, 2, .ro, 0, .any⟩ /- LAST_TRANSITION_CAUSE -/,
  ⟨0x1205, 0x1205, 0x00, 0x00, 4, 4, .ro, 0, .any⟩ /- BOOT_COUNT -/,
  ⟨0x1206, 0x1206, 0x00, 0x00, 2, 2, .ro, 0, .any⟩ /- RESET_CAUSE -/,
  ⟨0x1207, 0x1207, 0x00, 0x00, 1, 1, .stopped, 0, (.between 0 1)⟩ /- SYNC_EXIT_LEVEL -/,
  ⟨0x1208, 0x1208, 0x00, 0x00, 4, 4, .stopped, 120, (.between 10 3600)⟩ /- SYNC_TIMEOUT -/,
  ⟨0x1209, 0x1209, 0x00, 0x00, 2, 2, .ro, 0, .any⟩ /- SAFE_CAUSE -/]

def rows9 : List Row := [
  ⟨0x120A, 0x120A, 0x00, 0x00, 4, 4, .ro, 0, .any⟩ /- DIE_STATE -/,
  ⟨0x120B, 0x120B, 0x00, 0x00, 4, 4, .ro, 0, .any⟩ /- STARTUP_ELAPSED -/,
  ⟨0x1300, 0x1300, 0x00, 0x00, 2, 2, .ro, 0, .any⟩ /- VIN_A -/,
  ⟨0x1301, 0x1301, 0x00, 0x00, 2, 2, .ro, 0, .any⟩ /- VIN_B -/,
  ⟨0x1302, 0x1302, 0x00, 0x00, 1, 1, .ro, 0, .any⟩ /- VIN_SELECTED -/,
  ⟨0x1303, 0x1303, 0x00, 0x00, 2, 2, .ro, 0, .any⟩ /- RAIL_5V0 -/]

def rows10 : List Row := [
  ⟨0x1304, 0x1304, 0x00, 0x00, 4, 4, .ro, 0, .any⟩ /- INPUT_POWER -/,
  ⟨0x1305, 0x1305, 0x00, 0x00, 2, 2, .ro, 0, .any⟩ /- POWER_STATUS -/,
  ⟨0x1306, 0x1306, 0x00, 0x00, 2, 2, .stopped, 6000, (.between 6000 38000)⟩ /- PFW_THRESHOLD -/,
  ⟨0x1307, 0x1307, 0x00, 0x00, 2, 2, .ro, 0, .any⟩ /- TJ_MAX -/,
  ⟨0x1308, 0x1308, 0x00, 0x00, 2, 2, .stopped, 1100, (.between 850 1200)⟩ /- OT_WARN_THRESHOLD -/]

/-- The rows an object at 0x1000 to 0x1FFF can stand in. -/
def rowsA (idx _sub : Nat) : List Row :=
  if idx < 0x1109 then
    if idx < 0x1018 then
      if idx < 0x1009 then
        rows0
      else
        rows1
    else
      if idx < 0x101E then
        rows2
      else
        if idx < 0x1103 then
          rows3
        else
          rows4
  else
    if idx < 0x1204 then
      if idx < 0x110F then
        rows5
      else
        if idx < 0x1115 then
          rows6
        else
          rows7
    else
      if idx < 0x120A then
        rows8
      else
        if idx < 0x1304 then
          rows9
        else
          rows10

/-! Rows of 0x2000 to 0x2FFF. -/

def rows11 : List Row := [
  ⟨0x2000, 0x217F, 0x01, 0x01, 1, 1, .cue, 1, (.between 0 1)⟩ /- RANGE_MODE -/,
  ⟨0x2000, 0x217F, 0x02, 0x02, 1, 1, .cue, 0, (.between 0 3)⟩ /- RANGE_FIXED -/,
  ⟨0x2000, 0x217F, 0x03, 0x03, 1, 1, .cue, 0, (.between 0 3)⟩ /- RANGE_COARSEST -/,
  ⟨0x2000, 0x217F, 0x04, 0x04, 1, 1, .cue, 3, (.between 0 3)⟩ /- RANGE_FINEST -/,
  ⟨0x2000, 0x217F, 0x05, 0x05, 2, 2, .cue, 2000, (.between 16 65535)⟩ /- DOWN_COUNT -/]

def rows12 : List Row := [
  ⟨0x2000, 0x217F, 0x06, 0x06, 1, 1, .cue, 0, .bool⟩ /- GATED -/,
  ⟨0x2000, 0x217F, 0x07, 0x07, 2, 2, .cue, 20, (.between 1 2000)⟩ /- EXC_SETTLE -/,
  ⟨0x2000, 0x217F, 0x08, 0x08, 1, 1, .cue, 0, .bool⟩ /- EXC_RESYNC -/,
  ⟨0x2000, 0x217F, 0x09, 0x09, 2, 2, .ro, 0, .any⟩ /- FE_STATUS -/,
  ⟨0x2000, 0x217F, 0x0A, 0x0A, 4, 4, .ro, 0, .any⟩ /- RANGE_CHANGES -/]

def rows13 : List Row := [
  ⟨0x2000, 0x217F, 0x0B, 0x0B, 4, 4, .ro, 0, .any⟩ /- PREDICT_MISSES -/,
  ⟨0x2000, 0x217F, 0x0C, 0x0C, 4, 4, .ro, 0, .any⟩ /- OVERLOAD_EPISODES -/,
  ⟨0x2000, 0x217F, 0x0D, 0x0D, 1, 1, .cue, 0, .bool⟩ /- INJ_ELIGIBLE -/,
  ⟨0x2180, 0x220F, 0x0E, 0x0E, 1, 1, .cue, 7, .any⟩ /- DIAG_PERIOD -/,
  ⟨0x2000, 0x217F, 0x0F, 0x0F, 1, 1, .cue, 3, .any⟩ /- FILTER_PRESET -/]

def rows14 : List Row := [
  ⟨0x2000, 0x217F, 0x10, 0x10, 1, 1, .cue, 5, .any⟩ /- CIC_ORDER -/,
  ⟨0x2000, 0x217F, 0x11, 0x11, 4, 4, .cue, 0, .any⟩ /- PHASE_DELAY -/,
  ⟨0x2000, 0x217F, 0x12, 0x12, 1, 1, .cue, 0, .any⟩ /- OUT_SCALE -/,
  ⟨0x2000, 0x217F, 0x13, 0x13, 8, 8, .ro, 0, .any⟩ /- GROUP_DELAY -/,
  ⟨0x2000, 0x217F, 0x14, 0x14, 1, 1, .ro, 0, .any⟩ /- SETTLING_SPAN -/]

def rows15 : List Row := [
  ⟨0x2000, 0x217F, 0x15, 0x15, 2, 2, .ro, 0, .any⟩ /- FILTER_STATUS -/,
  ⟨0x2000, 0x217F, 0x16, 0x16, 4, 4, .ro, 0, .any⟩ /- RESYNC_COUNT -/,
  ⟨0x2000, 0x217F, 0x17, 0x17, 4, 4, .ro, 0, .any⟩ /- OUTPUT_CLAMPS -/,
  ⟨0x2000, 0x217F, 0x18, 0x18, 12, 12, .ro, 0, .any⟩ /- LAST_RESYNC -/,
  ⟨0x2000, 0x217F, 0x19, 0x19, 4, 4, .ro, 0, .any⟩ /- CAL_COUNT -/]

def rows16 : List Row := [
  ⟨0x2000, 0x217F, 0x1A, 0x1A, 12, 12, .ro, 0, .any⟩ /- CAL_LAST -/,
  ⟨0x2000, 0x217F, 0x1B, 0x1B, 2, 2, .ro, 0, .any⟩ /- CAL_STATUS -/,
  ⟨0x2000, 0x220F, 0x1C, 0x1C, 1, 1, .cue, 255, (.both (.between 0 63) (.oneOf [0xFF]))⟩ /- STREAM -/,
  ⟨0x2000, 0x220F, 0x1D, 0x1D, 1, 1, .cue, 255, (.both (.between 0 63) (.oneOf [0xFF]))⟩ /- REC_STREAM -/,
  ⟨0x2000, 0x2FFF, 0x1E, 0x1E, 8, 8, .live, 0, .any⟩ /- USER_TAG -/]

def rows17 : List Row := [
  ⟨0x2210, 0x2FFF, 0x20, 0x20, 2, 2, .cue, 65535, .any⟩ /- SRC_HUB -/,
  ⟨0x2210, 0x2FFF, 0x21, 0x21, 2, 2, .cue, 0, (.between 0 4095)⟩ /- SRC_CHANNEL -/,
  ⟨0x2210, 0x2FFF, 0x22, 0x22, 1, 1, .cue, 0, (.between 0 127)⟩ /- FWD_ENTRY -/,
  ⟨0x2210, 0x2FFF, 0x23, 0x23, 1, 1, .cue, 0, .bool⟩ /- UNPACK -/,
  ⟨0x2000, 0x2FFF, 0x24, 0x24, 1, 1, .ro, 0, .any⟩ /- CACHE_STATE -/]

/-- The rows of a subindex at indices 0x2000 to 0x2FFF. -/
def block2000 (sub : Nat) : List Row :=
  if sub < 0x10 then
    if sub < 0x06 then
      rows11
    else
      if sub < 0x0B then
        rows12
      else
        rows13
  else
    if sub < 0x1A then
      if sub < 0x15 then
        rows14
      else
        rows15
    else
      if sub < 0x20 then
        rows16
      else
        rows17

/-- The rows an object at 0x2000 to 0x2FFF can stand in. -/
def rowsB (idx sub : Nat) : List Row :=
  block2000 sub

/-! Rows of 0x3000 to 0x3FFF. -/

def rows18 : List Row := [
  ⟨0x3000, 0x3000, 0x00, 0x00, 2, 2, .cue, 100, (.between 0 100)⟩ /- EXC_AVG_BUDGET -/,
  ⟨0x3001, 0x3001, 0x00, 0x00, 4, 4, .ro, 0, .any⟩ /- EXC_AVG_PLANNED -/,
  ⟨0x3002, 0x3002, 0x01, 0x04, 2, 2, .cue, 60, (.between 0 120)⟩ /- EXC_PEAK_BUDGET -/,
  ⟨0x3003, 0x3003, 0x01, 0x04, 4, 4, .ro, 0, .any⟩ /- EXC_PEAK_PLANNED -/,
  ⟨0x3004, 0x3004, 0x00, 0x00, 1, 1, .cue, 1, .bool⟩ /- STAGGER_AUTO -/,
  ⟨0x3005, 0x3005, 0x01, 0x04, 2, 2, .ro, 0, .any⟩ /- EXC_DIE_CURRENT -/]

def rows19 : List Row := [
  ⟨0x3040, 0x309F, 0x01, 0x01, 1, 1, .cue, 0, (.between 0 4)⟩ /- MODE -/,
  ⟨0x3040, 0x309F, 0x02, 0x02, 2, 2, .cue, 0, .any⟩ /- LEVEL -/,
  ⟨0x3040, 0x309F, 0x03, 0x03, 1, 1, .cue, 0, (.between 0 1)⟩ /- PULSE_KIND -/,
  ⟨0x3040, 0x309F, 0x04, 0x04, 2, 2, .cue, 1000, (.between 100 12000)⟩ /- CURRENT_LIMIT -/,
  ⟨0x3040, 0x309F, 0x05, 0x05, 1, 1, .cue, 7, (.between 0 7)⟩ /- PULSE_PRESET -/]

def rows20 : List Row := [
  ⟨0x3040, 0x309F, 0x06, 0x06, 2, 2, .cue, 1, (.between 1 65535)⟩ /- PULSE_EVERY -/,
  ⟨0x3040, 0x309F, 0x07, 0x07, 2, 2, .cue, 200, (.between 4 20000)⟩ /- PULSE_WIDTH -/,
  ⟨0x3040, 0x309F, 0x08, 0x08, 2, 2, .cue, 0, .any⟩ /- STAGGER -/,
  ⟨0x3040, 0x309F, 0x09, 0x09, 1, 1, .ro, 0, .any⟩ /- STATUS -/,
  ⟨0x3040, 0x309F, 0x0A, 0x0A, 2, 2, .ro, 0, .any⟩ /- I_MEAS -/]

def rows21 : List Row := [
  ⟨0x3040, 0x309F, 0x0B, 0x0B, 2, 2, .ro, 0, .any⟩ /- V_MEAS -/,
  ⟨0x3040, 0x309F, 0x0C, 0x0C, 1, 1, .wo, 0, (.oneOf [1])⟩ /- FAULT_CLEAR -/,
  ⟨0x3040, 0x309F, 0x0D, 0x0D, 4, 4, .ro, 0, .any⟩ /- FAULT_COUNT -/]

/-- The rows of a subindex at indices 0x3040 to 0x309F. -/
def block3040 (sub : Nat) : List Row :=
  if sub < 0x06 then
    rows19
  else
    if sub < 0x0B then
      rows20
    else
      rows21

def rows22 : List Row := [
  ⟨0x3100, 0x3100, 0x01, 0x04, 1, 1, .ro, 0, .any⟩ /- HOLD_TRIM -/,
  ⟨0x3101, 0x3101, 0x01, 0x04, 2, 2, .ro, 0, .any⟩ /- HOLD_SKEW -/,
  ⟨0x3102, 0x3102, 0x01, 0x04, 1, 1, .ro, 0, .any⟩ /- SWING_STATE -/,
  ⟨0x3103, 0x3103, 0x01, 0x04, 1, 1, .ro, 255, .any⟩ /- SWING_CORE -/,
  ⟨0x3104, 0x3104, 0x01, 0x04, 1, 1, .wo, 0, (.oneOf [0, 1, 2, 3, 4, 5, 6, 7, 8, 9, 10, 11, 254])⟩ /- SWING_REQUEST -/,
  ⟨0x3105, 0x3105, 0x01, 0x04, 4, 4, .ro, 0, .any⟩ /- SWING_MISMATCHES -/]

def rows23 : List Row := [
  ⟨0x3106, 0x3106, 0x01, 0x04, 2, 2, .ro, 0, .any⟩ /- RETIRED_CORES -/,
  ⟨0x3107, 0x3107, 0x00, 0x00, 2, 2, .stopped, 8, (.between 1 1024)⟩ /- SWING_MATCH_LSB -/,
  ⟨0x3108, 0x3108, 0x00, 0x00, 2, 2, .stopped, 16, (.between 4 1024)⟩ /- SWING_OVERLAP_FRAMES -/]

def rows24 : List Row := [
  ⟨0x3140, 0x316F, 0x01, 0x01, 4, 4, .cue, 1985229328, (.mask 0x77777777)⟩ /- REG_ORDER -/,
  ⟨0x3140, 0x316F, 0x02, 0x02, 1, 1, .cue, 3, (.between 1 8)⟩ /- BG_COUNT -/,
  ⟨0x3140, 0x316F, 0x03, 0x03, 4, 4, .cue, 528, .any⟩ /- BG_LIST -/,
  ⟨0x3140, 0x316F, 0x04, 0x04, 2, 2, .cue, 512, (.mask 0x7FF)⟩ /- INJ_SOURCE -/,
  ⟨0x3140, 0x316F, 0x05, 0x05, 2, 2, .cue, 0, .any⟩ /- INJ_DELAY -/]

def rows25 : List Row := [
  ⟨0x3140, 0x316F, 0x06, 0x06, 1, 1, .wo, 0, (.oneOf [1])⟩ /- INJ_SOFT_START -/,
  ⟨0x3140, 0x316F, 0x07, 0x07, 4, 4, .ro, 0, .any⟩ /- INJ_STARTS -/,
  ⟨0x3140, 0x316F, 0x08, 0x08, 4, 4, .ro, 0, .any⟩ /- INJ_DROPPED -/,
  ⟨0x3140, 0x316F, 0x09, 0x09, 4, 4, .ro, 0, .any⟩ /- INJ_DEFERRED -/,
  ⟨0x3140, 0x316F, 0x0A, 0x0A, 12, 12, .ro, 0, .any⟩ /- INJ_LAST_HOLD -/]

def rows26 : List Row := [
  ⟨0x3140, 0x316F, 0x0B, 0x0B, 4, 4, .ro, 0, .any⟩ /- BG_STARVE_COUNT -/,
  ⟨0x3140, 0x316F, 0x0C, 0x0C, 1, 1, .ro, 0, .any⟩ /- CORE_STATUS -/,
  ⟨0x3140, 0x316F, 0x0D, 0x0D, 4, 4, .ro, 0, .any⟩ /- REF_LAST -/]

/-- The rows of a subindex at indices 0x3140 to 0x316F. -/
def block3140 (sub : Nat) : List Row :=
  if sub < 0x06 then
    rows24
  else
    if sub < 0x0B then
      rows25
    else
      rows26

def rows27 : List Row := [
  ⟨0x3200, 0x3200, 0x01, 0x08, 4, 4, .ro, 0, .any⟩ /- PRESET_RATE -/,
  ⟨0x3201, 0x3201, 0x01, 0x08, 2, 2, .ro, 0, .any⟩ /- PRESET_CIC_R -/,
  ⟨0x3203, 0x3203, 0x00, 0x00, 2, 2, .wo, 0, (.oneOf (0xFFFF :: List.range 384))⟩ /- RESYNC_REQUEST -/,
  ⟨0x3204, 0x3204, 0x00, 0x00, 4, 4, .ro, 0, .any⟩ /- RESYNC_TOTAL -/,
  ⟨0x3210, 0x3210, 0x00, 0x00, 1, 1, .live, 0, (.between 0 23)⟩ /- FIR_SETTING_SELECT -/,
  ⟨0x3211, 0x3211, 0x00, 0x00, 13824, 13824, .ro, 0, .any⟩ /- FIR_COEFF -/]

def rows28 : List Row := [
  ⟨0x3240, 0x327F, 0x01, 0x01, 2, 2, .cue, 0, (.between 0 4095)⟩ /- SOURCE -/,
  ⟨0x3240, 0x327F, 0x02, 0x02, 1, 1, .cue, 0, .any⟩ /- TYPE -/,
  ⟨0x3240, 0x327F, 0x03, 0x03, 4, 4, .cue, 1, .any⟩ /- PARAM_A -/,
  ⟨0x3240, 0x327F, 0x04, 0x04, 1, 1, .cue, 0, .any⟩ /- PARAM_B -/,
  ⟨0x3240, 0x327F, 0x05, 0x05, 4, 4, .ro, 0, .any⟩ /- RESULT_A -/]

def rows29 : List Row := [
  ⟨0x3240, 0x327F, 0x06, 0x06, 4, 4, .ro, 0, .any⟩ /- RESULT_B -/,
  ⟨0x3240, 0x327F, 0x07, 0x07, 12, 12, .ro, 0, .any⟩ /- RESULT_TIME -/,
  ⟨0x3240, 0x327F, 0x08, 0x08, 12, 12, .ro, 0, .any⟩ /- MAX_TIME -/,
  ⟨0x3240, 0x327F, 0x09, 0x09, 1, 1, .ro, 0, .any⟩ /- STATUS -/,
  ⟨0x3240, 0x327F, 0x0A, 0x0A, 4, 4, .ro, 0, .any⟩ /- UPDATES -/]

/-- The rows of a subindex at indices 0x3240 to 0x327F. -/
def block3240 (sub : Nat) : List Row :=
  if sub < 0x06 then
    rows28
  else
    rows29

def rows30 : List Row := [
  ⟨0x3300, 0x3300, 0x00, 0x00, 1, 1, .stopped, 2, (.between 1 3)⟩ /- CAL_KIND -/,
  ⟨0x3301, 0x3301, 0x00, 0x00, 4, 4, .stopped, 0, .any⟩ /- CAL_REF_DECLARED -/,
  ⟨0x3302, 0x3302, 0x00, 0x00, 2, 2, .ro, 0, .any⟩ /- CAL_RESULT -/,
  ⟨0x3303, 0x3303, 0x00, 0x00, 1, 1, .ro, 0, .any⟩ /- CAL_STEP -/,
  ⟨0x3304, 0x3304, 0x00, 0x00, 1, 1, .wo, 0, (.oneOf [1])⟩ /- CAL_CANCEL -/,
  ⟨0x3305, 0x3305, 0x00, 0x00, 2, 2, .ro, 0, .any⟩ /- CAL_CHANNELS_FAILED -/]

def rows31 : List Row := [
  ⟨0x3306, 0x3306, 0x00, 0x00, 12, 12, .ro, 0, .any⟩ /- CAL_LAST_FOREGROUND -/,
  ⟨0x3308, 0x3308, 0x00, 0x00, 1, 1, .live, 1, .bool⟩ /- CAL_BG_ENABLE -/,
  ⟨0x3309, 0x3309, 0x00, 0x00, 4, 4, .live, 3600, (.between 60 86400)⟩ /- CAL_CYCLE_PERIOD -/,
  ⟨0x330A, 0x330A, 0x00, 0x00, 2, 2, .live, 20, (.between 5 1000)⟩ /- CAL_DRIFT_LIMIT -/,
  ⟨0x330B, 0x330B, 0x00, 0x00, 4, 4, .live, 86400, (.between 3600 2592000)⟩ /- CAL_NVM_INTERVAL -/]

def rows32 : List Row := [
  ⟨0x3310, 0x3313, 0x01, 0x01, 4, 4, .ro, 2048000000, .any⟩ /- REF_VALUE -/,
  ⟨0x3310, 0x3313, 0x02, 0x02, 1, 1, .ro, 0, .any⟩ /- REF_SOURCE -/,
  ⟨0x3310, 0x3313, 0x03, 0x03, 4, 4, .ro, 0, .any⟩ /- TRACE_DECLARED -/,
  ⟨0x3310, 0x3313, 0x04, 0x04, 4, 4, .ro, 0, .any⟩ /- TRACE_MEASURED -/,
  ⟨0x3310, 0x3313, 0x05, 0x05, 2, 2, .ro, 0, .any⟩ /- TRACE_SPREAD -/]

def rows33 : List Row := [
  ⟨0x3310, 0x3313, 0x06, 0x06, 12, 12, .ro, 0, .any⟩ /- TRACE_TIME -/,
  ⟨0x3310, 0x3313, 0x07, 0x07, 12, 12, .ro, 0, .any⟩ /- BG_ROUND_START -/,
  ⟨0x3310, 0x3313, 0x08, 0x08, 4, 4, .ro, 0, .any⟩ /- SWING_CONV_OFFSET -/,
  ⟨0x3310, 0x3313, 0x09, 0x09, 4, 4, .ro, 1073741824, .any⟩ /- SWING_CONV_GAIN -/,
  ⟨0x3310, 0x3313, 0x0A, 0x0A, 12, 12, .ro, 0, .any⟩ /- SWING_CAL_LAST -/]

/-- The rows of a subindex at indices 0x3310 to 0x3313. -/
def block3310 (sub : Nat) : List Row :=
  if sub < 0x06 then
    rows32
  else
    rows33

def rows34 : List Row := [
  ⟨0x3320, 0x3320, 0x00, 0x00, 2, 2, .live, 336, .any⟩ /- CAL_RECORD_SELECT -/,
  ⟨0x3321, 0x3321, 0x00, 0x00, 13824, 13824, .ro, 0, .any⟩ /- CAL_RECORD -/,
  ⟨0x3322, 0x3322, 0x00, 0x00, 1, 13824, .wo, 0, .any⟩ /- CAL_RECORD_IMPORT -/]

def rows35 : List Row := [
  ⟨0x3340, 0x336F, 0x01, 0x01, 4, 4, .ro, 0, .any⟩ /- CONV_OFFSET -/,
  ⟨0x3340, 0x336F, 0x02, 0x02, 4, 4, .ro, 1073741824, .any⟩ /- CONV_GAIN -/,
  ⟨0x3340, 0x336F, 0x03, 0x03, 4, 4, .ro, 0, .any⟩ /- BG_CAL_COUNT -/,
  ⟨0x3340, 0x336F, 0x04, 0x04, 12, 12, .ro, 0, .any⟩ /- BG_CAL_LAST -/,
  ⟨0x3340, 0x336F, 0x05, 0x05, 4, 4, .ro, 0, .any⟩ /- DRIFT -/]

def rows36 : List Row := [
  ⟨0x3340, 0x336F, 0x06, 0x06, 2, 2, .ro, 0, .any⟩ /- T_CAL -/,
  ⟨0x3340, 0x336F, 0x10, 0x10, 4, 4, .ro, 0, .any⟩ /- OFFSET_G0 to OFFSET_G3 -/,
  ⟨0x3340, 0x336F, 0x11, 0x11, 4, 4, .ro, 1073741824, .any⟩ /- GAIN_G0 to GAIN_G3 -/,
  ⟨0x3340, 0x336F, 0x12, 0x12, 4, 4, .ro, 0, .any⟩ /- OFFSET_G0 to OFFSET_G3 -/,
  ⟨0x3340, 0x336F, 0x13, 0x13, 4, 4, .ro, 1073741824, .any⟩ /- GAIN_G0 to GAIN_G3 -/]

def rows37 : List Row := [
  ⟨0x3340, 0x336F, 0x14, 0x14, 4, 4, .ro, 0, .any⟩ /- OFFSET_G0 to OFFSET_G3 -/,
  ⟨0x3340, 0x336F, 0x15, 0x15, 4, 4, .ro, 1073741824, .any⟩ /- GAIN_G0 to GAIN_G3 -/,
  ⟨0x3340, 0x336F, 0x16, 0x16, 4, 4, .ro, 0, .any⟩ /- OFFSET_G0 to OFFSET_G3 -/,
  ⟨0x3340, 0x336F, 0x17, 0x17, 4, 4, .ro, 1073741824, .any⟩ /- GAIN_G0 to GAIN_G3 -/,
  ⟨0x3340, 0x336F, 0x18, 0x18, 4, 4, .ro, 0, .any⟩ /- BUF_OFFSET -/]

def rows38 : List Row := [
  ⟨0x3340, 0x336F, 0x19, 0x19, 4, 4, .ro, 1073741824, .any⟩ /- BUF_GAIN -/,
  ⟨0x3340, 0x336F, 0x1A, 0x1A, 2, 2, .ro, 0, .any⟩ /- TC_GAIN_G0 to TC_GAIN_G3 -/,
  ⟨0x3340, 0x336F, 0x1B, 0x1B, 2, 2, .ro, 0, .any⟩ /- TC_GAIN_G0 to TC_GAIN_G3 -/,
  ⟨0x3340, 0x336F, 0x1C, 0x1C, 2, 2, .ro, 0, .any⟩ /- TC_GAIN_G0 to TC_GAIN_G3 -/,
  ⟨0x3340, 0x336F, 0x1D, 0x1D, 2, 2, .ro, 0, .any⟩ /- TC_GAIN_G0 to TC_GAIN_G3 -/]

def rows39 : List Row := [
  ⟨0x3340, 0x336F, 0x1E, 0x1E, 2, 2, .ro, 0, .any⟩ /- TC_OFFSET -/,
  ⟨0x3340, 0x336F, 0x20, 0x20, 4, 4, .ro, 0, .any⟩ /- OFFSET_G0 to OFFSET_G3 -/,
  ⟨0x3340, 0x336F, 0x21, 0x21, 4, 4, .ro, 1073741824, .any⟩ /- GAIN_G0 to GAIN_G3 -/,
  ⟨0x3340, 0x336F, 0x22, 0x22, 4, 4, .ro, 0, .any⟩ /- OFFSET_G0 to OFFSET_G3 -/,
  ⟨0x3340, 0x336F, 0x23, 0x23, 4, 4, .ro, 1073741824, .any⟩ /- GAIN_G0 to GAIN_G3 -/]

def rows40 : List Row := [
  ⟨0x3340, 0x336F, 0x24, 0x24, 4, 4, .ro, 0, .any⟩ /- OFFSET_G0 to OFFSET_G3 -/,
  ⟨0x3340, 0x336F, 0x25, 0x25, 4, 4, .ro, 1073741824, .any⟩ /- GAIN_G0 to GAIN_G3 -/,
  ⟨0x3340, 0x336F, 0x26, 0x26, 4, 4, .ro, 0, .any⟩ /- OFFSET_G0 to OFFSET_G3 -/,
  ⟨0x3340, 0x336F, 0x27, 0x27, 4, 4, .ro, 1073741824, .any⟩ /- GAIN_G0 to GAIN_G3 -/,
  ⟨0x3340, 0x336F, 0x28, 0x28, 4, 4, .ro, 0, .any⟩ /- BUF_OFFSET -/]

def rows41 : List Row := [
  ⟨0x3340, 0x336F, 0x29, 0x29, 4, 4, .ro, 1073741824, .any⟩ /- BUF_GAIN -/,
  ⟨0x3340, 0x336F, 0x2A, 0x2A, 2, 2, .ro, 0, .any⟩ /- TC_GAIN_G0 to TC_GAIN_G3 -/,
  ⟨0x3340, 0x336F, 0x2B, 0x2B, 2, 2, .ro, 0, .any⟩ /- TC_GAIN_G0 to TC_GAIN_G3 -/,
  ⟨0x3340, 0x336F, 0x2C, 0x2C, 2, 2, .ro, 0, .any⟩ /- TC_GAIN_G0 to TC_GAIN_G3 -/,
  ⟨0x3340, 0x336F, 0x2D, 0x2D, 2, 2, .ro, 0, .any⟩ /- TC_GAIN_G0 to TC_GAIN_G3 -/]

def rows42 : List Row := [
  ⟨0x3340, 0x336F, 0x2E, 0x2E, 2, 2, .ro, 0, .any⟩ /- TC_OFFSET -/,
  ⟨0x3340, 0x336F, 0x30, 0x30, 4, 4, .ro, 0, .any⟩ /- OFFSET_G0 to OFFSET_G3 -/,
  ⟨0x3340, 0x336F, 0x31, 0x31, 4, 4, .ro, 1073741824, .any⟩ /- GAIN_G0 to GAIN_G3 -/,
  ⟨0x3340, 0x336F, 0x32, 0x32, 4, 4, .ro, 0, .any⟩ /- OFFSET_G0 to OFFSET_G3 -/,
  ⟨0x3340, 0x336F, 0x33, 0x33, 4, 4, .ro, 1073741824, .any⟩ /- GAIN_G0 to GAIN_G3 -/]

def rows43 : List Row := [
  ⟨0x3340, 0x336F, 0x34, 0x34, 4, 4, .ro, 0, .any⟩ /- OFFSET_G0 to OFFSET_G3 -/,
  ⟨0x3340, 0x336F, 0x35, 0x35, 4, 4, .ro, 1073741824, .any⟩ /- GAIN_G0 to GAIN_G3 -/,
  ⟨0x3340, 0x336F, 0x36, 0x36, 4, 4, .ro, 0, .any⟩ /- OFFSET_G0 to OFFSET_G3 -/,
  ⟨0x3340, 0x336F, 0x37, 0x37, 4, 4, .ro, 1073741824, .any⟩ /- GAIN_G0 to GAIN_G3 -/,
  ⟨0x3340, 0x336F, 0x38, 0x38, 4, 4, .ro, 0, .any⟩ /- BUF_OFFSET -/]

def rows44 : List Row := [
  ⟨0x3340, 0x336F, 0x39, 0x39, 4, 4, .ro, 1073741824, .any⟩ /- BUF_GAIN -/,
  ⟨0x3340, 0x336F, 0x3A, 0x3A, 2, 2, .ro, 0, .any⟩ /- TC_GAIN_G0 to TC_GAIN_G3 -/,
  ⟨0x3340, 0x336F, 0x3B, 0x3B, 2, 2, .ro, 0, .any⟩ /- TC_GAIN_G0 to TC_GAIN_G3 -/,
  ⟨0x3340, 0x336F, 0x3C, 0x3C, 2, 2, .ro, 0, .any⟩ /- TC_GAIN_G0 to TC_GAIN_G3 -/,
  ⟨0x3340, 0x336F, 0x3D, 0x3D, 2, 2, .ro, 0, .any⟩ /- TC_GAIN_G0 to TC_GAIN_G3 -/]

def rows45 : List Row := [
  ⟨0x3340, 0x336F, 0x3E, 0x3E, 2, 2, .ro, 0, .any⟩ /- TC_OFFSET -/,
  ⟨0x3340, 0x336F, 0x40, 0x40, 4, 4, .ro, 0, .any⟩ /- OFFSET_G0 to OFFSET_G3 -/,
  ⟨0x3340, 0x336F, 0x41, 0x41, 4, 4, .ro, 1073741824, .any⟩ /- GAIN_G0 to GAIN_G3 -/,
  ⟨0x3340, 0x336F, 0x42, 0x42, 4, 4, .ro, 0, .any⟩ /- OFFSET_G0 to OFFSET_G3 -/,
  ⟨0x3340, 0x336F, 0x43, 0x43, 4, 4, .ro, 1073741824, .any⟩ /- GAIN_G0 to GAIN_G3 -/]

def rows46 : List Row := [
  ⟨0x3340, 0x336F, 0x44, 0x44, 4, 4, .ro, 0, .any⟩ /- OFFSET_G0 to OFFSET_G3 -/,
  ⟨0x3340, 0x336F, 0x45, 0x45, 4, 4, .ro, 1073741824, .any⟩ /- GAIN_G0 to GAIN_G3 -/,
  ⟨0x3340, 0x336F, 0x46, 0x46, 4, 4, .ro, 0, .any⟩ /- OFFSET_G0 to OFFSET_G3 -/,
  ⟨0x3340, 0x336F, 0x47, 0x47, 4, 4, .ro, 1073741824, .any⟩ /- GAIN_G0 to GAIN_G3 -/,
  ⟨0x3340, 0x336F, 0x48, 0x48, 4, 4, .ro, 0, .any⟩ /- BUF_OFFSET -/]

def rows47 : List Row := [
  ⟨0x3340, 0x336F, 0x49, 0x49, 4, 4, .ro, 1073741824, .any⟩ /- BUF_GAIN -/,
  ⟨0x3340, 0x336F, 0x4A, 0x4A, 2, 2, .ro, 0, .any⟩ /- TC_GAIN_G0 to TC_GAIN_G3 -/,
  ⟨0x3340, 0x336F, 0x4B, 0x4B, 2, 2, .ro, 0, .any⟩ /- TC_GAIN_G0 to TC_GAIN_G3 -/,
  ⟨0x3340, 0x336F, 0x4C, 0x4C, 2, 2, .ro, 0, .any⟩ /- TC_GAIN_G0 to TC_GAIN_G3 -/,
  ⟨0x3340, 0x336F, 0x4D, 0x4D, 2, 2, .ro, 0, .any⟩ /- TC_GAIN_G0 to TC_GAIN_G3 -/]

def rows48 : List Row := [
  ⟨0x3340, 0x336F, 0x4E, 0x4E, 2, 2, .ro, 0, .any⟩ /- TC_OFFSET -/,
  ⟨0x3340, 0x336F, 0x50, 0x50, 4, 4, .ro, 0, .any⟩ /- OFFSET_G0 to OFFSET_G3 -/,
  ⟨0x3340, 0x336F, 0x51, 0x51, 4, 4, .ro, 1073741824, .any⟩ /- GAIN_G0 to GAIN_G3 -/,
  ⟨0x3340, 0x336F, 0x52, 0x52, 4, 4, .ro, 0, .any⟩ /- OFFSET_G0 to OFFSET_G3 -/,
  ⟨0x3340, 0x336F, 0x53, 0x53, 4, 4, .ro, 1073741824, .any⟩ /- GAIN_G0 to GAIN_G3 -/]

def rows49 : List Row := [
  ⟨0x3340, 0x336F, 0x54, 0x54, 4, 4, .ro, 0, .any⟩ /- OFFSET_G0 to OFFSET_G3 -/,
  ⟨0x3340, 0x336F, 0x55, 0x55, 4, 4, .ro, 1073741824, .any⟩ /- GAIN_G0 to GAIN_G3 -/,
  ⟨0x3340, 0x336F, 0x56, 0x56, 4, 4, .ro, 0, .any⟩ /- OFFSET_G0 to OFFSET_G3 -/,
  ⟨0x3340, 0x336F, 0x57, 0x57, 4, 4, .ro, 1073741824, .any⟩ /- GAIN_G0 to GAIN_G3 -/,
  ⟨0x3340, 0x336F, 0x58, 0x58, 4, 4, .ro, 0, .any⟩ /- BUF_OFFSET -/]

def rows50 : List Row := [
  ⟨0x3340, 0x336F, 0x59, 0x59, 4, 4, .ro, 1073741824, .any⟩ /- BUF_GAIN -/,
  ⟨0x3340, 0x336F, 0x5A, 0x5A, 2, 2, .ro, 0, .any⟩ /- TC_GAIN_G0 to TC_GAIN_G3 -/,
  ⟨0x3340, 0x336F, 0x5B, 0x5B, 2, 2, .ro, 0, .any⟩ /- TC_GAIN_G0 to TC_GAIN_G3 -/,
  ⟨0x3340, 0x336F, 0x5C, 0x5C, 2, 2, .ro, 0, .any⟩ /- TC_GAIN_G0 to TC_GAIN_G3 -/,
  ⟨0x3340, 0x336F, 0x5D, 0x5D, 2, 2, .ro, 0, .any⟩ /- TC_GAIN_G0 to TC_GAIN_G3 -/]

def rows51 : List Row := [
  ⟨0x3340, 0x336F, 0x5E, 0x5E, 2, 2, .ro, 0, .any⟩ /- TC_OFFSET -/,
  ⟨0x3340, 0x336F, 0x60, 0x60, 4, 4, .ro, 0, .any⟩ /- OFFSET_G0 to OFFSET_G3 -/,
  ⟨0x3340, 0x336F, 0x61, 0x61, 4, 4, .ro, 1073741824, .any⟩ /- GAIN_G0 to GAIN_G3 -/,
  ⟨0x3340, 0x336F, 0x62, 0x62, 4, 4, .ro, 0, .any⟩ /- OFFSET_G0 to OFFSET_G3 -/,
  ⟨0x3340, 0x336F, 0x63, 0x63, 4, 4, .ro, 1073741824, .any⟩ /- GAIN_G0 to GAIN_G3 -/]

def rows52 : List Row := [
  ⟨0x3340, 0x336F, 0x64, 0x64, 4, 4, .ro, 0, .any⟩ /- OFFSET_G0 to OFFSET_G3 -/,
  ⟨0x3340, 0x336F, 0x65, 0x65, 4, 4, .ro, 1073741824, .any⟩ /- GAIN_G0 to GAIN_G3 -/,
  ⟨0x3340, 0x336F, 0x66, 0x66, 4, 4, .ro, 0, .any⟩ /- OFFSET_G0 to OFFSET_G3 -/,
  ⟨0x3340, 0x336F, 0x67, 0x67, 4, 4, .ro, 1073741824, .any⟩ /- GAIN_G0 to GAIN_G3 -/,
  ⟨0x3340, 0x336F, 0x68, 0x68, 4, 4, .ro, 0, .any⟩ /- BUF_OFFSET -/]

def rows53 : List Row := [
  ⟨0x3340, 0x336F, 0x69, 0x69, 4, 4, .ro, 1073741824, .any⟩ /- BUF_GAIN -/,
  ⟨0x3340, 0x336F, 0x6A, 0x6A, 2, 2, .ro, 0, .any⟩ /- TC_GAIN_G0 to TC_GAIN_G3 -/,
  ⟨0x3340, 0x336F, 0x6B, 0x6B, 2, 2, .ro, 0, .any⟩ /- TC_GAIN_G0 to TC_GAIN_G3 -/,
  ⟨0x3340, 0x336F, 0x6C, 0x6C, 2, 2, .ro, 0, .any⟩ /- TC_GAIN_G0 to TC_GAIN_G3 -/,
  ⟨0x3340, 0x336F, 0x6D, 0x6D, 2, 2, .ro, 0, .any⟩ /- TC_GAIN_G0 to TC_GAIN_G3 -/]

def rows54 : List Row := [
  ⟨0x3340, 0x336F, 0x6E, 0x6E, 2, 2, .ro, 0, .any⟩ /- TC_OFFSET -/,
  ⟨0x3340, 0x336F, 0x70, 0x70, 4, 4, .ro, 0, .any⟩ /- OFFSET_G0 to OFFSET_G3 -/,
  ⟨0x3340, 0x336F, 0x71, 0x71, 4, 4, .ro, 1073741824, .any⟩ /- GAIN_G0 to GAIN_G3 -/,
  ⟨0x3340, 0x336F, 0x72, 0x72, 4, 4, .ro, 0, .any⟩ /- OFFSET_G0 to OFFSET_G3 -/,
  ⟨0x3340, 0x336F, 0x73, 0x73, 4, 4, .ro, 1073741824, .any⟩ /- GAIN_G0 to GAIN_G3 -/]

def rows55 : List Row := [
  ⟨0x3340, 0x336F, 0x74, 0x74, 4, 4, .ro, 0, .any⟩ /- OFFSET_G0 to OFFSET_G3 -/,
  ⟨0x3340, 0x336F, 0x75, 0x75, 4, 4, .ro, 1073741824, .any⟩ /- GAIN_G0 to GAIN_G3 -/,
  ⟨0x3340, 0x336F, 0x76, 0x76, 4, 4, .ro, 0, .any⟩ /- OFFSET_G0 to OFFSET_G3 -/,
  ⟨0x3340, 0x336F, 0x77, 0x77, 4, 4, .ro, 1073741824, .any⟩ /- GAIN_G0 to GAIN_G3 -/,
  ⟨0x3340, 0x336F, 0x78, 0x78, 4, 4, .ro, 0, .any⟩ /- BUF_OFFSET -/]

def rows56 : List Row := [
  ⟨0x3340, 0x336F, 0x79, 0x79, 4, 4, .ro, 1073741824, .any⟩ /- BUF_GAIN -/,
  ⟨0x3340, 0x336F, 0x7A, 0x7A, 2, 2, .ro, 0, .any⟩ /- TC_GAIN_G0 to TC_GAIN_G3 -/,
  ⟨0x3340, 0x336F, 0x7B, 0x7B, 2, 2, .ro, 0, .any⟩ /- TC_GAIN_G0 to TC_GAIN_G3 -/,
  ⟨0x3340, 0x336F, 0x7C, 0x7C, 2, 2, .ro, 0, .any⟩ /- TC_GAIN_G0 to TC_GAIN_G3 -/,
  ⟨0x3340, 0x336F, 0x7D, 0x7D, 2, 2, .ro, 0, .any⟩ /- TC_GAIN_G0 to TC_GAIN_G3 -/]

def rows57 : List Row := [
  ⟨0x3340, 0x336F, 0x7E, 0x7E, 2, 2, .ro, 0, .any⟩ /- TC_OFFSET -/,
  ⟨0x3340, 0x336F, 0x80, 0x80, 4, 4, .ro, 0, .any⟩ /- OFFSET_G0 to OFFSET_G3 -/,
  ⟨0x3340, 0x336F, 0x81, 0x81, 4, 4, .ro, 1073741824, .any⟩ /- GAIN_G0 to GAIN_G3 -/,
  ⟨0x3340, 0x336F, 0x82, 0x82, 4, 4, .ro, 0, .any⟩ /- OFFSET_G0 to OFFSET_G3 -/,
  ⟨0x3340, 0x336F, 0x83, 0x83, 4, 4, .ro, 1073741824, .any⟩ /- GAIN_G0 to GAIN_G3 -/]

def rows58 : List Row := [
  ⟨0x3340, 0x336F, 0x84, 0x84, 4, 4, .ro, 0, .any⟩ /- OFFSET_G0 to OFFSET_G3 -/,
  ⟨0x3340, 0x336F, 0x85, 0x85, 4, 4, .ro, 1073741824, .any⟩ /- GAIN_G0 to GAIN_G3 -/,
  ⟨0x3340, 0x336F, 0x86, 0x86, 4, 4, .ro, 0, .any⟩ /- OFFSET_G0 to OFFSET_G3 -/,
  ⟨0x3340, 0x336F, 0x87, 0x87, 4, 4, .ro, 1073741824, .any⟩ /- GAIN_G0 to GAIN_G3 -/,
  ⟨0x3340, 0x336F, 0x88, 0x88, 4, 4, .ro, 0, .any⟩ /- BUF_OFFSET -/]

def rows59 : List Row := [
  ⟨0x3340, 0x336F, 0x89, 0x89, 4, 4, .ro, 1073741824, .any⟩ /- BUF_GAIN -/,
  ⟨0x3340, 0x336F, 0x8A, 0x8A, 2, 2, .ro, 0, .any⟩ /- TC_GAIN_G0 to TC_GAIN_G3 -/,
  ⟨0x3340, 0x336F, 0x8B, 0x8B, 2, 2, .ro, 0, .any⟩ /- TC_GAIN_G0 to TC_GAIN_G3 -/,
  ⟨0x3340, 0x336F, 0x8C, 0x8C, 2, 2, .ro, 0, .any⟩ /- TC_GAIN_G0 to TC_GAIN_G3 -/,
  ⟨0x3340, 0x336F, 0x8D, 0x8D, 2, 2, .ro, 0, .any⟩ /- TC_GAIN_G0 to TC_GAIN_G3 -/]

def rows60 : List Row := [
  ⟨0x3340, 0x336F, 0x8E, 0x8E, 2, 2, .ro, 0, .any⟩ /- TC_OFFSET -/]

/-- The rows of a subindex at indices 0x3340 to 0x336F. -/
def block3340 (sub : Nat) : List Row :=
  if sub < 0x4E then
    if sub < 0x29 then
      if sub < 0x19 then
        if sub < 0x06 then
          rows35
        else
          if sub < 0x14 then
            rows36
          else
            rows37
      else
        if sub < 0x1E then
          rows38
        else
          if sub < 0x24 then
            rows39
          else
            rows40
    else
      if sub < 0x39 then
        if sub < 0x2E then
          rows41
        else
          if sub < 0x34 then
            rows42
          else
            rows43
      else
        if sub < 0x44 then
          if sub < 0x3E then
            rows44
          else
            rows45
        else
          if sub < 0x49 then
            rows46
          else
            rows47
  else
    if sub < 0x6E then
      if sub < 0x5E then
        if sub < 0x54 then
          rows48
        else
          if sub < 0x59 then
            rows49
          else
            rows50
      else
        if sub < 0x64 then
          rows51
        else
          if sub < 0x69 then
            rows52
          else
            rows53
    else
      if sub < 0x7E then
        if sub < 0x74 then
          rows54
        else
          if sub < 0x79 then
            rows55
          else
            rows56
      else
        if sub < 0x89 then
          if sub < 0x84 then
            rows57
          else
            rows58
        else
          if sub < 0x8E then
            rows59
          else
            rows60

/-- The rows an object at 0x3000 to 0x3FFF can stand in. -/
def rowsC (idx sub : Nat) : List Row :=
  if idx < 0x3240 then
    if idx < 0x3106 then
      if idx < 0x3040 then
        rows18
      else
        if idx < 0x3100 then
          block3040 sub
        else
          rows22
    else
      if idx < 0x3140 then
        rows23
      else
        if idx < 0x3200 then
          block3140 sub
        else
          rows27
  else
    if idx < 0x3310 then
      if idx < 0x3300 then
        block3240 sub
      else
        if idx < 0x3306 then
          rows30
        else
          rows31
    else
      if idx < 0x3320 then
        block3310 sub
      else
        if idx < 0x3340 then
          rows34
        else
          block3340 sub

/-! Rows of 0x4000 to 0x4FFF. -/

def rows61 : List Row := [
  ⟨0x4000, 0x4003, 0x01, 0x01, 12, 12, .ro, 0, .any⟩ /- NOW -/,
  ⟨0x4000, 0x4003, 0x02, 0x02, 1, 1, .ro, 4, .any⟩ /- STATE -/,
  ⟨0x4000, 0x4003, 0x03, 0x03, 1, 1, .ro, 4, .any⟩ /- QUALITY -/,
  ⟨0x4000, 0x4001, 0x04, 0x04, 1, 1, .stopped, 1, (.between 0 4)⟩ /- SOURCE -/,
  ⟨0x4000, 0x4001, 0x05, 0x05, 1, 1, .stopped, 0, (.between 0 7)⟩ /- SOURCE_PORT -/]

def rows62 : List Row := [
  ⟨0x4000, 0x4002, 0x06, 0x06, 8, 8, .ro, 4398046511104, .any⟩ /- INCREMENT -/,
  ⟨0x4003, 0x4003, 0x06, 0x06, 8, 8, .live, 4398046511104, (.both (.oneOf [0]) (.between 0x03FF7CED9168 0x040083126E98))⟩ /- INCREMENT -/,
  ⟨0x4000, 0x4001, 0x07, 0x07, 8, 8, .ro, 0, .any⟩ /- OFFSET -/,
  ⟨0x4000, 0x4001, 0x08, 0x08, 4, 4, .live, 1000, (.between 10 1000000000)⟩ /- JUMP_THRESHOLD -/,
  ⟨0x4000, 0x4001, 0x09, 0x09, 1, 1, .wo, 0, (.oneOf [1])⟩ /- JUMP_ACCEPT -/]

def rows63 : List Row := [
  ⟨0x4000, 0x4001, 0x0A, 0x0A, 2, 2, .live, 50, (.between 1 200)⟩ /- SLEW_LIMIT -/,
  ⟨0x4000, 0x4001, 0x0B, 0x0B, 2, 2, .stopped, 16, (.between 2 1000)⟩ /- SERVO_TC -/,
  ⟨0x4000, 0x4001, 0x0C, 0x0C, 4, 4, .ro, 0, .any⟩ /- STEPS -/,
  ⟨0x4000, 0x4001, 0x0D, 0x0D, 4, 4, .ro, 0, .any⟩ /- JUMPS_REFUSED -/,
  ⟨0x4000, 0x4001, 0x0E, 0x0E, 12, 12, .ro, 0, .any⟩ /- STATE_SINCE -/]

def rows64 : List Row := [
  ⟨0x4000, 0x4001, 0x0F, 0x0F, 4, 4, .ro, 0, .any⟩ /- FREQ_OFFSET -/,
  ⟨0x4000, 0x4003, 0x10, 0x10, 12, 12, .wo, 0, .time96⟩ /- SET -/,
  ⟨0x4000, 0x4003, 0x11, 0x11, 2, 2, .ro, 0, .any⟩ /- STATUS -/]

/-- The rows of a subindex at indices 0x4000 to 0x4003. -/
def block4000 (sub : Nat) : List Row :=
  if sub < 0x0A then
    if sub < 0x06 then
      rows61
    else
      rows62
  else
    if sub < 0x0F then
      rows63
    else
      rows64

def rows65 : List Row := [
  ⟨0x4008, 0x4008, 0x00, 0x00, 48, 48, .ro, 0, .any⟩ /- TIME_SNAPSHOT -/]

def rows66 : List Row := [
  ⟨0x4010, 0x4010, 0x01, 0x01, 8, 8, .ro, 0, .any⟩ /- XCHK_MEAN -/,
  ⟨0x4010, 0x4010, 0x02, 0x02, 8, 8, .ro, 0, .any⟩ /- XCHK_MAX -/,
  ⟨0x4010, 0x4010, 0x03, 0x03, 8, 8, .ro, 0, .any⟩ /- XCHK_RMS -/,
  ⟨0x4010, 0x4010, 0x04, 0x04, 1, 1, .ro, 0, .any⟩ /- XCHK_VALID -/,
  ⟨0x4010, 0x4010, 0x05, 0x05, 4, 4, .live, 100, (.between 1 1000000000)⟩ /- XCHK_LIMIT -/,
  ⟨0x4010, 0x4010, 0x06, 0x06, 12, 12, .ro, 0, .any⟩ /- XCHK_TIME -/]

def rows67 : List Row := [
  ⟨0x4020, 0x402F, 0x01, 0x01, 1, 1, .ro, 0, .any⟩ /- ROLE -/,
  ⟨0x4020, 0x402F, 0x02, 0x02, 4, 4, .ro, 0, .any⟩ /- TX_LATENCY -/,
  ⟨0x4020, 0x402F, 0x03, 0x03, 4, 4, .ro, 0, .any⟩ /- RX_LATENCY -/,
  ⟨0x4020, 0x402F, 0x04, 0x04, 4, 4, .stopped, 0, (.sbetween 32 (-1000000) (1000000))⟩ /- LINK_ASYM -/,
  ⟨0x4020, 0x402F, 0x05, 0x05, 8, 8, .ro, 0, .any⟩ /- LINK_DELAY -/]

def rows68 : List Row := [
  ⟨0x4020, 0x402F, 0x06, 0x06, 8, 8, .ro, 0, .any⟩ /- OFFSET -/,
  ⟨0x4020, 0x402F, 0x07, 0x07, 4, 4, .ro, 0, .any⟩ /- FREQ_RATIO -/,
  ⟨0x4020, 0x402F, 0x08, 0x08, 1, 1, .ro, 0, .any⟩ /- PEER_LEVEL -/,
  ⟨0x4020, 0x402F, 0x09, 0x09, 1, 1, .ro, 4, .any⟩ /- PEER_QUALITY -/,
  ⟨0x4020, 0x402F, 0x0A, 0x0A, 2, 2, .ro, 0, .any⟩ /- PEER_HUB_ID -/]

def rows69 : List Row := [
  ⟨0x4020, 0x402F, 0x0B, 0x0B, 4, 4, .ro, 0, .any⟩ /- EXCHANGES -/,
  ⟨0x4020, 0x402F, 0x0C, 0x0C, 4, 4, .ro, 0, .any⟩ /- EXCHANGES_FAILED -/]

/-- The rows of a subindex at indices 0x4020 to 0x402F. -/
def block4020 (sub : Nat) : List Row :=
  if sub < 0x06 then
    rows67
  else
    if sub < 0x0B then
      rows68
    else
      rows69

def rows70 : List Row := [
  ⟨0x4100, 0x411F, 0x01, 0x01, 12, 12, .live, 0, .time96⟩ /- INSTANT -/,
  ⟨0x4100, 0x411F, 0x02, 0x02, 8, 8, .live, 0, (.both (.oneOf [0]) (.between 65536000 281474976710656))⟩ /- PERIOD -/,
  ⟨0x4100, 0x411F, 0x03, 0x03, 4, 4, .live, 1, .any⟩ /- COUNT -/,
  ⟨0x4100, 0x411F, 0x04, 0x04, 1, 1, .live, 0, .bool⟩ /- ARM -/,
  ⟨0x4100, 0x411F, 0x05, 0x05, 1, 1, .ro, 0, .any⟩ /- STATE -/,
  ⟨0x4100, 0x411F, 0x06, 0x06, 4, 4, .ro, 0, .any⟩ /- FIRE_COUNT -/,
  ⟨0x4100, 0x411F, 0x07, 0x07, 12, 12, .ro, 0, .any⟩ /- LAST_FIRE -/,
  ⟨0x4100, 0x411F, 0x08, 0x08, 4, 4, .ro, 0, .any⟩ /- MISSED_COUNT -/]

def rows71 : List Row := [
  ⟨0x4200, 0x4200, 0x01, 0x01, 4, 4, .stopped, 0, (.sbetween 32 (-10000000) (10000000))⟩ /- PPS_IN_DELAY -/,
  ⟨0x4200, 0x4200, 0x02, 0x02, 12, 12, .wo, 0, (.mask 0xFFFFFFFFFFFF000000000000)⟩ /- TOD_NEXT -/,
  ⟨0x4200, 0x4200, 0x03, 0x03, 12, 12, .ro, 0, .any⟩ /- PPS_IN_LAST -/,
  ⟨0x4200, 0x4200, 0x04, 0x04, 8, 8, .ro, 0, .any⟩ /- PPS_IN_OFFSET -/,
  ⟨0x4200, 0x4200, 0x05, 0x05, 4, 4, .ro, 0, .any⟩ /- PPS_IN_EDGES -/,
  ⟨0x4200, 0x4200, 0x06, 0x06, 4, 4, .ro, 0, .any⟩ /- PPS_IN_IRREGULAR -/,
  ⟨0x4200, 0x4200, 0x07, 0x07, 1, 1, .stopped, 1, (.between 1 2)⟩ /- REFCLK_IN_FREQ -/,
  ⟨0x4200, 0x4200, 0x08, 0x08, 1, 1, .ro, 0, .any⟩ /- REFCLK_IN_VALID -/]

def rows72 : List Row := [
  ⟨0x4210, 0x4210, 0x01, 0x01, 1, 1, .live, 1, (.between 0 3)⟩ /- PPS_OUT_SOURCE -/,
  ⟨0x4210, 0x4210, 0x02, 0x02, 1, 1, .live, 0, (.between 0 31)⟩ /- PPS_OUT_CUE -/,
  ⟨0x4210, 0x4210, 0x03, 0x03, 4, 4, .live, 100000, (.between 1 500000)⟩ /- PPS_OUT_WIDTH -/,
  ⟨0x4210, 0x4210, 0x04, 0x04, 4, 4, .live, 0, (.sbetween 32 (-1000000) (1000000))⟩ /- PPS_OUT_DELAY -/,
  ⟨0x4210, 0x4210, 0x05, 0x05, 1, 1, .live, 1, (.between 0 2)⟩ /- PPS_OUT_GATE -/]

def rows73 : List Row := [
  ⟨0x4211, 0x4211, 0x01, 0x01, 1, 1, .live, 0, (.between 0 2)⟩ /- REFCLK_OUT_FREQ -/,
  ⟨0x4211, 0x4211, 0x02, 0x02, 4, 4, .live, 0, (.sbetween 32 (-1000000) (1000000))⟩ /- REFCLK_OUT_DELAY -/,
  ⟨0x4211, 0x4211, 0x03, 0x03, 1, 1, .live, 1, (.between 0 2)⟩ /- REFCLK_OUT_GATE -/]

def rows74 : List Row := [
  ⟨0x4220, 0x4220, 0x01, 0x01, 1, 1, .stopped, 0, (.between 0 127)⟩ /- PTP_DOMAIN -/,
  ⟨0x4220, 0x4220, 0x02, 0x02, 1, 1, .ro, 5, .any⟩ /- PTP_STATE -/,
  ⟨0x4220, 0x4220, 0x03, 0x03, 8, 8, .ro, 0, .any⟩ /- GM_IDENTITY -/,
  ⟨0x4220, 0x4220, 0x04, 0x04, 8, 8, .ro, 0, .any⟩ /- OFFSET_FROM_MASTER -/,
  ⟨0x4220, 0x4220, 0x05, 0x05, 8, 8, .ro, 0, .any⟩ /- MEAN_PATH_DELAY -/,
  ⟨0x4220, 0x4220, 0x06, 0x06, 1, 1, .stopped, 0, (.between 0 5)⟩ /- LOG_DELAY_REQ_INTERVAL -/,
  ⟨0x4220, 0x4220, 0x07, 0x07, 4, 4, .stopped, 0, .any⟩ /- PTP_DELAY_ASYMMETRY -/,
  ⟨0x4220, 0x4220, 0x08, 0x08, 2, 2, .live, 37, .any⟩ /- UTC_OFFSET -/]

/-- The rows an object at 0x4000 to 0x4FFF can stand in. -/
def rowsD (idx sub : Nat) : List Row :=
  if idx < 0x4100 then
    if idx < 0x4010 then
      if idx < 0x4008 then
        block4000 sub
      else
        rows65
    else
      if idx < 0x4020 then
        rows66
      else
        block4020 sub
  else
    if idx < 0x4210 then
      if idx < 0x4200 then
        rows70
      else
        rows71
    else
      if idx < 0x4211 then
        rows72
      else
        if idx < 0x4220 then
          rows73
        else
          rows74

/-! Rows of 0x5000 to 0x5FFF. -/

def rows75 : List Row := [
  ⟨0x5000, 0x5000, 0x00, 0x00, 1, 1, .cue, 1, .bool⟩ /- SEQ_ENABLE -/,
  ⟨0x5001, 0x5001, 0x00, 0x00, 1, 1, .ro, 0, .any⟩ /- SEQ_STATE -/,
  ⟨0x5002, 0x5002, 0x00, 0x00, 1, 1, .ro, 0, .any⟩ /- MANAGER_STATE -/,
  ⟨0x5003, 0x5003, 0x01, 0x02, 4, 4, .ro, 0, .any⟩ /- COUNTER -/,
  ⟨0x5004, 0x5004, 0x01, 0x02, 4, 4, .cue, 1, .any⟩ /- COUNTER_TARGET -/,
  ⟨0x5005, 0x5005, 0x01, 0x02, 8, 8, .cue, 250000, (.between 1 1099511627775)⟩ /- TIMER_LOAD -/]

def rows76 : List Row := [
  ⟨0x5006, 0x5006, 0x01, 0x02, 8, 8, .ro, 0, .any⟩ /- TIMER_REMAIN -/,
  ⟨0x5008, 0x5008, 0x00, 0x00, 1, 1, .stopped, 0, (.between 0 3)⟩ /- CUE_ROLE -/,
  ⟨0x5009, 0x5009, 0x00, 0x00, 1, 1, .cue, 3, (.mask 0x3)⟩ /- JOIN -/,
  ⟨0x500A, 0x500A, 0x00, 0x00, 4, 4, .cue, 1000, (.between 100 100000)⟩ /- CUE_FIRE_WIDTH -/,
  ⟨0x500B, 0x500B, 0x00, 0x00, 4, 4, .cue, 0, (.sbetween 32 (-1000000) (1000000))⟩ /- CUE_FIRE_DELAY -/,
  ⟨0x500C, 0x500C, 0x00, 0x00, 4, 4, .cue, 1000, (.between 1 1000000)⟩ /- COINC_WINDOW -/]

def rows77 : List Row := [
  ⟨0x500D, 0x500D, 0x00, 0x00, 4, 4, .cue, 1000, (.between 1 10000)⟩ /- EVENT_SETTLE -/,
  ⟨0x500E, 0x500E, 0x00, 0x00, 1, 1, .cue, 0, (.between 0 1)⟩ /- AUTO_MODE -/,
  ⟨0x500F, 0x500F, 0x00, 0x00, 4, 4, .cue, 1000, (.between 1 3600000)⟩ /- AUTO_TIMEOUT -/,
  ⟨0x5010, 0x5010, 0x00, 0x00, 1, 1, .wo, 0, .any⟩ /- SOFT_TRIGGER -/,
  ⟨0x5011, 0x5011, 0x00, 0x00, 4, 4, .ro, 0, .any⟩ /- IGNORED_ACTIONS -/,
  ⟨0x5012, 0x5012, 0x00, 0x00, 4, 4, .ro, 0, .any⟩ /- EVENT_COUNT -/]

def rows78 : List Row := [
  ⟨0x5013, 0x5013, 0x00, 0x00, 64, 64, .ro, 0, .any⟩ /- LAST_EVENT -/,
  ⟨0x5014, 0x5014, 0x01, 0x10, 64, 64, .ro, 0, .any⟩ /- EVENT_HISTORY -/,
  ⟨0x5015, 0x5015, 0x00, 0x00, 17, 17, .wo, 0, .any⟩ /- FIRE_INJECT -/,
  ⟨0x5016, 0x5016, 0x00, 0x00, 17, 17, .wo, 0, .any⟩ /- ARM_INJECT -/,
  ⟨0x5020, 0x503F, 0x01, 0x01, 4, 4, .cue, 65536, (.mask 0x1FFFF)⟩ /- SOURCE word -/,
  ⟨0x5020, 0x503F, 0x02, 0x02, 4, 4, .cue, 0, .any⟩ /- LEVEL -/]

def rows79 : List Row := [
  ⟨0x5040, 0x504F, 0x01, 0x01, 4, 4, .cue, 0, (.mask 0xFFFFFFF)⟩ /- COND_A -/,
  ⟨0x5040, 0x504F, 0x02, 0x02, 4, 4, .cue, 0, (.mask 0xFFFF)⟩ /- ACTION_A -/,
  ⟨0x5040, 0x504F, 0x03, 0x03, 4, 4, .cue, 0, (.mask 0xFFFFFFF)⟩ /- COND_B -/,
  ⟨0x5040, 0x504F, 0x04, 0x04, 4, 4, .cue, 0, (.mask 0xFFFF)⟩ /- ACTION_B -/]

def rows80 : List Row := [
  ⟨0x5060, 0x507F, 0x01, 0x01, 1, 1, .cue, 0, (.between 0 95)⟩ /- CHANNEL -/,
  ⟨0x5060, 0x507F, 0x02, 0x02, 1, 1, .cue, 0, (.between 0 4)⟩ /- MODE -/,
  ⟨0x5060, 0x507F, 0x03, 0x03, 1, 1, .cue, 0, (.between 0 3)⟩ /- SCALE -/,
  ⟨0x5060, 0x507F, 0x04, 0x04, 2, 2, .cue, 1024, (.sbetween 16 (-2048) (2047))⟩ /- THRESH_HI -/,
  ⟨0x5060, 0x507F, 0x05, 0x05, 2, 2, .cue, 64512, (.sbetween 16 (-2048) (2047))⟩ /- THRESH_LO -/]

def rows81 : List Row := [
  ⟨0x5060, 0x507F, 0x06, 0x06, 1, 1, .cue, 8, .any⟩ /- HYST -/,
  ⟨0x5060, 0x507F, 0x07, 0x07, 4, 4, .ro, 0, .any⟩ /- EDGES -/,
  ⟨0x5060, 0x507F, 0x08, 0x08, 4, 4, .ro, 0, .any⟩ /- STAMP_SHARED -/,
  ⟨0x5060, 0x507F, 0x09, 0x09, 12, 12, .ro, 0, .any⟩ /- LAST_EDGE -/]

/-- The rows of a subindex at indices 0x5060 to 0x507F. -/
def block5060 (sub : Nat) : List Row :=
  if sub < 0x06 then
    rows80
  else
    rows81

def rows82 : List Row := [
  ⟨0x5100, 0x5100, 0x00, 0x00, 2, 2, .ro, 3840, .any⟩ /- CAP_AREA_FREE -/,
  ⟨0x5101, 0x5101, 0x00, 0x00, 1, 1, .stopped, 0, .bool⟩ /- CAP_READ_PRIORITY -/,
  ⟨0x5102, 0x5102, 0x00, 0x00, 2, 2, .cue, 100, (.between 10 1000)⟩ /- CAP_READOUT_RATE -/,
  ⟨0x5103, 0x5103, 0x00, 0x00, 1, 1, .cue, 1, (.between 0 7)⟩ /- CAP_READOUT_CLASS -/,
  ⟨0x5104, 0x5104, 0x00, 0x00, 4, 4, .ro, 0, .any⟩ /- CAP_WRITE_RATE -/]

def rows83 : List Row := [
  ⟨0x5110, 0x511F, 0x01, 0x01, 1, 1, .cue, 0, .bool⟩ /- ENABLE -/,
  ⟨0x5110, 0x511F, 0x02, 0x02, 1, 1, .cue, 0, (.between 0 1)⟩ /- KIND -/,
  ⟨0x5110, 0x511F, 0x03, 0x03, 48, 48, .cue, 0, .any⟩ /- CH_MASK -/,
  ⟨0x5110, 0x511F, 0x04, 0x04, 1, 1, .cue, 0, (.mask 0xF)⟩ /- DIE_MASK -/,
  ⟨0x5110, 0x511F, 0x05, 0x05, 2, 2, .cue, 0, (.between 0 3840)⟩ /- SIZE -/]

def rows84 : List Row := [
  ⟨0x5110, 0x511F, 0x06, 0x06, 4, 4, .cue, 0, .any⟩ /- PRE -/,
  ⟨0x5110, 0x511F, 0x07, 0x07, 4, 4, .cue, 1, (.between 1 4294967295)⟩ /- POST -/,
  ⟨0x5110, 0x511F, 0x08, 0x08, 1, 1, .cue, 0, .bool⟩ /- AUTO_READOUT -/,
  ⟨0x5110, 0x511F, 0x09, 0x09, 1, 1, .ro, 0, .any⟩ /- STATE -/,
  ⟨0x5110, 0x511F, 0x0A, 0x0A, 4, 4, .ro, 0, .any⟩ /- CAPACITY -/]

def rows85 : List Row := [
  ⟨0x5110, 0x511F, 0x0B, 0x0B, 1, 1, .wo, 0, (.oneOf [1])⟩ /- RELEASE -/,
  ⟨0x5110, 0x511F, 0x0C, 0x0C, 8, 8, .ro, 0, .any⟩ /- IMAGE_SIZE -/,
  ⟨0x5110, 0x511F, 0x0D, 0x0D, 8, 8, .live, 0, .any⟩ /- READ_OFFSET -/,
  ⟨0x5110, 0x511F, 0x0E, 0x0E, 1, 13824, .ro, 0, .any⟩ /- DATA -/,
  ⟨0x5110, 0x511F, 0x0F, 0x0F, 1, 1, .wo, 0, (.oneOf [1])⟩ /- READOUT_START -/]

def rows86 : List Row := [
  ⟨0x5110, 0x511F, 0x10, 0x10, 256, 256, .ro, 0, .any⟩ /- HEADER -/]

/-- The rows of a subindex at indices 0x5110 to 0x511F. -/
def block5110 (sub : Nat) : List Row :=
  if sub < 0x0B then
    if sub < 0x06 then
      rows83
    else
      rows84
  else
    if sub < 0x10 then
      rows85
    else
      rows86

/-- The rows an object at 0x5000 to 0x5FFF can stand in. -/
def rowsE (idx sub : Nat) : List Row :=
  if idx < 0x5040 then
    if idx < 0x500D then
      if idx < 0x5006 then
        rows75
      else
        rows76
    else
      if idx < 0x5013 then
        rows77
      else
        rows78
  else
    if idx < 0x5100 then
      if idx < 0x5060 then
        rows79
      else
        block5060 sub
    else
      if idx < 0x5110 then
        rows82
      else
        block5110 sub

/-! Rows of 0x6000 to 0x6FFF. -/

def rows87 : List Row := [
  ⟨0x6000, 0x601F, 0x01, 0x01, 1, 1, .cue, 0, .bool⟩ /- ENABLE -/,
  ⟨0x6000, 0x601F, 0x02, 0x02, 1, 1, .live, 0, (.between 0 4)⟩ /- LOOP_MODE -/,
  ⟨0x6000, 0x601F, 0x03, 0x03, 1, 1, .ro, 6, .any⟩ /- LOOP_STATE -/,
  ⟨0x6000, 0x601F, 0x04, 0x04, 4, 4, .cue, 100, (.between 1 100000)⟩ /- CYCLE -/,
  ⟨0x6000, 0x601F, 0x05, 0x05, 4, 4, .cue, 0, .any⟩ /- PHASE -/]

def rows88 : List Row := [
  ⟨0x6000, 0x601F, 0x06, 0x06, 1, 1, .cue, 4, (.between 0 7)⟩ /- PRIORITY -/,
  ⟨0x6000, 0x601F, 0x07, 0x07, 2, 2, .cue, 0, (.mask 0x3FFF)⟩ /- MEASURE -/,
  ⟨0x6000, 0x601F, 0x08, 0x08, 1, 1, .cue, 0, (.between 0 1)⟩ /- INPUT_POLICY -/,
  ⟨0x6000, 0x601F, 0x09, 0x09, 4, 4, .cue, 0, .any⟩ /- SUSPECT_LIMIT -/,
  ⟨0x6000, 0x601F, 0x0A, 0x0A, 1, 1, .cue, 0, (.between 0 1)⟩ /- LAW -/]

def rows89 : List Row := [
  ⟨0x6000, 0x601F, 0x0B, 0x0B, 8, 8, .live, 0, .any⟩ /- SETPOINT -/,
  ⟨0x6000, 0x601F, 0x0C, 0x0C, 4, 4, .live, 1000, .any⟩ /- BAND_UPPER -/,
  ⟨0x6000, 0x601F, 0x0D, 0x0D, 4, 4, .live, 1000, .any⟩ /- BAND_LOWER -/,
  ⟨0x6000, 0x601F, 0x0E, 0x0E, 4, 4, .live, 1, (.between 1 1000000)⟩ /- MIN_ON -/,
  ⟨0x6000, 0x601F, 0x0F, 0x0F, 4, 4, .live, 1, (.between 1 1000000)⟩ /- MIN_OFF -/]

def rows90 : List Row := [
  ⟨0x6000, 0x601F, 0x10, 0x10, 2, 2, .live, 0, .any⟩ /- MAX_SWITCHES -/,
  ⟨0x6000, 0x601F, 0x11, 0x11, 4, 4, .live, 1000, (.between 1 1000000)⟩ /- RATE_WINDOW -/,
  ⟨0x6000, 0x601F, 0x12, 0x12, 1, 1, .cue, 0, (.between 0 3)⟩ /- OUTPUT_KIND -/,
  ⟨0x6000, 0x601F, 0x13, 0x13, 1, 1, .cue, 0, (.between 0 15)⟩ /- OUTPUT_A -/,
  ⟨0x6000, 0x601F, 0x14, 0x14, 1, 1, .cue, 1, (.between 0 15)⟩ /- OUTPUT_B -/]

def rows91 : List Row := [
  ⟨0x6000, 0x601F, 0x15, 0x15, 4, 4, .live, 0, (.mask 0x3FFFFFFF)⟩ /- LEVEL_VALUES -/,
  ⟨0x6000, 0x601F, 0x16, 0x16, 2, 2, .cue, 0, (.between 0 1023)⟩ /- SAFE_TARGET -/,
  ⟨0x6000, 0x601F, 0x17, 0x17, 2, 2, .live, 0, .any⟩ /- MANUAL_OUTPUT -/,
  ⟨0x6000, 0x601F, 0x18, 0x18, 1, 1, .live, 3, (.between 1 255)⟩ /- OVERRUN_LIMIT -/,
  ⟨0x6000, 0x601F, 0x19, 0x19, 1, 1, .cue, 8, (.between 1 64)⟩ /- VEL_WINDOW -/]

def rows92 : List Row := [
  ⟨0x6000, 0x601F, 0x1A, 0x1A, 1, 1, .live, 0, (.between 0 1)⟩ /- TUNE_BASE -/,
  ⟨0x6000, 0x601F, 0x1B, 0x1B, 4, 4, .ro, 0, .any⟩ /- PV -/,
  ⟨0x6000, 0x601F, 0x1C, 0x1C, 8, 8, .ro, 0, .any⟩ /- PV_VEL -/,
  ⟨0x6000, 0x601F, 0x1D, 0x1D, 8, 8, .ro, 0, .any⟩ /- SP_EFF -/,
  ⟨0x6000, 0x601F, 0x1E, 0x1E, 1, 1, .ro, 0, .any⟩ /- LEVEL -/]

def rows93 : List Row := [
  ⟨0x6000, 0x601F, 0x1F, 0x1F, 2, 2, .ro, 0, .any⟩ /- OUTPUT -/,
  ⟨0x6000, 0x601F, 0x20, 0x20, 2, 2, .ro, 0, .any⟩ /- STATUS -/,
  ⟨0x6000, 0x601F, 0x21, 0x21, 4, 4, .ro, 0, .any⟩ /- OVERRUNS -/,
  ⟨0x6000, 0x601F, 0x22, 0x22, 1, 1, .ro, 0, .any⟩ /- CONSEC_OVERRUNS -/,
  ⟨0x6000, 0x601F, 0x23, 0x23, 4, 4, .ro, 0, .any⟩ /- SWITCHES -/]

def rows94 : List Row := [
  ⟨0x6000, 0x601F, 0x24, 0x24, 4, 4, .ro, 0, .any⟩ /- DEFERRED -/,
  ⟨0x6000, 0x601F, 0x25, 0x25, 4, 4, .ro, 0, .any⟩ /- SUSPECT_CYCLES -/,
  ⟨0x6000, 0x601F, 0x26, 0x26, 1, 1, .ro, 0, .any⟩ /- SAFE_CAUSE -/,
  ⟨0x6000, 0x601F, 0x27, 0x27, 12, 12, .ro, 0, .any⟩ /- LAST_CYCLE -/,
  ⟨0x6000, 0x601F, 0x28, 0x28, 64, 64, .ro, 0, .any⟩ /- CYCLE_SNAPSHOT -/]

/-- The rows of a subindex at indices 0x6000 to 0x601F. -/
def block6000 (sub : Nat) : List Row :=
  if sub < 0x15 then
    if sub < 0x0B then
      if sub < 0x06 then
        rows87
      else
        rows88
    else
      if sub < 0x10 then
        rows89
      else
        rows90
  else
    if sub < 0x1F then
      if sub < 0x1A then
        rows91
      else
        rows92
    else
      if sub < 0x24 then
        rows93
      else
        rows94

def rows95 : List Row := [
  ⟨0x6040, 0x604F, 0x01, 0x01, 1, 1, .cue, 0, (.between 0 2)⟩ /- SOURCE -/,
  ⟨0x6040, 0x604F, 0x02, 0x02, 1, 1, .live, 0, .bool⟩ /- HOST_LEVEL -/,
  ⟨0x6040, 0x604F, 0x03, 0x03, 1, 1, .cue, 0, .bool⟩ /- SAFE_LEVEL -/,
  ⟨0x6040, 0x604F, 0x04, 0x04, 1, 1, .cue, 0, .bool⟩ /- POLARITY -/,
  ⟨0x6040, 0x604F, 0x05, 0x05, 1, 1, .cue, 0, (.between 0 31)⟩ /- CUE -/]

def rows96 : List Row := [
  ⟨0x6040, 0x604F, 0x06, 0x06, 1, 1, .cue, 0, (.between 0 3)⟩ /- CUE_ACTION -/,
  ⟨0x6040, 0x604F, 0x07, 0x07, 4, 4, .cue, 250, (.between 1 4294967295)⟩ /- PULSE_WIDTH -/,
  ⟨0x6040, 0x604F, 0x08, 0x08, 1, 1, .ro, 0, .any⟩ /- STATUS -/,
  ⟨0x6040, 0x604F, 0x09, 0x09, 4, 4, .ro, 0, .any⟩ /- EDGES -/,
  ⟨0x6040, 0x604F, 0x0A, 0x0A, 1, 1, .wo, 0, (.oneOf [1])⟩ /- FAULT_CLEAR -/]

/-- The rows of a subindex at indices 0x6040 to 0x604F. -/
def block6040 (sub : Nat) : List Row :=
  if sub < 0x06 then
    rows95
  else
    rows96

def rows97 : List Row := [
  ⟨0x6080, 0x6080, 0x00, 0x00, 4, 4, .ro, 0, .any⟩ /- CTRL_LOAD_AVG -/,
  ⟨0x6081, 0x6081, 0x00, 0x00, 1, 1, .ro, 0, .any⟩ /- CTRL_PEAK_LOAD -/,
  ⟨0x6082, 0x6082, 0x00, 0x00, 1, 1, .ro, 1, .any⟩ /- CTRL_PEAK_EXACT -/,
  ⟨0x6083, 0x6083, 0x00, 0x00, 1, 1, .cue, 0, .bool⟩ /- CTRL_PEAK_STRICT -/,
  ⟨0x6084, 0x6084, 0x00, 0x00, 1, 1, .ro, 0, .any⟩ /- FRAME_LOAD_MAX -/,
  ⟨0x6085, 0x6085, 0x00, 0x00, 4, 4, .ro, 0, .any⟩ /- OVERRUNS_TOTAL -/]

def rows98 : List Row := [
  ⟨0x6100, 0x611F, 0x01, 0x01, 1, 1, .cue, 0, .bool⟩ /- GEN_ENABLE -/,
  ⟨0x6100, 0x611F, 0x02, 0x02, 8, 8, .live, 0, .any⟩ /- TARGET -/,
  ⟨0x6100, 0x611F, 0x03, 0x03, 8, 8, .live, 4294967296000000, .any⟩ /- V_MAX -/,
  ⟨0x6100, 0x611F, 0x04, 0x04, 8, 8, .live, 42949672960000000, .any⟩ /- A_MAX -/,
  ⟨0x6100, 0x611F, 0x05, 0x05, 8, 8, .live, 429496729600000000, .any⟩ /- J_MAX -/]

def rows99 : List Row := [
  ⟨0x6100, 0x611F, 0x06, 0x06, 8, 8, .ro, 0, .any⟩ /- GEN_POS -/,
  ⟨0x6100, 0x611F, 0x07, 0x07, 8, 8, .ro, 0, .any⟩ /- GEN_VEL -/,
  ⟨0x6100, 0x611F, 0x08, 0x08, 8, 8, .ro, 0, .any⟩ /- GEN_ACC -/,
  ⟨0x6100, 0x611F, 0x09, 0x09, 4, 4, .ro, 0, .any⟩ /- ARRIVALS -/,
  ⟨0x6100, 0x611F, 0x0A, 0x0A, 8, 8, .ro, 0, .any⟩ /- LAST_SNAP -/]

/-- The rows of a subindex at indices 0x6100 to 0x611F. -/
def block6100 (sub : Nat) : List Row :=
  if sub < 0x06 then
    rows98
  else
    rows99

def rows100 : List Row := [
  ⟨0x6120, 0x613F, 0x01, 0x01, 1, 1, .cue, 0, (.between 0 4)⟩ /- INJ_KIND -/,
  ⟨0x6120, 0x613F, 0x02, 0x02, 1, 1, .cue, 0, (.between 0 2)⟩ /- INJ_POINT -/,
  ⟨0x6120, 0x613F, 0x03, 0x03, 4, 4, .live, 0, .any⟩ /- INJ_AMPLITUDE -/,
  ⟨0x6120, 0x613F, 0x04, 0x04, 1, 1, .cue, 0, (.between 0 2)⟩ /- INJ_START -/,
  ⟨0x6120, 0x613F, 0x05, 0x05, 1, 1, .cue, 0, (.between 0 31)⟩ /- INJ_CUE -/]

def rows101 : List Row := [
  ⟨0x6120, 0x613F, 0x06, 0x06, 1, 1, .wo, 0, (.oneOf [1])⟩ /- INJ_GO -/,
  ⟨0x6120, 0x613F, 0x07, 0x07, 4, 4, .cue, 0, .any⟩ /- INJ_DURATION -/,
  ⟨0x6120, 0x613F, 0x08, 0x08, 4, 4, .cue, 100, (.between 1 4294967295)⟩ /- SQUARE_HALF -/,
  ⟨0x6120, 0x613F, 0x09, 0x09, 1, 1, .cue, 7, (.between 7 15)⟩ /- PRBS_N -/,
  ⟨0x6120, 0x613F, 0x0A, 0x0A, 2, 2, .cue, 1, (.between 1 65535)⟩ /- PRBS_HOLD -/]

def rows102 : List Row := [
  ⟨0x6120, 0x613F, 0x0B, 0x0B, 4, 4, .cue, 1000, (.between 100 10000000)⟩ /- SINE_F_START -/,
  ⟨0x6120, 0x613F, 0x0C, 0x0C, 4, 4, .cue, 100000, (.between 100 10000000)⟩ /- SINE_F_END -/,
  ⟨0x6120, 0x613F, 0x0D, 0x0D, 4, 4, .cue, 100000, (.between 2 4294967295)⟩ /- SINE_SWEEP -/,
  ⟨0x6120, 0x613F, 0x0E, 0x0E, 1, 1, .ro, 0, .any⟩ /- INJ_STATE -/,
  ⟨0x6120, 0x613F, 0x0F, 0x0F, 4, 4, .ro, 0, .any⟩ /- INJ_VALUE -/]

def rows103 : List Row := [
  ⟨0x6120, 0x613F, 0x10, 0x10, 4, 4, .ro, 0, .any⟩ /- INJ_INDEX -/,
  ⟨0x6120, 0x613F, 0x11, 0x11, 12, 12, .ro, 0, .any⟩ /- INJ_START_TIME -/]

/-- The rows of a subindex at indices 0x6120 to 0x613F. -/
def block6120 (sub : Nat) : List Row :=
  if sub < 0x0B then
    if sub < 0x06 then
      rows100
    else
      rows101
  else
    if sub < 0x10 then
      rows102
    else
      rows103

def rows104 : List Row := [
  ⟨0x6140, 0x6147, 0x01, 0x01, 1, 1, .cue, 0, (.between 0 31)⟩ /- TRACE_LOOP -/,
  ⟨0x6140, 0x6147, 0x02, 0x02, 1, 1, .cue, 0, .any⟩ /- TRACE_NODE -/,
  ⟨0x6140, 0x6147, 0x03, 0x03, 1, 1, .cue, 0, (.between 0 31)⟩ /- TRACE_SHIFT -/,
  ⟨0x6140, 0x6147, 0x04, 0x04, 2, 2, .cue, 1, (.between 1 65535)⟩ /- TRACE_DECIMATE -/,
  ⟨0x6140, 0x6147, 0x05, 0x05, 1, 1, .cue, 0, (.between 0 2)⟩ /- TRACE_START -/]

def rows105 : List Row := [
  ⟨0x6140, 0x6147, 0x06, 0x06, 1, 1, .cue, 0, (.between 0 31)⟩ /- TRACE_CUE -/,
  ⟨0x6140, 0x6147, 0x07, 0x07, 1, 1, .wo, 0, (.between 0 1)⟩ /- TRACE_GO -/,
  ⟨0x6140, 0x6147, 0x08, 0x08, 1, 1, .cue, 0, (.between 0 1)⟩ /- TRACE_MODE -/,
  ⟨0x6140, 0x6147, 0x09, 0x09, 4, 4, .cue, 16384, (.between 1 4194304)⟩ /- TRACE_LENGTH -/,
  ⟨0x6140, 0x6147, 0x0A, 0x0A, 1, 1, .ro, 0, .any⟩ /- TRACE_STATE -/]

def rows106 : List Row := [
  ⟨0x6140, 0x6147, 0x0B, 0x0B, 4, 4, .ro, 0, .any⟩ /- TRACE_COUNT -/,
  ⟨0x6140, 0x6147, 0x0C, 0x0C, 12, 12, .ro, 0, .any⟩ /- TRACE_START_TIME -/,
  ⟨0x6140, 0x6147, 0x0D, 0x0D, 4, 4, .live, 0, .any⟩ /- TRACE_READ_OFFSET -/,
  ⟨0x6140, 0x6147, 0x0E, 0x0E, 1, 13824, .ro, 0, .any⟩ /- TRACE_DATA -/,
  ⟨0x6140, 0x6147, 0x0F, 0x0F, 4, 4, .ro, 0, .any⟩ /- TRACE_OVERRUNS -/]

/-- The rows of a subindex at indices 0x6140 to 0x6147. -/
def block6140 (sub : Nat) : List Row :=
  if sub < 0x06 then
    rows104
  else
    if sub < 0x0B then
      rows105
    else
      rows106

def rows107 : List Row := [
  ⟨0x6800, 0x6800, 0x00, 0x00, 2, 2, .cue, 10, (.between 1 1000)⟩ /- FL_SOFT_START -/]

def rows108 : List Row := [
  ⟨0x6810, 0x6817, 0x01, 0x01, 1, 1, .cue, 0, .bool⟩ /- ENABLE -/,
  ⟨0x6810, 0x6817, 0x02, 0x02, 1, 1, .cue, 0, (.between 0 2)⟩ /- SOURCE -/,
  ⟨0x6810, 0x6817, 0x03, 0x03, 2, 2, .live, 0, (.between 0 1023)⟩ /- TARGET -/,
  ⟨0x6810, 0x6817, 0x04, 0x04, 4, 4, .live, 65536, (.between 0 65536)⟩ /- DUTY -/,
  ⟨0x6810, 0x6817, 0x05, 0x05, 1, 1, .cue, 12, (.between 8 16)⟩ /- PWM_BITS -/]

def rows109 : List Row := [
  ⟨0x6810, 0x6817, 0x06, 0x06, 2, 2, .cue, 0, .any⟩ /- PWM_PHASE -/,
  ⟨0x6810, 0x6817, 0x07, 0x07, 1, 1, .cue, 3, (.between 1 6)⟩ /- HYST_CODE -/,
  ⟨0x6810, 0x6817, 0x08, 0x08, 2, 2, .stopped, 200, (.between 10 10000)⟩ /- R_SENSE -/,
  ⟨0x6810, 0x6817, 0x09, 0x09, 2, 2, .ro, 0, .any⟩ /- STATUS -/,
  ⟨0x6810, 0x6817, 0x0A, 0x0A, 2, 2, .ro, 0, .any⟩ /- EFF_TARGET -/]

def rows110 : List Row := [
  ⟨0x6810, 0x6817, 0x0B, 0x0B, 2, 2, .ro, 0, .any⟩ /- I_MEAS -/,
  ⟨0x6810, 0x6817, 0x0C, 0x0C, 4, 4, .ro, 0, .any⟩ /- F_SW -/,
  ⟨0x6810, 0x6817, 0x0D, 0x0D, 1, 1, .wo, 0, (.oneOf [1])⟩ /- FAULT_CLEAR -/,
  ⟨0x6810, 0x6817, 0x0E, 0x0E, 4, 4, .ro, 0, .any⟩ /- FAULT_COUNT -/]

/-- The rows of a subindex at indices 0x6810 to 0x6817. -/
def block6810 (sub : Nat) : List Row :=
  if sub < 0x06 then
    rows108
  else
    if sub < 0x0B then
      rows109
    else
      rows110

def rows111 : List Row := [
  ⟨0x6840, 0x6843, 0x01, 0x01, 1, 1, .cue, 0, .any⟩ /- ENG_MASK -/,
  ⟨0x6840, 0x6843, 0x02, 0x02, 1, 1, .cue, 0, (.between 0 1)⟩ /- ENG_START -/,
  ⟨0x6840, 0x6843, 0x03, 0x03, 1, 1, .wo, 0, (.between 0 1)⟩ /- ENG_GO -/,
  ⟨0x6840, 0x6843, 0x04, 0x04, 4, 4, .cue, 0, (.between 0 65536)⟩ /- ENG_INIT_LEVEL -/,
  ⟨0x6840, 0x6843, 0x05, 0x05, 1, 1, .ro, 0, .any⟩ /- ENG_STATE -/]

def rows112 : List Row := [
  ⟨0x6840, 0x6843, 0x06, 0x06, 1, 1, .ro, 0, .any⟩ /- ENG_STEP -/,
  ⟨0x6840, 0x6843, 0x07, 0x07, 12, 12, .ro, 0, .any⟩ /- ENG_STEP_TIME -/,
  ⟨0x6840, 0x6843, 0x08, 0x08, 64, 64, .ro, 0, .any⟩ /- ENG_LEVELS -/,
  ⟨0x6840, 0x6843, 0x09, 0x09, 4, 4, .ro, 0, .any⟩ /- CUE_TIMEOUTS -/]

/-- The rows of a subindex at indices 0x6840 to 0x6843. -/
def block6840 (sub : Nat) : List Row :=
  if sub < 0x06 then
    rows111
  else
    rows112

def rows113 : List Row := [
  ⟨0x6850, 0x6853, 0x01, 0x40, 8, 8, .cue, 7, .any⟩ /- STEP -/]

/-- The rows an object at 0x6000 to 0x6FFF can stand in. -/
def rowsF (idx sub : Nat) : List Row :=
  if idx < 0x6140 then
    if idx < 0x6080 then
      if idx < 0x6040 then
        block6000 sub
      else
        block6040 sub
    else
      if idx < 0x6100 then
        rows97
      else
        if idx < 0x6120 then
          block6100 sub
        else
          block6120 sub
  else
    if idx < 0x6810 then
      if idx < 0x6800 then
        block6140 sub
      else
        rows107
    else
      if idx < 0x6840 then
        block6810 sub
      else
        if idx < 0x6850 then
          block6840 sub
        else
          rows113

/-! Rows of 0x7000 to 0x77FF. -/

def rows114 : List Row := [
  ⟨0x7000, 0x7000, 0x00, 0x00, 1, 1, .stopped, 0, (.between 0 2)⟩ /- ROLE_PREF -/,
  ⟨0x7001, 0x7001, 0x00, 0x00, 1, 1, .ro, 0, .any⟩ /- ROLE_SEL_LEVEL -/,
  ⟨0x7002, 0x7002, 0x01, 0x02, 1, 1, .ro, 0, .any⟩ /- DIE_ROLE -/,
  ⟨0x7003, 0x7003, 0x00, 0x00, 1, 1, .ro, 0, .any⟩ /- LEAD_DIE -/,
  ⟨0x7004, 0x7004, 0x00, 0x00, 4, 4, .ro, 0, .any⟩ /- HANDOVERS -/,
  ⟨0x7005, 0x7005, 0x00, 0x00, 12, 12, .ro, 0, .any⟩ /- LAST_HANDOVER -/]

def rows115 : List Row := [
  ⟨0x7006, 0x7006, 0x01, 0x02, 2, 2, .ro, 0, .any⟩ /- RELINQUISH_CAUSE -/,
  ⟨0x7007, 0x7007, 0x00, 0x00, 1, 1, .live, 1, .bool⟩ /- READMIT_AUTO -/,
  ⟨0x7008, 0x7008, 0x00, 0x00, 4, 4, .live, 100000, (.between 1000 10000000)⟩ /- READMIT_FRAMES -/,
  ⟨0x7009, 0x7009, 0x00, 0x00, 1, 1, .wo, 0, (.oneOf [1])⟩ /- READMIT_REQUEST -/,
  ⟨0x700A, 0x700A, 0x00, 0x00, 1, 1, .ro, 3, .any⟩ /- READMITS_LEFT -/,
  ⟨0x700B, 0x700B, 0x00, 0x00, 1, 1, .wo, 0, (.oneOf [1])⟩ /- ROLE_SWAP_REQUEST -/]

def rows116 : List Row := [
  ⟨0x700C, 0x700C, 0x00, 0x00, 2, 2, .ro, 0, .any⟩ /- DUPLEX_STATUS -/,
  ⟨0x700D, 0x700D, 0x00, 0x00, 4, 4, .ro, 0, .any⟩ /- SHADOW_MATCHED -/,
  ⟨0x7010, 0x7010, 0x00, 0x00, 8, 8, .ro, 0, .any⟩ /- CMP_FRAMES -/,
  ⟨0x7011, 0x7011, 0x00, 0x00, 4, 4, .ro, 0, .any⟩ /- CMP_SKIPPED -/,
  ⟨0x7012, 0x7012, 0x00, 0x00, 4, 4, .ro, 0, .any⟩ /- CMP_MISMATCHES -/,
  ⟨0x7013, 0x7013, 0x00, 0x00, 4, 4, .ro, 0, .any⟩ /- CMP_UNATTRIBUTED -/]

def rows117 : List Row := [
  ⟨0x7020, 0x7021, 0x01, 0x01, 4, 4, .ro, 0, .any⟩ /- GR_ECC_CORRECTED -/,
  ⟨0x7020, 0x7021, 0x02, 0x02, 4, 4, .ro, 0, .any⟩ /- GR_ECC_UNCORRECTED -/,
  ⟨0x7020, 0x7021, 0x03, 0x03, 4, 4, .ro, 0, .any⟩ /- POISON_COUNT -/,
  ⟨0x7020, 0x7021, 0x04, 0x04, 4, 4, .ro, 0, .any⟩ /- MD_ECC_CORRECTED -/,
  ⟨0x7020, 0x7021, 0x05, 0x05, 4, 4, .ro, 0, .any⟩ /- MD_ECC_UNCORRECTED -/]

def rows118 : List Row := [
  ⟨0x7020, 0x7021, 0x06, 0x06, 4, 4, .ro, 0, .any⟩ /- WATCHDOG_RESTARTS -/,
  ⟨0x7020, 0x7021, 0x07, 0x07, 4, 4, .ro, 0, .any⟩ /- PEER_LINK_LOSSES -/,
  ⟨0x7020, 0x7021, 0x08, 0x08, 4, 4, .ro, 0, .any⟩ /- PEER_CRC_ERRORS -/,
  ⟨0x7020, 0x7021, 0x09, 0x09, 1, 1, .ro, 0, .any⟩ /- LINK_STATE -/,
  ⟨0x7020, 0x7021, 0x0A, 0x0D, 4, 4, .ro, 0, .any⟩ /- LINK_MISSES -/]

/-- The rows of a subindex at indices 0x7020 to 0x7021. -/
def block7020 (sub : Nat) : List Row :=
  if sub < 0x06 then
    rows117
  else
    rows118

def rows119 : List Row := [
  ⟨0x7030, 0x7030, 0x00, 0x00, 8, 8, .ro, 0, .any⟩ /- DEDUP_DISCARDED -/,
  ⟨0x7031, 0x7031, 0x00, 0x00, 4, 4, .ro, 0, .any⟩ /- STALE_COUNT -/,
  ⟨0x7032, 0x7032, 0x00, 0x00, 4, 4, .ro, 0, .any⟩ /- DIVERGE_COUNT -/,
  ⟨0x7033, 0x7033, 0x00, 0x00, 32, 32, .ro, 0, .any⟩ /- LAST_DIVERGE -/,
  ⟨0x7100, 0x7100, 0x01, 0x02, 4, 4, .ro, 0, .any⟩ /- QUEUE_FILL -/,
  ⟨0x7101, 0x7101, 0x01, 0x02, 4, 4, .ro, 0, .any⟩ /- QUEUE_PEAK -/]

def rows120 : List Row := [
  ⟨0x7102, 0x7102, 0x01, 0x02, 1, 1, .wo, 0, (.oneOf [1])⟩ /- QUEUE_FLUSH -/,
  ⟨0x7103, 0x7103, 0x01, 0x02, 4, 4, .ro, 0, .any⟩ /- ABORTED_PACKETS -/,
  ⟨0x7104, 0x7104, 0x01, 0x02, 2, 2, .ro, 0, .any⟩ /- GAPS_PENDING -/,
  ⟨0x7105, 0x7105, 0x00, 0x00, 1, 1, .cue, 0, (.between 0 3)⟩ /- CAP_READOUT_PORT -/]

def rows121 : List Row := [
  ⟨0x7110, 0x714F, 0x01, 0x01, 1, 1, .cue, 0, .bool⟩ /- ENABLE -/,
  ⟨0x7110, 0x714F, 0x02, 0x02, 1, 1, .cue, 0, (.between 0 1)⟩ /- KIND -/,
  ⟨0x7110, 0x714F, 0x03, 0x03, 1, 1, .cue, 3, (.between 0 7)⟩ /- PRESET -/,
  ⟨0x7110, 0x714F, 0x04, 0x04, 2, 2, .cue, 32, (.between 1 1024)⟩ /- FRAME_SAMPLES -/,
  ⟨0x7110, 0x714F, 0x05, 0x05, 1, 1, .cue, 4, (.between 0 7)⟩ /- PRIORITY -/]

def rows122 : List Row := [
  ⟨0x7110, 0x714F, 0x06, 0x06, 1, 1, .cue, 0, (.mask 0x1F)⟩ /- UPLINK -/,
  ⟨0x7110, 0x714F, 0x07, 0x07, 4, 4, .cue, 1000, (.between 20 1000000)⟩ /- MAX_AGE -/,
  ⟨0x7110, 0x714F, 0x08, 0x08, 2, 2, .ro, 0, .any⟩ /- MEMBERS -/,
  ⟨0x7110, 0x714F, 0x09, 0x09, 2, 2, .ro, 0, .any⟩ /- FRAME_MAX -/,
  ⟨0x7110, 0x714F, 0x0A, 0x0A, 4, 4, .ro, 0, .any⟩ /- RATE_PLANNED -/]

def rows123 : List Row := [
  ⟨0x7110, 0x714F, 0x0B, 0x0B, 8, 8, .ro, 0, .any⟩ /- NEXT_SEQ -/,
  ⟨0x7110, 0x714F, 0x0C, 0x0C, 8, 8, .ro, 0, .any⟩ /- FRAMES -/,
  ⟨0x7110, 0x714F, 0x0D, 0x0D, 4, 4, .ro, 0, .any⟩ /- GAPS -/,
  ⟨0x7110, 0x714F, 0x0E, 0x0E, 1, 1, .ro, 0, .any⟩ /- STATUS -/]

/-- The rows of a subindex at indices 0x7110 to 0x714F. -/
def block7110 (sub : Nat) : List Row :=
  if sub < 0x06 then
    rows121
  else
    if sub < 0x0B then
      rows122
    else
      rows123

def rows124 : List Row := [
  ⟨0x7150, 0x7150, 0x00, 0x00, 2, 2, .ro, 0, .any⟩ /- HC_RESULT -/,
  ⟨0x7151, 0x7151, 0x00, 0x00, 12, 12, .ro, 0, .any⟩ /- HC_TIME -/,
  ⟨0x7152, 0x7152, 0x00, 0x00, 4, 4, .ro, 0, .any⟩ /- HC_ITEM -/,
  ⟨0x7153, 0x7153, 0x01, 0x08, 4, 4, .ro, 0, .any⟩ /- PORT_LOAD -/,
  ⟨0x7154, 0x7154, 0x01, 0x08, 4, 4, .ro, 0, .any⟩ /- PORT_CAPACITY -/,
  ⟨0x7155, 0x7155, 0x01, 0x02, 4, 4, .ro, 0, .any⟩ /- QUEUE_NEED -/]

def rows125 : List Row := [
  ⟨0x7156, 0x7156, 0x01, 0x02, 4, 4, .ro, 0, .any⟩ /- MEM_LOAD -/,
  ⟨0x7157, 0x7157, 0x00, 0x00, 1, 1, .cue, 90, (.between 10 100)⟩ /- LANE_FILL -/,
  ⟨0x7158, 0x7158, 0x00, 0x00, 4, 4, .cue, 100, (.between 10 1000)⟩ /- QUEUE_HOLDOFF -/,
  ⟨0x7159, 0x7159, 0x00, 0x00, 2, 2, .ro, 0, .any⟩ /- CHANNEL_STREAMS -/,
  ⟨0x715A, 0x715A, 0x00, 0x00, 1, 1, .ro, 0, .any⟩ /- FILTER_LOAD -/]

def rows126 : List Row := [
  ⟨0x7160, 0x7167, 0x01, 0x08, 2, 2, .ro, 0, .any⟩ /- PACKETS_WAITING -/,
  ⟨0x7160, 0x7167, 0x09, 0x09, 4, 4, .ro, 0, .any⟩ /- BYTES_WAITING -/,
  ⟨0x7160, 0x7167, 0x0A, 0x0A, 8, 8, .ro, 0, .any⟩ /- FRAMES_SENT -/,
  ⟨0x7160, 0x7167, 0x0B, 0x0B, 4, 4, .ro, 0, .any⟩ /- FRAMES_DISCARDED -/,
  ⟨0x7160, 0x7167, 0x0C, 0x0C, 1, 1, .ro, 0, .any⟩ /- STATUS -/]

def rows127 : List Row := [
  ⟨0x7180, 0x71FF, 0x01, 0x01, 1, 1, .cue, 0, .bool⟩ /- ENABLE -/,
  ⟨0x7180, 0x71FF, 0x02, 0x02, 2, 2, .cue, 65535, .any⟩ /- SRC_HUB -/,
  ⟨0x7180, 0x71FF, 0x03, 0x03, 1, 1, .cue, 0, (.both (.between 0 63) (.between 0x80 0x8F))⟩ /- SRC_STREAM -/,
  ⟨0x7180, 0x71FF, 0x04, 0x04, 1, 1, .cue, 0, (.mask 0x1F)⟩ /- UPLINK -/,
  ⟨0x7180, 0x71FF, 0x05, 0x05, 1, 1, .cue, 4, (.between 0 7)⟩ /- PRIORITY -/]

def rows128 : List Row := [
  ⟨0x7180, 0x71FF, 0x06, 0x06, 2, 2, .cue, 16384, (.between 68 16384)⟩ /- MAX_FRAME_BYTES -/,
  ⟨0x7180, 0x71FF, 0x07, 0x07, 4, 4, .cue, 1000, (.between 1 62500)⟩ /- FRAME_RATE -/,
  ⟨0x7180, 0x71FF, 0x08, 0x08, 2, 2, .cue, 0, .any⟩ /- CHANNELS -/,
  ⟨0x7180, 0x71FF, 0x09, 0x09, 2, 2, .cue, 10, (.between 1 1000)⟩ /- FWD_TIMEOUT -/,
  ⟨0x7180, 0x71FF, 0x0A, 0x0A, 8, 8, .ro, 0, .any⟩ /- H -/]

def rows129 : List Row := [
  ⟨0x7180, 0x71FF, 0x0B, 0x0B, 8, 8, .ro, 0, .any⟩ /- FORWARDED -/,
  ⟨0x7180, 0x71FF, 0x0C, 0x0C, 4, 4, .ro, 0, .any⟩ /- DISCARDED -/,
  ⟨0x7180, 0x71FF, 0x0D, 0x0D, 4, 4, .ro, 0, .any⟩ /- GAPS_ISSUED -/,
  ⟨0x7180, 0x71FF, 0x0E, 0x0E, 1, 1, .ro, 0, .any⟩ /- STATUS -/]

/-- The rows of a subindex at indices 0x7180 to 0x71FF. -/
def block7180 (sub : Nat) : List Row :=
  if sub < 0x06 then
    rows127
  else
    if sub < 0x0B then
      rows128
    else
      rows129

/-- The rows an object at 0x7000 to 0x77FF can stand in. -/
def rowsG (idx sub : Nat) : List Row :=
  if idx < 0x7102 then
    if idx < 0x700C then
      if idx < 0x7006 then
        rows114
      else
        rows115
    else
      if idx < 0x7020 then
        rows116
      else
        if idx < 0x7030 then
          block7020 sub
        else
          rows119
  else
    if idx < 0x7156 then
      if idx < 0x7110 then
        rows120
      else
        if idx < 0x7150 then
          block7110 sub
        else
          rows124
    else
      if idx < 0x7160 then
        rows125
      else
        if idx < 0x7180 then
          rows126
        else
          block7180 sub

/-! Rows of 0x7800 to 0x7FFF. -/

def rows130 : List Row := [
  ⟨0x7800, 0x7807, 0x01, 0x01, 1, 1, .stopped, 1, (.between 0 1)⟩ /- BASE -/,
  ⟨0x7800, 0x7807, 0x02, 0x02, 1, 1, .stopped, 0, (.between 0 1)⟩ /- PERSONALITY -/,
  ⟨0x7800, 0x7807, 0x03, 0x03, 1, 1, .ro, 0, .any⟩ /- PLL_LOCKED -/,
  ⟨0x7800, 0x7807, 0x04, 0x04, 4, 4, .ro, 0, .any⟩ /- PLL_UNLOCKS -/,
  ⟨0x7808, 0x7808, 0x00, 0x00, 2, 2, .stopped, 200, (.between 50 2000)⟩ /- TRAIN_TIMEOUT -/,
  ⟨0x7809, 0x7809, 0x00, 0x00, 1, 1, .stopped, 64, (.between 1 255)⟩ /- FOM_MIN -/]

def rows131 : List Row := [
  ⟨0x780A, 0x780A, 0x00, 0x00, 1, 1, .live, 96, (.between 1 255)⟩ /- FOM_WARN -/,
  ⟨0x780B, 0x780B, 0x00, 0x00, 2, 2, .live, 100, (.between 10 10000)⟩ /- RETRY_INTERVAL -/,
  ⟨0x780C, 0x780C, 0x00, 0x00, 1, 1, .live, 0, .bool⟩ /- FAR_LOOP_ALLOW -/,
  ⟨0x780D, 0x780D, 0x00, 0x00, 2, 2, .live, 1000, (.between 100 60000)⟩ /- EYE_PERIOD -/]

def rows132 : List Row := [
  ⟨0x7810, 0x781F, 0x01, 0x01, 1, 1, .live, 1, .bool⟩ /- ENABLE -/,
  ⟨0x7810, 0x781F, 0x02, 0x02, 1, 1, .stopped, 1, (.oneOf [1, 2, 4, 8])⟩ /- RATE_DIV -/,
  ⟨0x7810, 0x781F, 0x03, 0x03, 1, 1, .stopped, 8, (.oneOf [1, 2, 4, 8])⟩ /- FALLBACK_DIV -/,
  ⟨0x7810, 0x781F, 0x04, 0x04, 1, 1, .stopped, 0, .bool⟩ /- TX_INVERT -/,
  ⟨0x7810, 0x781F, 0x05, 0x05, 1, 1, .stopped, 0, .bool⟩ /- RX_INVERT -/]

def rows133 : List Row := [
  ⟨0x7810, 0x781F, 0x06, 0x06, 1, 1, .ro, 0, .any⟩ /- STATE -/,
  ⟨0x7810, 0x781F, 0x07, 0x07, 1, 1, .ro, 255, .any⟩ /- RATE -/,
  ⟨0x7810, 0x781F, 0x08, 0x08, 2, 2, .ro, 0, .any⟩ /- STATUS -/,
  ⟨0x7810, 0x781F, 0x09, 0x09, 1, 1, .ro, 0, .any⟩ /- LAST_FAIL -/,
  ⟨0x7810, 0x781F, 0x0A, 0x0A, 4, 4, .ro, 0, .any⟩ /- FAIL_COUNT -/]

def rows134 : List Row := [
  ⟨0x7810, 0x781F, 0x0B, 0x0B, 4, 4, .ro, 0, .any⟩ /- LINK_DOWNS -/,
  ⟨0x7810, 0x781F, 0x0C, 0x0C, 12, 12, .ro, 0, .any⟩ /- ACTIVE_SINCE -/,
  ⟨0x7810, 0x781F, 0x0D, 0x0D, 1, 1, .ro, 0, .any⟩ /- FOM -/,
  ⟨0x7810, 0x781F, 0x0E, 0x0E, 1, 1, .ro, 0, .any⟩ /- EYE_WIDTH -/,
  ⟨0x7810, 0x781F, 0x0F, 0x0F, 2, 2, .ro, 0, .any⟩ /- EYE_HEIGHT -/]

def rows135 : List Row := [
  ⟨0x7810, 0x781F, 0x10, 0x10, 1, 1, .ro, 0, .any⟩ /- CTLE -/,
  ⟨0x7810, 0x781F, 0x11, 0x11, 1, 1, .ro, 0, .any⟩ /- FFE_TX -/,
  ⟨0x7810, 0x781F, 0x12, 0x12, 5, 5, .ro, 0, .any⟩ /- DFE_TAPS -/,
  ⟨0x7810, 0x781F, 0x13, 0x13, 4, 4, .ro, 0, .any⟩ /- BLOCK_ERRORS -/,
  ⟨0x7810, 0x781F, 0x14, 0x14, 8, 8, .ro, 0, .any⟩ /- FRAMES_RX -/]

def rows136 : List Row := [
  ⟨0x7810, 0x781F, 0x15, 0x15, 4, 4, .ro, 0, .any⟩ /- FRAME_CHECK_ERRORS -/,
  ⟨0x7810, 0x781F, 0x16, 0x16, 4, 4, .ro, 0, .any⟩ /- ABORTS_RX -/,
  ⟨0x7810, 0x781F, 0x17, 0x17, 4, 4, .ro, 0, .any⟩ /- MSG_RX -/,
  ⟨0x7810, 0x781F, 0x18, 0x18, 4, 4, .ro, 0, .any⟩ /- MSG_CRC_ERRORS -/,
  ⟨0x7810, 0x781F, 0x19, 0x19, 4, 4, .ro, 0, .any⟩ /- MSG_DROPPED -/]

def rows137 : List Row := [
  ⟨0x7810, 0x781F, 0x1A, 0x1A, 2, 2, .ro, 0, .any⟩ /- PEER_HUB_ID -/,
  ⟨0x7810, 0x781F, 0x1B, 0x1B, 1, 1, .ro, 0, .any⟩ /- PEER_PORT -/,
  ⟨0x7810, 0x781F, 0x1C, 0x1C, 2, 2, .ro, 0, .any⟩ /- PEER_BREV -/,
  ⟨0x7810, 0x781F, 0x1D, 0x1D, 1, 1, .wo, 0, (.oneOf [1])⟩ /- RETRAIN -/,
  ⟨0x7810, 0x781F, 0x1E, 0x1E, 1, 1, .live, 0, (.between 0 2)⟩ /- LPM_REQUEST -/]

def rows138 : List Row := [
  ⟨0x7810, 0x781F, 0x1F, 0x1F, 1, 1, .live, 1, .bool⟩ /- LPM_ALLOW -/,
  ⟨0x7810, 0x781F, 0x20, 0x20, 1, 1, .live, 0, (.between 0 3)⟩ /- LOOPBACK -/,
  ⟨0x7810, 0x781F, 0x21, 0x21, 8, 8, .ro, 0, .any⟩ /- LOOP_BITS -/,
  ⟨0x7810, 0x781F, 0x22, 0x22, 8, 8, .ro, 0, .any⟩ /- LOOP_ERRORS -/,
  ⟨0x7810, 0x781F, 0x23, 0x23, 4, 4, .ro, 0, .any⟩ /- UPLINK_RX_DISCARDED -/]

/-- The rows of a subindex at indices 0x7810 to 0x781F. -/
def block7810 (sub : Nat) : List Row :=
  if sub < 0x10 then
    if sub < 0x06 then
      rows132
    else
      if sub < 0x0B then
        rows133
      else
        rows134
  else
    if sub < 0x1A then
      if sub < 0x15 then
        rows135
      else
        rows136
    else
      if sub < 0x1F then
        rows137
      else
        rows138

def rows139 : List Row := [
  ⟨0x7910, 0x7917, 0x01, 0x01, 1, 1, .stopped, 6, (.oneOf [4, 6])⟩ /- IP_VERSION -/,
  ⟨0x7910, 0x7917, 0x02, 0x02, 8, 8, .ro, 0, .any⟩ /- MAC_ADDRESS -/,
  ⟨0x7910, 0x7917, 0x03, 0x03, 4, 4, .stopped, 0, .any⟩ /- IPV4_ADDRESS -/,
  ⟨0x7910, 0x7917, 0x04, 0x04, 1, 1, .stopped, 24, (.between 1 30)⟩ /- IPV4_PREFIX -/,
  ⟨0x7910, 0x7917, 0x05, 0x05, 4, 4, .stopped, 0, .any⟩ /- IPV4_GATEWAY -/]

def rows140 : List Row := [
  ⟨0x7910, 0x7917, 0x06, 0x06, 16, 16, .stopped, 0, .any⟩ /- IPV6_ADDRESS -/,
  ⟨0x7910, 0x7917, 0x07, 0x07, 1, 1, .stopped, 64, (.between 1 127)⟩ /- IPV6_PREFIX -/,
  ⟨0x7910, 0x7917, 0x08, 0x08, 16, 16, .stopped, 0, .any⟩ /- IPV6_GATEWAY -/,
  ⟨0x7910, 0x7917, 0x09, 0x09, 4, 4, .stopped, 0, .any⟩ /- DEST_IPV4 -/,
  ⟨0x7910, 0x7917, 0x0A, 0x0A, 16, 16, .stopped, 0, .any⟩ /- DEST_IPV6 -/]

def rows141 : List Row := [
  ⟨0x7910, 0x7917, 0x0B, 0x0B, 2, 2, .stopped, 47000, (.between 1 65535)⟩ /- DEST_UDP_PORT -/,
  ⟨0x7910, 0x7917, 0x0C, 0x0C, 2, 2, .stopped, 47000, (.between 1 65535)⟩ /- SRC_UDP_PORT -/,
  ⟨0x7910, 0x7917, 0x0D, 0x0D, 8, 8, .stopped, 0, (.mask 0xFFFFFFFFFFFF)⟩ /- DEST_MAC -/,
  ⟨0x7910, 0x7917, 0x0E, 0x0E, 8, 8, .ro, 0, .any⟩ /- RESOLVED_MAC -/,
  ⟨0x7910, 0x7917, 0x0F, 0x0F, 1, 1, .stopped, 0, (.between 0 10)⟩ /- TX_PRESET -/]

def rows142 : List Row := [
  ⟨0x7910, 0x7917, 0x10, 0x10, 1, 1, .stopped, 64, (.between 1 255)⟩ /- HOP_LIMIT -/,
  ⟨0x7910, 0x7917, 0x11, 0x11, 2, 2, .ro, 64, .any⟩ /- ETH_STATUS -/,
  ⟨0x7910, 0x7917, 0x12, 0x12, 8, 8, .ro, 0, .any⟩ /- TX_DATAGRAMS -/,
  ⟨0x7910, 0x7917, 0x13, 0x13, 4, 4, .ro, 0, .any⟩ /- RX_PTP -/,
  ⟨0x7910, 0x7917, 0x14, 0x14, 4, 4, .ro, 0, .any⟩ /- RX_DISCARDED -/]

def rows143 : List Row := [
  ⟨0x7910, 0x7917, 0x15, 0x15, 4, 4, .ro, 0, .any⟩ /- RX_FCS_ERRORS -/,
  ⟨0x7910, 0x7917, 0x16, 0x16, 4, 4, .ro, 0, .any⟩ /- PAUSE_IGNORED -/,
  ⟨0x7910, 0x7917, 0x17, 0x17, 4, 4, .ro, 0, .any⟩ /- ECHO_ANSWERED -/]

/-- The rows of a subindex at indices 0x7910 to 0x7917. -/
def block7910 (sub : Nat) : List Row :=
  if sub < 0x0B then
    if sub < 0x06 then
      rows139
    else
      rows140
  else
    if sub < 0x10 then
      rows141
    else
      if sub < 0x15 then
        rows142
      else
        rows143

/-- The rows an object at 0x7800 to 0x7FFF can stand in. -/
def rowsH (idx sub : Nat) : List Row :=
  if idx < 0x7810 then
    if idx < 0x780A then
      rows130
    else
      rows131
  else
    if idx < 0x7910 then
      block7810 sub
    else
      block7910 sub

/-! Rows of 0x8000 to 0x9FFF. -/

def rows144 : List Row := [
  ⟨0x8000, 0x8000, 0x00, 0x00, 1, 1, .stopped, 0, (.between 0 1)⟩ /- GR_ARBITRATION -/,
  ⟨0x8001, 0x8001, 0x00, 0x00, 1, 1, .wo, 0, (.oneOf [1])⟩ /- GR_COUNTERS_CLEAR -/,
  ⟨0x8002, 0x8002, 0x00, 0x00, 4, 4, .live, 60, (.between 1 3600)⟩ /- GR_SCRUB_PERIOD -/,
  ⟨0x8003, 0x8003, 0x00, 0x00, 2, 2, .stopped, 24, (.between 1 168)⟩ /- MD_SCRUB_PERIOD -/]

def rows145 : List Row := [
  ⟨0x8010, 0x8011, 0x01, 0x07, 8, 8, .ro, 0, .any⟩ /- CONFLICTS -/,
  ⟨0x8010, 0x8011, 0x08, 0x08, 8, 8, .ro, 0, .any⟩ /- ROTATE_SPLITS -/,
  ⟨0x8010, 0x8011, 0x09, 0x09, 4, 4, .ro, 0, .any⟩ /- SCRUB_PASSES -/,
  ⟨0x8010, 0x8011, 0x0A, 0x11, 4, 4, .ro, 0, .any⟩ /- BANK_ECC_CORRECTED -/,
  ⟨0x8010, 0x8011, 0x12, 0x19, 4, 4, .ro, 0, .any⟩ /- BANK_REPAIR -/]

def rows146 : List Row := [
  ⟨0x8020, 0x8021, 0x01, 0x01, 2, 2, .ro, 0, .any⟩ /- MD_RATE -/,
  ⟨0x8020, 0x8021, 0x02, 0x02, 4, 4, .ro, 0, .any⟩ /- MD_LOAD_PEAK -/,
  ⟨0x8020, 0x8021, 0x03, 0x03, 4, 4, .ro, 0, .any⟩ /- MD_TRACE_WORDS_LOST -/,
  ⟨0x8020, 0x8021, 0x04, 0x04, 4, 4, .ro, 0, .any⟩ /- MD_TABLE_REPAIRS -/,
  ⟨0x8020, 0x8021, 0x05, 0x05, 4, 4, .ro, 0, .any⟩ /- MD_SCRUB_PASSES -/,
  ⟨0x8020, 0x8021, 0x06, 0x06, 12, 12, .ro, 0, .any⟩ /- MD_LAST_SCRUB -/]

def rows147 : List Row := [
  ⟨0x8030, 0x8030, 0x01, 0x10, 4, 4, .ro, 4294967295, .any⟩ /- MD_SLOT_BASE -/,
  ⟨0x8031, 0x8031, 0x00, 0x00, 2, 2, .ro, 3840, .any⟩ /- CAP_LARGEST_HOLE -/,
  ⟨0x8100, 0x8100, 0x00, 0x00, 1, 1, .stopped, 1, .bool⟩ /- MIR_ENABLE -/,
  ⟨0x8101, 0x8101, 0x00, 0x00, 4, 4, .ro, 0, .any⟩ /- MIR_TORN_COUNT -/,
  ⟨0x8102, 0x8102, 0x00, 0x00, 4, 4, .ro, 0, .any⟩ /- MIR_WRITE_IGNORED -/,
  ⟨0x8103, 0x8103, 0x00, 0x00, 8, 8, .ro, 0, .any⟩ /- MIR_READS -/]

def rows148 : List Row := [
  ⟨0x8110, 0x8110, 0x00, 0x00, 992, 992, .ro, 0, .any⟩ /- MIR_FWD_MAP -/,
  ⟨0x8111, 0x8111, 0x00, 0x00, 2, 2, .ro, 0, .any⟩ /- MIR_FWD_SLOTS -/,
  ⟨0x9000, 0x9000, 0x00, 0x00, 4, 4, .ro, 0, .any⟩ /- CB_NEWEST_SEQ -/,
  ⟨0x9001, 0x9001, 0x00, 0x00, 4, 4, .ro, 0, .any⟩ /- CB_OLDEST_SEQ -/,
  ⟨0x9002, 0x9002, 0x00, 0x00, 4, 4, .live, 0, .any⟩ /- CB_READ_SEQ -/,
  ⟨0x9003, 0x9003, 0x00, 0x00, 32, 32, .ro, 0, .any⟩ /- CB_RECORD -/]

def rows149 : List Row := [
  ⟨0x9004, 0x9004, 0x00, 0x00, 1, 1, .live, 2, .any⟩ /- CB_EVENT_THRESHOLD -/,
  ⟨0x9005, 0x9005, 0x00, 0x00, 4, 4, .ro, 0, .any⟩ /- CB_LOST -/,
  ⟨0x9006, 0x9006, 0x00, 0x00, 1, 1, .stopped, 2, .any⟩ /- CB_NVM_THRESHOLD -/,
  ⟨0x9010, 0x9010, 0x01, 0x08, 4, 4, .ro, 0, .any⟩ /- self-test results -/,
  ⟨0x9011, 0x9011, 0x00, 0x00, 12, 12, .ro, 0, .any⟩ /- BIST_TIME -/,
  ⟨0x9020, 0x9020, 0x00, 0x00, 4, 4, .ro, 0, .any⟩ /- FWD_UNDECLARED -/]

def rows150 : List Row := [
  ⟨0x9021, 0x9021, 0x00, 0x00, 4, 4, .ro, 0, .any⟩ /- LATE_AFTER_GAP -/,
  ⟨0x9022, 0x9022, 0x00, 0x00, 4, 4, .ro, 0, .any⟩ /- GAP_SUPERSEDED -/]

/-- The rows an object at 0x8000 to 0x9FFF can stand in. -/
def rowsI (idx _sub : Nat) : List Row :=
  if idx < 0x8030 then
    if idx < 0x8010 then
      rows144
    else
      if idx < 0x8020 then
        rows145
      else
        rows146
  else
    if idx < 0x9004 then
      if idx < 0x8110 then
        rows147
      else
        rows148
    else
      if idx < 0x9021 then
        rows149
      else
        rows150

/-- The rows an object can stand in. -/
def rowsFor (idx sub : Nat) : List Row :=
  if idx < 0x2000 then rowsA idx sub
  else if idx < 0x3000 then rowsB idx sub
  else if idx < 0x4000 then rowsC idx sub
  else if idx < 0x5000 then rowsD idx sub
  else if idx < 0x6000 then rowsE idx sub
  else if idx < 0x7000 then rowsF idx sub
  else if idx < 0x7800 then rowsG idx sub
  else if idx < 0x8000 then rowsH idx sub
  else if idx < 0xA000 then rowsI idx sub
  else []

/-- Does a row hold the object `idx.sub`? -/
def Row.holds (r : Row) (idx sub : Nat) : Bool :=
  r.idxLo ≤ idx && idx ≤ r.idxHi && r.subLo ≤ sub && sub ≤ r.subHi

/-- The row of an object, none where the dictionary defines none. -/
def find (idx sub : Nat) : Option Row := (rowsFor idx sub).find? (fun r => Row.holds r idx sub)

/-- The row of a key. -/
def ofKey (k : Nat) : Option Row := find (k / 256) (k % 256)

/-- The default of a key, 0 where the tables give none. -/
def dflt (k : Nat) : Nat :=
  match ofKey k with
  | some r => if 0x506000 ≤ k ∧ k < 0x508000 ∧ k % 256 = 1 then (k / 256) % 8 else r.dflt
  | none => 0

/-- The length in bytes of a key's value. -/
def len (k : Nat) : Nat :=
  match ofKey k with
  | some r => r.lenHi
  | none => 0

end Catalog

namespace Obj

abbrev partNumber : Nat := 0x100000
abbrev siliconRev : Nat := 0x100100
abbrev serial : Nat := 0x100200
abbrev diePopulation : Nat := 0x100300
abbrev tempGrade : Nat := 0x100400
abbrev brevSelect : Nat := 0x100800
abbrev brevActive : Nat := 0x100900
abbrev brevCount : Nat := 0x100A00
abbrev brevSupported (i : Nat) : Nat := 0x100A01 + i
abbrev ydfCheck : Nat := 0x100C00
abbrev modeRequest : Nat := 0x120000
abbrev mode : Nat := 0x120100
abbrev modeCue : Nat := 0x120200
abbrev modeEntryTime : Nat := 0x120300
abbrev lastTransitionCause : Nat := 0x120400
abbrev bootCount : Nat := 0x120500
abbrev resetCause : Nat := 0x120600
abbrev syncExitLevel : Nat := 0x120700
abbrev syncTimeout : Nat := 0x120800
abbrev safeCause : Nat := 0x120900
abbrev dieState : Nat := 0x120A00
abbrev startupElapsed : Nat := 0x120B00
abbrev vinA : Nat := 0x130000
abbrev vinB : Nat := 0x130100
abbrev vinSelected : Nat := 0x130200
abbrev rail5v0 : Nat := 0x130300
abbrev inputPower : Nat := 0x130400
abbrev powerStatus : Nat := 0x130500
abbrev pfwThreshold : Nat := 0x130600
abbrev tjMax : Nat := 0x130700
abbrev otWarnThreshold : Nat := 0x130800
abbrev cbNewestSeq : Nat := 0x900000
abbrev cbOldestSeq : Nat := 0x900100
abbrev cbReadSeq : Nat := 0x900200
abbrev cbRecord : Nat := 0x900300
abbrev cbEventThreshold : Nat := 0x900400
abbrev cbLost : Nat := 0x900500
abbrev cbNvmThreshold : Nat := 0x900600
abbrev excAvgBudget : Nat := 0x300000
abbrev excAvgPlanned : Nat := 0x300100
abbrev excPeakBudget (i : Nat) : Nat := 0x300201 + i
abbrev excPeakPlanned (i : Nat) : Nat := 0x300301 + i
abbrev staggerAuto : Nat := 0x300400
abbrev excDieCurrent (i : Nat) : Nat := 0x300501 + i
abbrev excMode (d : Nat) : Nat := (0x3040 + d) * 256 + 0x01
abbrev excLevel (d : Nat) : Nat := (0x3040 + d) * 256 + 0x02
abbrev excPulseKind (d : Nat) : Nat := (0x3040 + d) * 256 + 0x03
abbrev excCurrentLimit (d : Nat) : Nat := (0x3040 + d) * 256 + 0x04
abbrev excPulsePreset (d : Nat) : Nat := (0x3040 + d) * 256 + 0x05
abbrev excPulseEvery (d : Nat) : Nat := (0x3040 + d) * 256 + 0x06
abbrev excPulseWidth (d : Nat) : Nat := (0x3040 + d) * 256 + 0x07
abbrev excStagger (d : Nat) : Nat := (0x3040 + d) * 256 + 0x08
abbrev excStatus (d : Nat) : Nat := (0x3040 + d) * 256 + 0x09
abbrev excIMeas (d : Nat) : Nat := (0x3040 + d) * 256 + 0x0A
abbrev excVMeas (d : Nat) : Nat := (0x3040 + d) * 256 + 0x0B
abbrev excFaultClear (d : Nat) : Nat := (0x3040 + d) * 256 + 0x0C
abbrev excFaultCount (d : Nat) : Nat := (0x3040 + d) * 256 + 0x0D
abbrev chRangeMode (n : Nat) : Nat := (0x2000 + n) * 256 + 0x01
abbrev chRangeFixed (n : Nat) : Nat := (0x2000 + n) * 256 + 0x02
abbrev chRangeCoarsest (n : Nat) : Nat := (0x2000 + n) * 256 + 0x03
abbrev chRangeFinest (n : Nat) : Nat := (0x2000 + n) * 256 + 0x04
abbrev chDownCount (n : Nat) : Nat := (0x2000 + n) * 256 + 0x05
abbrev chGated (n : Nat) : Nat := (0x2000 + n) * 256 + 0x06
abbrev chExcSettle (n : Nat) : Nat := (0x2000 + n) * 256 + 0x07
abbrev chExcResync (n : Nat) : Nat := (0x2000 + n) * 256 + 0x08
abbrev chFeStatus (n : Nat) : Nat := (0x2000 + n) * 256 + 0x09
abbrev chRangeChanges (n : Nat) : Nat := (0x2000 + n) * 256 + 0x0A
abbrev chPredictMisses (n : Nat) : Nat := (0x2000 + n) * 256 + 0x0B
abbrev chOverloadEpisodes (n : Nat) : Nat := (0x2000 + n) * 256 + 0x0C
abbrev holdTrim (i : Nat) : Nat := 0x310001 + i
abbrev holdSkew (i : Nat) : Nat := 0x310101 + i
abbrev swingState (i : Nat) : Nat := 0x310201 + i
abbrev swingCore (i : Nat) : Nat := 0x310301 + i
abbrev swingRequest (i : Nat) : Nat := 0x310401 + i
abbrev swingMismatches (i : Nat) : Nat := 0x310501 + i
abbrev retiredCores (i : Nat) : Nat := 0x310601 + i
abbrev swingMatchLsb : Nat := 0x310700
abbrev swingOverlapFrames : Nat := 0x310800
abbrev coreRegOrder (k : Nat) : Nat := (0x3140 + k) * 256 + 0x01
abbrev coreBgCount (k : Nat) : Nat := (0x3140 + k) * 256 + 0x02
abbrev coreBgList (k : Nat) : Nat := (0x3140 + k) * 256 + 0x03
abbrev coreInjSource (k : Nat) : Nat := (0x3140 + k) * 256 + 0x04
abbrev coreInjDelay (k : Nat) : Nat := (0x3140 + k) * 256 + 0x05
abbrev coreInjSoftStart (k : Nat) : Nat := (0x3140 + k) * 256 + 0x06
abbrev coreInjStarts (k : Nat) : Nat := (0x3140 + k) * 256 + 0x07
abbrev coreInjDropped (k : Nat) : Nat := (0x3140 + k) * 256 + 0x08
abbrev coreInjDeferred (k : Nat) : Nat := (0x3140 + k) * 256 + 0x09
abbrev coreInjLastHold (k : Nat) : Nat := (0x3140 + k) * 256 + 0x0A
abbrev coreBgStarveCount (k : Nat) : Nat := (0x3140 + k) * 256 + 0x0B
abbrev coreCoreStatus (k : Nat) : Nat := (0x3140 + k) * 256 + 0x0C
abbrev coreRefLast (k : Nat) : Nat := (0x3140 + k) * 256 + 0x0D
abbrev chInjEligible (n : Nat) : Nat := (0x2000 + n) * 256 + 0x0D
abbrev chDiagPeriod (n : Nat) : Nat := (0x2000 + n) * 256 + 0x0E
abbrev presetRate (i : Nat) : Nat := 0x320001 + i
abbrev presetCicR (i : Nat) : Nat := 0x320101 + i
abbrev resyncRequest : Nat := 0x320300
abbrev resyncTotal : Nat := 0x320400
abbrev firSettingSelect : Nat := 0x321000
abbrev firCoeff : Nat := 0x321100
abbrev chFilterPreset (n : Nat) : Nat := (0x2000 + n) * 256 + 0x0F
abbrev chCicOrder (n : Nat) : Nat := (0x2000 + n) * 256 + 0x10
abbrev chPhaseDelay (n : Nat) : Nat := (0x2000 + n) * 256 + 0x11
abbrev chOutScale (n : Nat) : Nat := (0x2000 + n) * 256 + 0x12
abbrev chGroupDelay (n : Nat) : Nat := (0x2000 + n) * 256 + 0x13
abbrev chSettlingSpan (n : Nat) : Nat := (0x2000 + n) * 256 + 0x14
abbrev chFilterStatus (n : Nat) : Nat := (0x2000 + n) * 256 + 0x15
abbrev chResyncCount (n : Nat) : Nat := (0x2000 + n) * 256 + 0x16
abbrev chOutputClamps (n : Nat) : Nat := (0x2000 + n) * 256 + 0x17
abbrev chLastResync (n : Nat) : Nat := (0x2000 + n) * 256 + 0x18
abbrev detSource (d : Nat) : Nat := (0x3240 + d) * 256 + 0x01
abbrev detType (d : Nat) : Nat := (0x3240 + d) * 256 + 0x02
abbrev detParamA (d : Nat) : Nat := (0x3240 + d) * 256 + 0x03
abbrev detParamB (d : Nat) : Nat := (0x3240 + d) * 256 + 0x04
abbrev detResultA (d : Nat) : Nat := (0x3240 + d) * 256 + 0x05
abbrev detResultB (d : Nat) : Nat := (0x3240 + d) * 256 + 0x06
abbrev detResultTime (d : Nat) : Nat := (0x3240 + d) * 256 + 0x07
abbrev detMaxTime (d : Nat) : Nat := (0x3240 + d) * 256 + 0x08
abbrev detStatus (d : Nat) : Nat := (0x3240 + d) * 256 + 0x09
abbrev detUpdates (d : Nat) : Nat := (0x3240 + d) * 256 + 0x0A
abbrev calKind : Nat := 0x330000
abbrev calRefDeclared : Nat := 0x330100
abbrev calResult : Nat := 0x330200
abbrev calStep : Nat := 0x330300
abbrev calCancel : Nat := 0x330400
abbrev calChannelsFailed : Nat := 0x330500
abbrev calLastForeground : Nat := 0x330600
abbrev calBgEnable : Nat := 0x330800
abbrev calCyclePeriod : Nat := 0x330900
abbrev calDriftLimit : Nat := 0x330A00
abbrev calNvmInterval : Nat := 0x330B00
abbrev calRecordSelect : Nat := 0x332000
abbrev calRecord : Nat := 0x332100
abbrev calRecordImport : Nat := 0x332200
abbrev caldRefValue (f : Nat) : Nat := (0x3310 + f) * 256 + 0x01
abbrev caldRefSource (f : Nat) : Nat := (0x3310 + f) * 256 + 0x02
abbrev caldTraceDeclared (f : Nat) : Nat := (0x3310 + f) * 256 + 0x03
abbrev caldTraceMeasured (f : Nat) : Nat := (0x3310 + f) * 256 + 0x04
abbrev caldTraceSpread (f : Nat) : Nat := (0x3310 + f) * 256 + 0x05
abbrev caldTraceTime (f : Nat) : Nat := (0x3310 + f) * 256 + 0x06
abbrev caldBgRoundStart (f : Nat) : Nat := (0x3310 + f) * 256 + 0x07
abbrev caldSwingConvOffset (f : Nat) : Nat := (0x3310 + f) * 256 + 0x08
abbrev caldSwingConvGain (f : Nat) : Nat := (0x3310 + f) * 256 + 0x09
abbrev caldSwingCalLast (f : Nat) : Nat := (0x3310 + f) * 256 + 0x0A
abbrev calcConvOffset (k : Nat) : Nat := (0x3340 + k) * 256 + 0x01
abbrev calcConvGain (k : Nat) : Nat := (0x3340 + k) * 256 + 0x02
abbrev calcBgCalCount (k : Nat) : Nat := (0x3340 + k) * 256 + 0x03
abbrev calcBgCalLast (k : Nat) : Nat := (0x3340 + k) * 256 + 0x04
abbrev calcDrift (k : Nat) : Nat := (0x3340 + k) * 256 + 0x05
abbrev calcTCal (k : Nat) : Nat := (0x3340 + k) * 256 + 0x06
abbrev calcOffset (k : Nat) (inp : Nat) (r : Nat) : Nat := (0x3340 + k) * 256 + 0x10 * (inp + 1) + 0x0 + 2 * r
abbrev calcGain (k : Nat) (inp : Nat) (r : Nat) : Nat := (0x3340 + k) * 256 + 0x10 * (inp + 1) + 0x1 + 2 * r
abbrev calcBufOffset (k : Nat) (inp : Nat) : Nat := (0x3340 + k) * 256 + 0x10 * (inp + 1) + 0x8
abbrev calcBufGain (k : Nat) (inp : Nat) : Nat := (0x3340 + k) * 256 + 0x10 * (inp + 1) + 0x9
abbrev calcTcGain (k : Nat) (inp : Nat) (r : Nat) : Nat := (0x3340 + k) * 256 + 0x10 * (inp + 1) + 0xA + 1 * r
abbrev calcTcOffset (k : Nat) (inp : Nat) : Nat := (0x3340 + k) * 256 + 0x10 * (inp + 1) + 0xE
abbrev chCalCount (n : Nat) : Nat := (0x2000 + n) * 256 + 0x19
abbrev chCalLast (n : Nat) : Nat := (0x2000 + n) * 256 + 0x1A
abbrev chCalStatus (n : Nat) : Nat := (0x2000 + n) * 256 + 0x1B
abbrev tbNow (b : Nat) : Nat := (0x4000 + b) * 256 + 0x01
abbrev tbState (b : Nat) : Nat := (0x4000 + b) * 256 + 0x02
abbrev tbQuality (b : Nat) : Nat := (0x4000 + b) * 256 + 0x03
abbrev tbSource (b : Nat) : Nat := (0x4000 + b) * 256 + 0x04
abbrev tbSourcePort (b : Nat) : Nat := (0x4000 + b) * 256 + 0x05
abbrev tbIncrement (b : Nat) : Nat := (0x4000 + b) * 256 + 0x06
abbrev tbOffset (b : Nat) : Nat := (0x4000 + b) * 256 + 0x07
abbrev tbJumpThreshold (b : Nat) : Nat := (0x4000 + b) * 256 + 0x08
abbrev tbJumpAccept (b : Nat) : Nat := (0x4000 + b) * 256 + 0x09
abbrev tbSlewLimit (b : Nat) : Nat := (0x4000 + b) * 256 + 0x0A
abbrev tbServoTc (b : Nat) : Nat := (0x4000 + b) * 256 + 0x0B
abbrev tbSteps (b : Nat) : Nat := (0x4000 + b) * 256 + 0x0C
abbrev tbJumpsRefused (b : Nat) : Nat := (0x4000 + b) * 256 + 0x0D
abbrev tbStateSince (b : Nat) : Nat := (0x4000 + b) * 256 + 0x0E
abbrev tbFreqOffset (b : Nat) : Nat := (0x4000 + b) * 256 + 0x0F
abbrev tbSet (b : Nat) : Nat := (0x4000 + b) * 256 + 0x10
abbrev tbStatus (b : Nat) : Nat := (0x4000 + b) * 256 + 0x11
abbrev timeSnapshot : Nat := 0x400800
abbrev xchkMean : Nat := 0x401001
abbrev xchkMax : Nat := 0x401002
abbrev xchkRms : Nat := 0x401003
abbrev xchkValid : Nat := 0x401004
abbrev xchkLimit : Nat := 0x401005
abbrev xchkTime : Nat := 0x401006
abbrev portRole (p : Nat) : Nat := (0x4020 + p) * 256 + 0x01
abbrev portTxLatency (p : Nat) : Nat := (0x4020 + p) * 256 + 0x02
abbrev portRxLatency (p : Nat) : Nat := (0x4020 + p) * 256 + 0x03
abbrev portLinkAsym (p : Nat) : Nat := (0x4020 + p) * 256 + 0x04
abbrev portLinkDelay (p : Nat) : Nat := (0x4020 + p) * 256 + 0x05
abbrev portOffset (p : Nat) : Nat := (0x4020 + p) * 256 + 0x06
abbrev portFreqRatio (p : Nat) : Nat := (0x4020 + p) * 256 + 0x07
abbrev portPeerLevel (p : Nat) : Nat := (0x4020 + p) * 256 + 0x08
abbrev portPeerQuality (p : Nat) : Nat := (0x4020 + p) * 256 + 0x09
abbrev portPeerHubId (p : Nat) : Nat := (0x4020 + p) * 256 + 0x0A
abbrev portExchanges (p : Nat) : Nat := (0x4020 + p) * 256 + 0x0B
abbrev portExchangesFailed (p : Nat) : Nat := (0x4020 + p) * 256 + 0x0C
abbrev cueInstant (c : Nat) : Nat := (0x4100 + c) * 256 + 0x01
abbrev cuePeriod (c : Nat) : Nat := (0x4100 + c) * 256 + 0x02
abbrev cueCount (c : Nat) : Nat := (0x4100 + c) * 256 + 0x03
abbrev cueArm (c : Nat) : Nat := (0x4100 + c) * 256 + 0x04
abbrev cueState (c : Nat) : Nat := (0x4100 + c) * 256 + 0x05
abbrev cueFireCount (c : Nat) : Nat := (0x4100 + c) * 256 + 0x06
abbrev cueLastFire (c : Nat) : Nat := (0x4100 + c) * 256 + 0x07
abbrev cueMissedCount (c : Nat) : Nat := (0x4100 + c) * 256 + 0x08
abbrev ppsInDelay : Nat := 0x420001
abbrev todNext : Nat := 0x420002
abbrev ppsInLast : Nat := 0x420003
abbrev ppsInOffset : Nat := 0x420004
abbrev ppsInEdges : Nat := 0x420005
abbrev ppsInIrregular : Nat := 0x420006
abbrev refclkInFreq : Nat := 0x420007
abbrev refclkInValid : Nat := 0x420008
abbrev ppsOutSource : Nat := 0x421001
abbrev ppsOutCue : Nat := 0x421002
abbrev ppsOutWidth : Nat := 0x421003
abbrev ppsOutDelay : Nat := 0x421004
abbrev ppsOutGate : Nat := 0x421005
abbrev refclkOutFreq : Nat := 0x421101
abbrev refclkOutDelay : Nat := 0x421102
abbrev refclkOutGate : Nat := 0x421103
abbrev ptpDomain : Nat := 0x422001
abbrev ptpState : Nat := 0x422002
abbrev gmIdentity : Nat := 0x422003
abbrev offsetFromMaster : Nat := 0x422004
abbrev meanPathDelay : Nat := 0x422005
abbrev logDelayReqInterval : Nat := 0x422006
abbrev ptpDelayAsymmetry : Nat := 0x422007
abbrev utcOffset : Nat := 0x422008
abbrev seqEnable : Nat := 0x500000
abbrev seqState : Nat := 0x500100
abbrev managerState : Nat := 0x500200
abbrev counter (i : Nat) : Nat := 0x500301 + i
abbrev counterTarget (i : Nat) : Nat := 0x500401 + i
abbrev timerLoad (i : Nat) : Nat := 0x500501 + i
abbrev timerRemain (i : Nat) : Nat := 0x500601 + i
abbrev cueRole : Nat := 0x500800
abbrev join : Nat := 0x500900
abbrev cueFireWidth : Nat := 0x500A00
abbrev cueFireDelay : Nat := 0x500B00
abbrev coincWindow : Nat := 0x500C00
abbrev eventSettle : Nat := 0x500D00
abbrev autoMode : Nat := 0x500E00
abbrev autoTimeout : Nat := 0x500F00
abbrev softTrigger : Nat := 0x501000
abbrev ignoredActions : Nat := 0x501100
abbrev eventCount : Nat := 0x501200
abbrev lastEvent : Nat := 0x501300
abbrev eventHistory (i : Nat) : Nat := 0x501401 + i
abbrev fireInject : Nat := 0x501500
abbrev armInject : Nat := 0x501600
abbrev cmpChannel (m : Nat) : Nat := (0x5060 + m) * 256 + 0x01
abbrev cmpMode (m : Nat) : Nat := (0x5060 + m) * 256 + 0x02
abbrev cmpScale (m : Nat) : Nat := (0x5060 + m) * 256 + 0x03
abbrev cmpThreshHi (m : Nat) : Nat := (0x5060 + m) * 256 + 0x04
abbrev cmpThreshLo (m : Nat) : Nat := (0x5060 + m) * 256 + 0x05
abbrev cmpHyst (m : Nat) : Nat := (0x5060 + m) * 256 + 0x06
abbrev cmpEdges (m : Nat) : Nat := (0x5060 + m) * 256 + 0x07
abbrev cmpStampShared (m : Nat) : Nat := (0x5060 + m) * 256 + 0x08
abbrev cmpLastEdge (m : Nat) : Nat := (0x5060 + m) * 256 + 0x09
abbrev capAreaFree : Nat := 0x510000
abbrev capReadPriority : Nat := 0x510100
abbrev capReadoutRate : Nat := 0x510200
abbrev capReadoutClass : Nat := 0x510300
abbrev capWriteRate : Nat := 0x510400
abbrev slotEnable (s : Nat) : Nat := (0x5110 + s) * 256 + 0x01
abbrev slotKind (s : Nat) : Nat := (0x5110 + s) * 256 + 0x02
abbrev slotChMask (s : Nat) : Nat := (0x5110 + s) * 256 + 0x03
abbrev slotDieMask (s : Nat) : Nat := (0x5110 + s) * 256 + 0x04
abbrev slotSize (s : Nat) : Nat := (0x5110 + s) * 256 + 0x05
abbrev slotPre (s : Nat) : Nat := (0x5110 + s) * 256 + 0x06
abbrev slotPost (s : Nat) : Nat := (0x5110 + s) * 256 + 0x07
abbrev slotAutoReadout (s : Nat) : Nat := (0x5110 + s) * 256 + 0x08
abbrev slotState (s : Nat) : Nat := (0x5110 + s) * 256 + 0x09
abbrev slotCapacity (s : Nat) : Nat := (0x5110 + s) * 256 + 0x0A
abbrev slotRelease (s : Nat) : Nat := (0x5110 + s) * 256 + 0x0B
abbrev slotImageSize (s : Nat) : Nat := (0x5110 + s) * 256 + 0x0C
abbrev slotReadOffset (s : Nat) : Nat := (0x5110 + s) * 256 + 0x0D
abbrev slotData (s : Nat) : Nat := (0x5110 + s) * 256 + 0x0E
abbrev slotReadoutStart (s : Nat) : Nat := (0x5110 + s) * 256 + 0x0F
abbrev slotHeader (s : Nat) : Nat := (0x5110 + s) * 256 + 0x10
abbrev ctrlLoadAvg : Nat := 0x608000
abbrev ctrlPeakLoad : Nat := 0x608100
abbrev ctrlPeakExact : Nat := 0x608200
abbrev ctrlPeakStrict : Nat := 0x608300
abbrev frameLoadMax : Nat := 0x608400
abbrev overrunsTotal : Nat := 0x608500
abbrev loopEnable (l : Nat) : Nat := (0x6000 + l) * 256 + 0x01
abbrev loopLoopMode (l : Nat) : Nat := (0x6000 + l) * 256 + 0x02
abbrev loopLoopState (l : Nat) : Nat := (0x6000 + l) * 256 + 0x03
abbrev loopCycle (l : Nat) : Nat := (0x6000 + l) * 256 + 0x04
abbrev loopPhase (l : Nat) : Nat := (0x6000 + l) * 256 + 0x05
abbrev loopPriority (l : Nat) : Nat := (0x6000 + l) * 256 + 0x06
abbrev loopMeasure (l : Nat) : Nat := (0x6000 + l) * 256 + 0x07
abbrev loopInputPolicy (l : Nat) : Nat := (0x6000 + l) * 256 + 0x08
abbrev loopSuspectLimit (l : Nat) : Nat := (0x6000 + l) * 256 + 0x09
abbrev loopLaw (l : Nat) : Nat := (0x6000 + l) * 256 + 0x0A
abbrev loopSetpoint (l : Nat) : Nat := (0x6000 + l) * 256 + 0x0B
abbrev loopBandUpper (l : Nat) : Nat := (0x6000 + l) * 256 + 0x0C
abbrev loopBandLower (l : Nat) : Nat := (0x6000 + l) * 256 + 0x0D
abbrev loopMinOn (l : Nat) : Nat := (0x6000 + l) * 256 + 0x0E
abbrev loopMinOff (l : Nat) : Nat := (0x6000 + l) * 256 + 0x0F
abbrev loopMaxSwitches (l : Nat) : Nat := (0x6000 + l) * 256 + 0x10
abbrev loopRateWindow (l : Nat) : Nat := (0x6000 + l) * 256 + 0x11
abbrev loopOutputKind (l : Nat) : Nat := (0x6000 + l) * 256 + 0x12
abbrev loopOutputA (l : Nat) : Nat := (0x6000 + l) * 256 + 0x13
abbrev loopOutputB (l : Nat) : Nat := (0x6000 + l) * 256 + 0x14
abbrev loopLevelValues (l : Nat) : Nat := (0x6000 + l) * 256 + 0x15
abbrev loopSafeTarget (l : Nat) : Nat := (0x6000 + l) * 256 + 0x16
abbrev loopManualOutput (l : Nat) : Nat := (0x6000 + l) * 256 + 0x17
abbrev loopOverrunLimit (l : Nat) : Nat := (0x6000 + l) * 256 + 0x18
abbrev loopVelWindow (l : Nat) : Nat := (0x6000 + l) * 256 + 0x19
abbrev loopTuneBase (l : Nat) : Nat := (0x6000 + l) * 256 + 0x1A
abbrev loopPv (l : Nat) : Nat := (0x6000 + l) * 256 + 0x1B
abbrev loopPvVel (l : Nat) : Nat := (0x6000 + l) * 256 + 0x1C
abbrev loopSpEff (l : Nat) : Nat := (0x6000 + l) * 256 + 0x1D
abbrev loopLevel (l : Nat) : Nat := (0x6000 + l) * 256 + 0x1E
abbrev loopOutput (l : Nat) : Nat := (0x6000 + l) * 256 + 0x1F
abbrev loopStatus (l : Nat) : Nat := (0x6000 + l) * 256 + 0x20
abbrev loopOverruns (l : Nat) : Nat := (0x6000 + l) * 256 + 0x21
abbrev loopConsecOverruns (l : Nat) : Nat := (0x6000 + l) * 256 + 0x22
abbrev loopSwitches (l : Nat) : Nat := (0x6000 + l) * 256 + 0x23
abbrev loopDeferred (l : Nat) : Nat := (0x6000 + l) * 256 + 0x24
abbrev loopSuspectCycles (l : Nat) : Nat := (0x6000 + l) * 256 + 0x25
abbrev loopSafeCause (l : Nat) : Nat := (0x6000 + l) * 256 + 0x26
abbrev loopLastCycle (l : Nat) : Nat := (0x6000 + l) * 256 + 0x27
abbrev loopCycleSnapshot (l : Nat) : Nat := (0x6000 + l) * 256 + 0x28
abbrev ctlSource (o : Nat) : Nat := (0x6040 + o) * 256 + 0x01
abbrev ctlHostLevel (o : Nat) : Nat := (0x6040 + o) * 256 + 0x02
abbrev ctlSafeLevel (o : Nat) : Nat := (0x6040 + o) * 256 + 0x03
abbrev ctlPolarity (o : Nat) : Nat := (0x6040 + o) * 256 + 0x04
abbrev ctlCue (o : Nat) : Nat := (0x6040 + o) * 256 + 0x05
abbrev ctlCueAction (o : Nat) : Nat := (0x6040 + o) * 256 + 0x06
abbrev ctlPulseWidth (o : Nat) : Nat := (0x6040 + o) * 256 + 0x07
abbrev ctlStatus (o : Nat) : Nat := (0x6040 + o) * 256 + 0x08
abbrev ctlEdges (o : Nat) : Nat := (0x6040 + o) * 256 + 0x09
abbrev ctlFaultClear (o : Nat) : Nat := (0x6040 + o) * 256 + 0x0A
abbrev genGenEnable (l : Nat) : Nat := (0x6100 + l) * 256 + 0x01
abbrev genTarget (l : Nat) : Nat := (0x6100 + l) * 256 + 0x02
abbrev genVMax (l : Nat) : Nat := (0x6100 + l) * 256 + 0x03
abbrev genAMax (l : Nat) : Nat := (0x6100 + l) * 256 + 0x04
abbrev genJMax (l : Nat) : Nat := (0x6100 + l) * 256 + 0x05
abbrev genGenPos (l : Nat) : Nat := (0x6100 + l) * 256 + 0x06
abbrev genGenVel (l : Nat) : Nat := (0x6100 + l) * 256 + 0x07
abbrev genGenAcc (l : Nat) : Nat := (0x6100 + l) * 256 + 0x08
abbrev genArrivals (l : Nat) : Nat := (0x6100 + l) * 256 + 0x09
abbrev genLastSnap (l : Nat) : Nat := (0x6100 + l) * 256 + 0x0A
abbrev injInjKind (l : Nat) : Nat := (0x6120 + l) * 256 + 0x01
abbrev injInjPoint (l : Nat) : Nat := (0x6120 + l) * 256 + 0x02
abbrev injInjAmplitude (l : Nat) : Nat := (0x6120 + l) * 256 + 0x03
abbrev injInjStart (l : Nat) : Nat := (0x6120 + l) * 256 + 0x04
abbrev injInjCue (l : Nat) : Nat := (0x6120 + l) * 256 + 0x05
abbrev injInjGo (l : Nat) : Nat := (0x6120 + l) * 256 + 0x06
abbrev injInjDuration (l : Nat) : Nat := (0x6120 + l) * 256 + 0x07
abbrev injSquareHalf (l : Nat) : Nat := (0x6120 + l) * 256 + 0x08
abbrev injPrbsN (l : Nat) : Nat := (0x6120 + l) * 256 + 0x09
abbrev injPrbsHold (l : Nat) : Nat := (0x6120 + l) * 256 + 0x0A
abbrev injSineFStart (l : Nat) : Nat := (0x6120 + l) * 256 + 0x0B
abbrev injSineFEnd (l : Nat) : Nat := (0x6120 + l) * 256 + 0x0C
abbrev injSineSweep (l : Nat) : Nat := (0x6120 + l) * 256 + 0x0D
abbrev injInjState (l : Nat) : Nat := (0x6120 + l) * 256 + 0x0E
abbrev injInjValue (l : Nat) : Nat := (0x6120 + l) * 256 + 0x0F
abbrev injInjIndex (l : Nat) : Nat := (0x6120 + l) * 256 + 0x10
abbrev injInjStartTime (l : Nat) : Nat := (0x6120 + l) * 256 + 0x11
abbrev traceTraceLoop (b : Nat) : Nat := (0x6140 + b) * 256 + 0x01
abbrev traceTraceNode (b : Nat) : Nat := (0x6140 + b) * 256 + 0x02
abbrev traceTraceShift (b : Nat) : Nat := (0x6140 + b) * 256 + 0x03
abbrev traceTraceDecimate (b : Nat) : Nat := (0x6140 + b) * 256 + 0x04
abbrev traceTraceStart (b : Nat) : Nat := (0x6140 + b) * 256 + 0x05
abbrev traceTraceCue (b : Nat) : Nat := (0x6140 + b) * 256 + 0x06
abbrev traceTraceGo (b : Nat) : Nat := (0x6140 + b) * 256 + 0x07
abbrev traceTraceMode (b : Nat) : Nat := (0x6140 + b) * 256 + 0x08
abbrev traceTraceLength (b : Nat) : Nat := (0x6140 + b) * 256 + 0x09
abbrev traceTraceState (b : Nat) : Nat := (0x6140 + b) * 256 + 0x0A
abbrev traceTraceCount (b : Nat) : Nat := (0x6140 + b) * 256 + 0x0B
abbrev traceTraceStartTime (b : Nat) : Nat := (0x6140 + b) * 256 + 0x0C
abbrev traceTraceReadOffset (b : Nat) : Nat := (0x6140 + b) * 256 + 0x0D
abbrev traceTraceData (b : Nat) : Nat := (0x6140 + b) * 256 + 0x0E
abbrev traceTraceOverruns (b : Nat) : Nat := (0x6140 + b) * 256 + 0x0F
abbrev flEnable (s : Nat) : Nat := (0x6810 + s) * 256 + 0x01
abbrev flSource (s : Nat) : Nat := (0x6810 + s) * 256 + 0x02
abbrev flTarget (s : Nat) : Nat := (0x6810 + s) * 256 + 0x03
abbrev flDuty (s : Nat) : Nat := (0x6810 + s) * 256 + 0x04
abbrev flPwmBits (s : Nat) : Nat := (0x6810 + s) * 256 + 0x05
abbrev flPwmPhase (s : Nat) : Nat := (0x6810 + s) * 256 + 0x06
abbrev flHystCode (s : Nat) : Nat := (0x6810 + s) * 256 + 0x07
abbrev flRSense (s : Nat) : Nat := (0x6810 + s) * 256 + 0x08
abbrev flStatus (s : Nat) : Nat := (0x6810 + s) * 256 + 0x09
abbrev flEffTarget (s : Nat) : Nat := (0x6810 + s) * 256 + 0x0A
abbrev flIMeas (s : Nat) : Nat := (0x6810 + s) * 256 + 0x0B
abbrev flFSw (s : Nat) : Nat := (0x6810 + s) * 256 + 0x0C
abbrev flFaultClear (s : Nat) : Nat := (0x6810 + s) * 256 + 0x0D
abbrev flFaultCount (s : Nat) : Nat := (0x6810 + s) * 256 + 0x0E
abbrev engEngMask (g : Nat) : Nat := (0x6840 + g) * 256 + 0x01
abbrev engEngStart (g : Nat) : Nat := (0x6840 + g) * 256 + 0x02
abbrev engEngGo (g : Nat) : Nat := (0x6840 + g) * 256 + 0x03
abbrev engEngInitLevel (g : Nat) : Nat := (0x6840 + g) * 256 + 0x04
abbrev engEngState (g : Nat) : Nat := (0x6840 + g) * 256 + 0x05
abbrev engEngStep (g : Nat) : Nat := (0x6840 + g) * 256 + 0x06
abbrev engEngStepTime (g : Nat) : Nat := (0x6840 + g) * 256 + 0x07
abbrev engEngLevels (g : Nat) : Nat := (0x6840 + g) * 256 + 0x08
abbrev engCueTimeouts (g : Nat) : Nat := (0x6840 + g) * 256 + 0x09
abbrev engStep (g : Nat) (i : Nat) : Nat := (0x6850 + g) * 256 + 0x01 + i
abbrev rolePref : Nat := 0x700000
abbrev roleSelLevel : Nat := 0x700100
abbrev dieRole (i : Nat) : Nat := 0x700201 + i
abbrev leadDie : Nat := 0x700300
abbrev handovers : Nat := 0x700400
abbrev lastHandover : Nat := 0x700500
abbrev relinquishCause (i : Nat) : Nat := 0x700601 + i
abbrev readmitAuto : Nat := 0x700700
abbrev readmitFrames : Nat := 0x700800
abbrev readmitRequest : Nat := 0x700900
abbrev readmitsLeft : Nat := 0x700A00
abbrev roleSwapRequest : Nat := 0x700B00
abbrev duplexStatus : Nat := 0x700C00
abbrev shadowMatched : Nat := 0x700D00
abbrev cmpFrames : Nat := 0x701000
abbrev cmpSkipped : Nat := 0x701100
abbrev cmpMismatches : Nat := 0x701200
abbrev cmpUnattributed : Nat := 0x701300
abbrev dedupDiscarded : Nat := 0x703000
abbrev staleCount : Nat := 0x703100
abbrev divergeCount : Nat := 0x703200
abbrev lastDiverge : Nat := 0x703300
abbrev hdGrEccCorrected (x : Nat) : Nat := (0x7020 + x) * 256 + 0x01
abbrev hdGrEccUncorrected (x : Nat) : Nat := (0x7020 + x) * 256 + 0x02
abbrev hdPoisonCount (x : Nat) : Nat := (0x7020 + x) * 256 + 0x03
abbrev hdMdEccCorrected (x : Nat) : Nat := (0x7020 + x) * 256 + 0x04
abbrev hdMdEccUncorrected (x : Nat) : Nat := (0x7020 + x) * 256 + 0x05
abbrev hdWatchdogRestarts (x : Nat) : Nat := (0x7020 + x) * 256 + 0x06
abbrev hdPeerLinkLosses (x : Nat) : Nat := (0x7020 + x) * 256 + 0x07
abbrev hdPeerCrcErrors (x : Nat) : Nat := (0x7020 + x) * 256 + 0x08
abbrev hdLinkState (x : Nat) : Nat := (0x7020 + x) * 256 + 0x09
abbrev hdLinkMisses (x : Nat) (i : Nat) : Nat := (0x7020 + x) * 256 + 0x0A + i
abbrev chStream (n : Nat) : Nat := (0x2000 + n) * 256 + 0x1C
abbrev chRecStream (n : Nat) : Nat := (0x2000 + n) * 256 + 0x1D
abbrev chUserTag (n : Nat) : Nat := (0x2000 + n) * 256 + 0x1E
abbrev chSrcHub (n : Nat) : Nat := (0x2000 + n) * 256 + 0x20
abbrev chSrcChannel (n : Nat) : Nat := (0x2000 + n) * 256 + 0x21
abbrev chFwdEntry (n : Nat) : Nat := (0x2000 + n) * 256 + 0x22
abbrev chUnpack (n : Nat) : Nat := (0x2000 + n) * 256 + 0x23
abbrev chCacheState (n : Nat) : Nat := (0x2000 + n) * 256 + 0x24
abbrev queueFill (i : Nat) : Nat := 0x710001 + i
abbrev queuePeak (i : Nat) : Nat := 0x710101 + i
abbrev queueFlush (i : Nat) : Nat := 0x710201 + i
abbrev abortedPackets (i : Nat) : Nat := 0x710301 + i
abbrev gapsPending (i : Nat) : Nat := 0x710401 + i
abbrev capReadoutPort : Nat := 0x710500
abbrev hcResult : Nat := 0x715000
abbrev hcTime : Nat := 0x715100
abbrev hcItem : Nat := 0x715200
abbrev portLoad (i : Nat) : Nat := 0x715301 + i
abbrev portCapacity (i : Nat) : Nat := 0x715401 + i
abbrev queueNeed (i : Nat) : Nat := 0x715501 + i
abbrev memLoad (i : Nat) : Nat := 0x715601 + i
abbrev laneFill : Nat := 0x715700
abbrev queueHoldoff : Nat := 0x715800
abbrev channelStreams : Nat := 0x715900
abbrev filterLoad : Nat := 0x715A00
abbrev stEnable (q : Nat) : Nat := (0x7110 + q) * 256 + 0x01
abbrev stKind (q : Nat) : Nat := (0x7110 + q) * 256 + 0x02
abbrev stPreset (q : Nat) : Nat := (0x7110 + q) * 256 + 0x03
abbrev stFrameSamples (q : Nat) : Nat := (0x7110 + q) * 256 + 0x04
abbrev stPriority (q : Nat) : Nat := (0x7110 + q) * 256 + 0x05
abbrev stUplink (q : Nat) : Nat := (0x7110 + q) * 256 + 0x06
abbrev stMaxAge (q : Nat) : Nat := (0x7110 + q) * 256 + 0x07
abbrev stMembers (q : Nat) : Nat := (0x7110 + q) * 256 + 0x08
abbrev stFrameMax (q : Nat) : Nat := (0x7110 + q) * 256 + 0x09
abbrev stRatePlanned (q : Nat) : Nat := (0x7110 + q) * 256 + 0x0A
abbrev stNextSeq (q : Nat) : Nat := (0x7110 + q) * 256 + 0x0B
abbrev stFrames (q : Nat) : Nat := (0x7110 + q) * 256 + 0x0C
abbrev stGaps (q : Nat) : Nat := (0x7110 + q) * 256 + 0x0D
abbrev stStatus (q : Nat) : Nat := (0x7110 + q) * 256 + 0x0E
abbrev pqPacketsWaiting (u : Nat) (i : Nat) : Nat := (0x7160 + u) * 256 + 0x01 + i
abbrev pqBytesWaiting (u : Nat) : Nat := (0x7160 + u) * 256 + 0x09
abbrev pqFramesSent (u : Nat) : Nat := (0x7160 + u) * 256 + 0x0A
abbrev pqFramesDiscarded (u : Nat) : Nat := (0x7160 + u) * 256 + 0x0B
abbrev pqStatus (u : Nat) : Nat := (0x7160 + u) * 256 + 0x0C
abbrev fwdEnable (j : Nat) : Nat := (0x7180 + j) * 256 + 0x01
abbrev fwdSrcHub (j : Nat) : Nat := (0x7180 + j) * 256 + 0x02
abbrev fwdSrcStream (j : Nat) : Nat := (0x7180 + j) * 256 + 0x03
abbrev fwdUplink (j : Nat) : Nat := (0x7180 + j) * 256 + 0x04
abbrev fwdPriority (j : Nat) : Nat := (0x7180 + j) * 256 + 0x05
abbrev fwdMaxFrameBytes (j : Nat) : Nat := (0x7180 + j) * 256 + 0x06
abbrev fwdFrameRate (j : Nat) : Nat := (0x7180 + j) * 256 + 0x07
abbrev fwdChannels (j : Nat) : Nat := (0x7180 + j) * 256 + 0x08
abbrev fwdFwdTimeout (j : Nat) : Nat := (0x7180 + j) * 256 + 0x09
abbrev fwdH (j : Nat) : Nat := (0x7180 + j) * 256 + 0x0A
abbrev fwdForwarded (j : Nat) : Nat := (0x7180 + j) * 256 + 0x0B
abbrev fwdDiscarded (j : Nat) : Nat := (0x7180 + j) * 256 + 0x0C
abbrev fwdGapsIssued (j : Nat) : Nat := (0x7180 + j) * 256 + 0x0D
abbrev fwdStatus (j : Nat) : Nat := (0x7180 + j) * 256 + 0x0E
abbrev pairBase (p : Nat) : Nat := (0x7800 + p) * 256 + 0x01
abbrev pairPersonality (p : Nat) : Nat := (0x7800 + p) * 256 + 0x02
abbrev pairPllLocked (p : Nat) : Nat := (0x7800 + p) * 256 + 0x03
abbrev pairPllUnlocks (p : Nat) : Nat := (0x7800 + p) * 256 + 0x04
abbrev trainTimeout : Nat := 0x780800
abbrev fomMin : Nat := 0x780900
abbrev fomWarn : Nat := 0x780A00
abbrev retryInterval : Nat := 0x780B00
abbrev farLoopAllow : Nat := 0x780C00
abbrev eyePeriod : Nat := 0x780D00
abbrev laneEnable (l : Nat) : Nat := (0x7810 + l) * 256 + 0x01
abbrev laneRateDiv (l : Nat) : Nat := (0x7810 + l) * 256 + 0x02
abbrev laneFallbackDiv (l : Nat) : Nat := (0x7810 + l) * 256 + 0x03
abbrev laneTxInvert (l : Nat) : Nat := (0x7810 + l) * 256 + 0x04
abbrev laneRxInvert (l : Nat) : Nat := (0x7810 + l) * 256 + 0x05
abbrev laneState (l : Nat) : Nat := (0x7810 + l) * 256 + 0x06
abbrev laneRate (l : Nat) : Nat := (0x7810 + l) * 256 + 0x07
abbrev laneStatus (l : Nat) : Nat := (0x7810 + l) * 256 + 0x08
abbrev laneLastFail (l : Nat) : Nat := (0x7810 + l) * 256 + 0x09
abbrev laneFailCount (l : Nat) : Nat := (0x7810 + l) * 256 + 0x0A
abbrev laneLinkDowns (l : Nat) : Nat := (0x7810 + l) * 256 + 0x0B
abbrev laneActiveSince (l : Nat) : Nat := (0x7810 + l) * 256 + 0x0C
abbrev laneFom (l : Nat) : Nat := (0x7810 + l) * 256 + 0x0D
abbrev laneEyeWidth (l : Nat) : Nat := (0x7810 + l) * 256 + 0x0E
abbrev laneEyeHeight (l : Nat) : Nat := (0x7810 + l) * 256 + 0x0F
abbrev laneCtle (l : Nat) : Nat := (0x7810 + l) * 256 + 0x10
abbrev laneFfeTx (l : Nat) : Nat := (0x7810 + l) * 256 + 0x11
abbrev laneDfeTaps (l : Nat) : Nat := (0x7810 + l) * 256 + 0x12
abbrev laneBlockErrors (l : Nat) : Nat := (0x7810 + l) * 256 + 0x13
abbrev laneFramesRx (l : Nat) : Nat := (0x7810 + l) * 256 + 0x14
abbrev laneFrameCheckErrors (l : Nat) : Nat := (0x7810 + l) * 256 + 0x15
abbrev laneAbortsRx (l : Nat) : Nat := (0x7810 + l) * 256 + 0x16
abbrev laneMsgRx (l : Nat) : Nat := (0x7810 + l) * 256 + 0x17
abbrev laneMsgCrcErrors (l : Nat) : Nat := (0x7810 + l) * 256 + 0x18
abbrev laneMsgDropped (l : Nat) : Nat := (0x7810 + l) * 256 + 0x19
abbrev lanePeerHubId (l : Nat) : Nat := (0x7810 + l) * 256 + 0x1A
abbrev lanePeerPort (l : Nat) : Nat := (0x7810 + l) * 256 + 0x1B
abbrev lanePeerBrev (l : Nat) : Nat := (0x7810 + l) * 256 + 0x1C
abbrev laneRetrain (l : Nat) : Nat := (0x7810 + l) * 256 + 0x1D
abbrev laneLpmRequest (l : Nat) : Nat := (0x7810 + l) * 256 + 0x1E
abbrev laneLpmAllow (l : Nat) : Nat := (0x7810 + l) * 256 + 0x1F
abbrev laneLoopback (l : Nat) : Nat := (0x7810 + l) * 256 + 0x20
abbrev laneLoopBits (l : Nat) : Nat := (0x7810 + l) * 256 + 0x21
abbrev laneLoopErrors (l : Nat) : Nat := (0x7810 + l) * 256 + 0x22
abbrev laneUplinkRxDiscarded (l : Nat) : Nat := (0x7810 + l) * 256 + 0x23
abbrev ethIpVersion (u : Nat) : Nat := (0x7910 + u) * 256 + 0x01
abbrev ethMacAddress (u : Nat) : Nat := (0x7910 + u) * 256 + 0x02
abbrev ethIpv4Address (u : Nat) : Nat := (0x7910 + u) * 256 + 0x03
abbrev ethIpv4Prefix (u : Nat) : Nat := (0x7910 + u) * 256 + 0x04
abbrev ethIpv4Gateway (u : Nat) : Nat := (0x7910 + u) * 256 + 0x05
abbrev ethIpv6Address (u : Nat) : Nat := (0x7910 + u) * 256 + 0x06
abbrev ethIpv6Prefix (u : Nat) : Nat := (0x7910 + u) * 256 + 0x07
abbrev ethIpv6Gateway (u : Nat) : Nat := (0x7910 + u) * 256 + 0x08
abbrev ethDestIpv4 (u : Nat) : Nat := (0x7910 + u) * 256 + 0x09
abbrev ethDestIpv6 (u : Nat) : Nat := (0x7910 + u) * 256 + 0x0A
abbrev ethDestUdpPort (u : Nat) : Nat := (0x7910 + u) * 256 + 0x0B
abbrev ethSrcUdpPort (u : Nat) : Nat := (0x7910 + u) * 256 + 0x0C
abbrev ethDestMac (u : Nat) : Nat := (0x7910 + u) * 256 + 0x0D
abbrev ethResolvedMac (u : Nat) : Nat := (0x7910 + u) * 256 + 0x0E
abbrev ethTxPreset (u : Nat) : Nat := (0x7910 + u) * 256 + 0x0F
abbrev ethHopLimit (u : Nat) : Nat := (0x7910 + u) * 256 + 0x10
abbrev ethEthStatus (u : Nat) : Nat := (0x7910 + u) * 256 + 0x11
abbrev ethTxDatagrams (u : Nat) : Nat := (0x7910 + u) * 256 + 0x12
abbrev ethRxPtp (u : Nat) : Nat := (0x7910 + u) * 256 + 0x13
abbrev ethRxDiscarded (u : Nat) : Nat := (0x7910 + u) * 256 + 0x14
abbrev ethRxFcsErrors (u : Nat) : Nat := (0x7910 + u) * 256 + 0x15
abbrev ethPauseIgnored (u : Nat) : Nat := (0x7910 + u) * 256 + 0x16
abbrev ethEchoAnswered (u : Nat) : Nat := (0x7910 + u) * 256 + 0x17
abbrev hubId : Nat := 0x101000
abbrev hubIdActive : Nat := 0x101100
abbrev fwRunningSlot (i : Nat) : Nat := 0x101801 + i
abbrev fwBootSlot (i : Nat) : Nat := 0x101901 + i
abbrev fwTargetSlot : Nat := 0x101A00
abbrev fwErase : Nat := 0x101B00
abbrev fwOffset : Nat := 0x101C00
abbrev fwData : Nat := 0x101D00
abbrev fwVerify : Nat := 0x101E00
abbrev fwSlotInfo (i : Nat) : Nat := 0x101F01 + i
abbrev fwKeyHash : Nat := 0x102000
abbrev nodeId (i : Nat) : Nat := 0x110001 + i
abbrev canEnable (i : Nat) : Nat := 0x110101 + i
abbrev canNominalRate (i : Nat) : Nat := 0x110201 + i
abbrev canDataRate (i : Nat) : Nat := 0x110301 + i
abbrev canStatus (i : Nat) : Nat := 0x110401 + i
abbrev canBusOffCount (i : Nat) : Nat := 0x110501 + i
abbrev canIgnored (i : Nat) : Nat := 0x110601 + i
abbrev heartbeatPeriod : Nat := 0x110700
abbrev eventTunnelEnable : Nat := 0x110800
abbrev eventTunnelDest : Nat := 0x110900
abbrev mailboxEnable : Nat := 0x110A00
abbrev commitMinLead : Nat := 0x110B00
abbrev commitState : Nat := 0x110C00
abbrev commitId : Nat := 0x110D00
abbrev commitCue : Nat := 0x110E00
abbrev stagedEntries : Nat := 0x110F00
abbrev stageClear : Nat := 0x111000
abbrev lastCommit : Nat := 0x111100
abbrev configSave : Nat := 0x111200
abbrev configSavedTime : Nat := 0x111300
abbrev requests : Nat := 0x111400
abbrev abortsSent : Nat := 0x111500
abbrev duplicateRequests : Nat := 0x111600
abbrev grArbitration : Nat := 0x800000
abbrev grCountersClear : Nat := 0x800100
abbrev grScrubPeriod : Nat := 0x800200
abbrev mdScrubPeriod : Nat := 0x800300
abbrev conflicts (x : Nat) (i : Nat) : Nat := (0x8010 + x) * 256 + 0x01 + i
abbrev rotateSplits (x : Nat) : Nat := (0x8010 + x) * 256 + 0x08
abbrev scrubPasses (x : Nat) : Nat := (0x8010 + x) * 256 + 0x09
abbrev bankEccCorrected (x : Nat) (i : Nat) : Nat := (0x8010 + x) * 256 + 0x0A + i
abbrev bankRepair (x : Nat) (i : Nat) : Nat := (0x8010 + x) * 256 + 0x12 + i
abbrev mdRate (m : Nat) : Nat := (0x8020 + m) * 256 + 0x01
abbrev mdLoadPeak (m : Nat) : Nat := (0x8020 + m) * 256 + 0x02
abbrev mdTraceWordsLost (m : Nat) : Nat := (0x8020 + m) * 256 + 0x03
abbrev mdTableRepairs (m : Nat) : Nat := (0x8020 + m) * 256 + 0x04
abbrev mdScrubPasses (m : Nat) : Nat := (0x8020 + m) * 256 + 0x05
abbrev mdLastScrub (m : Nat) : Nat := (0x8020 + m) * 256 + 0x06
abbrev mdSlotBase (i : Nat) : Nat := 0x803001 + i
abbrev capLargestHole : Nat := 0x803100
abbrev mirEnable : Nat := 0x810000
abbrev mirTornCount : Nat := 0x810100
abbrev mirWriteIgnored : Nat := 0x810200
abbrev mirReads : Nat := 0x810300
abbrev mirFwdMap : Nat := 0x811000
abbrev mirFwdSlots : Nat := 0x811100
abbrev srcWord (s : Nat) : Nat := (0x5020 + s) * 256 + 1
abbrev srcLevel (s : Nat) : Nat := (0x5020 + s) * 256 + 2
abbrev seqWord (st : Nat) (w : Nat) : Nat := (0x5040 + st) * 256 + 1 + w
abbrev flSoftStart : Nat := 0x680000
abbrev selfTest (i : Nat) : Nat := 0x901001 + i
abbrev bistTime : Nat := 0x901100
abbrev fwdUndeclared : Nat := 0x902000
abbrev lateAfterGap : Nat := 0x902100
abbrev gapSuperseded : Nat := 0x902200

end Obj
end Sys2Proof.Machine
end

