-- ==== Sys2Proof/Machine/State.lean ====
section
/-! DEFINITION. The state of the block as plain data: every object of the dictionary in one store, and beside it every
FIFO, timer, latch and sequence the specification gives the hub that no object holds. -/
namespace Sys2Proof.Machine

/-- Why a step stops: nothing does. The specification names no condition in which the block stops, and every meaning answers a
next state. -/
inductive Fault where
deriving DecidableEq, Repr

/-- Why a command has no meaning. -/
inductive Refusal where
  /-- The command's meaning has not been written; raised by the dispatch alone. Safe. -/
  | notModelled (mnemonic : String)
deriving DecidableEq, Repr

/-- What is fixed at manufacture (R1 to R5, R24). `fe` is the number of front-end dies, 1 to 4 (R2); a simplex part (R3)
has HD0 and MD0 only. -/
structure Part where
  fe : Nat := 4
  simplex : Bool := false
  gradeE : Bool := false
  siliconRev : Nat := 0x0100
  serial : Nat := 0
  brevSupported : List Nat := [0x0100]
  /-- The CRC-32 of the YDF of each behaviour revision, by the code that BREV_ACTIVE has under it. -/
  ydfCheck : List (Nat × Nat) := []
  keyHash : Nat := 0
deriving DecidableEq, Repr, Inhabited

/-- A callboard record (Table 2.12); `time` is a TIME96 word. `inNvm` says that the NVM ring holds it too (R86). -/
structure CbRecord where
  time : Nat := 0
  code : Nat := 0
  severity : Nat := 0
  source : Nat := 0
  seq : Nat := 0
  boot : Nat := 0
  param : Nat := 0
  inNvm : Bool := false
deriving DecidableEq, Repr, Inhabited

/-- The callboard (R85 to R87): the ring of the green room and the NVM ring, newest first, the last EVENT_SEQ given, and, oldest
first, the events that wait while the Lead's house processor restarts (R44). -/
structure Callboard where
  ring : List CbRecord := []
  nvm : List CbRecord := []
  lastSeq : Nat := 0
  waiting : List CbRecord := []
deriving DecidableEq, Repr, Inhabited

/-- What the hub has sent during the last command, oldest first: PDUs on CAN, messages on native lanes, Ethernet packets,
pin edges. It is cleared when the next command begins. -/
inductive Out where
  /-- A CAN frame: port, identifier (R442), data field. -/
  | can (port id : Nat) (bytes : List Nat)
  /-- A native lane message: lane, message code of Table 13.7, bytes of its content. -/
  | lane (l code : Nat) (bytes : List Nat)
  /-- A frame or packet put on an uplink: hub die, port, TYPE of Table 12.4, stream, sequence number. -/
  | frame (die port type stream seq : Nat)
  /-- The training word that a native lane inserts after every 16,384 UI from now on, each of its bits four times: lane, the 64 bits of
  Table 13.4 (R394). -/
  | training (l word : Nat)
  /-- A block of a native lane as it leaves the serialiser: lane, sync header, scrambled payload (R400). -/
  | block (l sync payload : Nat)
  /-- The Ethernet frame of a datagram, destination address to FCS (R413). -/
  | datagram (u : Nat) (bytes : List Nat)
  /-- A message of hub die x on its die link to FE die f (R321, R328): 0 RELINQUISH, 1 TAKE, and the switch instant it names. -/
  | dieLink (x f kind t : Nat)
  /-- A datagram on an Ethernet port ended by an Error control character, so that its FCS fails (R413). -/
  | ethError (u : Nat)
  /-- An Ethernet message: port, kind (1 ARP, 2 neighbor discovery, 3 echo reply, 4 PTP, 5 membership,
  6 fault ordered sets), a number that names it. -/
  | eth (u kind number : Nat)
  /-- An edge on an output pin: pin number, level, instant in 2⁻¹⁶ ns of ARRAY. -/
  | pin (pin : Nat) (level : Bool) (instant : Nat)
  /-- A mailbox response is ready. -/
  | mailbox (seq : Nat)
  /-- The word that a read cycle of the mirror port returns. -/
  | mirror (data : Nat)
deriving DecidableEq, Repr, Inhabited

/-- The twelve modes (Table 2.1). -/
inductive Mode where
  | curtainDown | boot | configure | selfTest | calibrate | sync | run | runSimplex | hold | service | safe | shutdown
deriving DecidableEq, Repr, Inhabited

/-- What ends a SHUTDOWN (R66, R75). -/
inductive ShutKind where
  | orderlyDown | orderlyBoot | emergency
deriving DecidableEq, Repr, Inhabited

/-- The causes of Table 2.8 whose condition is still present (R64). HOST_REQUEST's ends at once. -/
structure SafeConds where
  overTemp : Bool := false
  soleDie : Bool := false
deriving DecidableEq, Repr, Inhabited

/-- The mode register and what stands around it (R54, R56 to R65). Instants are TIME96 words, cues 2⁻¹⁶ ns of ARRAY. -/
structure ModeBlock where
  mode : Mode := .curtainDown
  entryTime : Nat := 0
  cause : Nat := 0
  /-- A transition accepted and waiting for its run cue: the mode it leads to. -/
  next : Option Mode := none
  /-- The run cue, once it is known (R59). -/
  cue : Option Nat := none
  /-- The LOCAL tick at which SYNC was entered. -/
  syncTick : Nat := 0
  /-- SAFE_CAUSE (Table 2.8). -/
  safeCause : Nat := 0
  conds : SafeConds := {}
  /-- The mode from which SAFE was entered (R63). -/
  safeFrom : Mode := .curtainDown
  shut : ShutKind := .orderlyDown
  /-- The LOCAL tick at which the 20 ms of R66 step 3 end. -/
  drainAt : Option Nat := none
  /-- The mode a reset by RST_N latched (R80). -/
  latched : Option Mode := none
  /-- The boot ROM loader serves (R86). -/
  loader : Bool := false
  /-- The roles, by hub die with its RELINQUISH_CAUSE, that a reset by RST_N ended (R80, R317). -/
  latchedRoles : List (Nat × Nat × Nat) := []
  /-- The tick of the latest transition that a SAFE cause (true) or a role change made (R65). -/
  wonAt : Option (Nat × Bool) := none
  /-- While a request is served: an event of its own instant that prevails over a transition it asks for, 1 a change of role and 2 a
  SAFE cause or an emergency (R65); 0 between commands. -/
  rival : Nat := 0
deriving DecidableEq, Repr, Inhabited

/-- A firmware slot of a hub die's NVM (R446): its state in FW_SLOT_INFO, VERSION, the blocks written since it was erased,
newest first, by offset, and whether it still holds the image of manufacture. -/
structure FwSlot where
  state : Nat := 0
  version : Nat := 0
  blocks : List (Nat × List Nat) := []
  factory : Bool := false
deriving DecidableEq, Repr, Inhabited

/-- Supply and bring-up (R67 to R82), and the firmware slots. Ticks are of LOCAL. -/
structure PowerSt where
  /-- Each input is above VIN_OK; the part has been supplied since CURTAIN-DOWN with WAKE low (R69, R70). -/
  vinA : Bool := false
  vinB : Bool := false
  armed : Bool := false
  /-- The controllers fitted (R73), bit 0 and bit 1. -/
  bucks : Nat := 0
  /-- The 5.0 V rail is up, and the tick at which a die was last powered, if any has been. -/
  rail : Bool := false
  lastPower : Option Nat := none
  /-- Retries of the rail made since a fault, and that one is due (R74). -/
  retries : Nat := 0
  retryDue : Bool := false
  /-- RST_N is held low (R80). -/
  rstLow : Bool := false
  /-- How the last session ended, for RESET_CAUSE: its bits 5 and 6. -/
  lastEnd : Nat := 0
  /-- The bring-up of each die: attempts made and the tick of power-on. -/
  attempts : Vector Nat 8 := Vector.replicate 8 0
  poweredAt : Vector (Option Nat) 8 := Vector.replicate 8 none
  /-- FW_RUNNING_SLOT of the hub dies: 0 A, 1 B, 0xFF the loader. -/
  running : Vector Nat 2 := Vector.replicate 2 0xFF
  /-- BREV_SELECT and FW_BOOT_SLOT as the last BOOT found them (R57). -/
  bootBrev : Nat := 0
  bootSlots : Vector Nat 2 := Vector.replicate 2 0
  /-- The die that TJ_MAX was last reported of. -/
  tjDie : Nat := 0
  /-- The stored PFW_THRESHOLD (R72). -/
  pfw : Nat := 6000
  /-- Slots A and B of HD0, then of HD1. -/
  slots : Vector FwSlot 4 := #v[{ state := 2, factory := true }, {}, { state := 2, factory := true }, {}]
deriving DecidableEq, Repr, Inhabited

/-- A raw word (Table 4.1). `ratio` is the factor of R103 for its hold, and `fault` says that its driver was in fault then
(R113). -/
structure RawWord where
  code : Int := 0
  range : Nat := 0
  ovr : Bool := false
  nbr : Bool := false
  exc : Bool := false
  swing : Bool := false
  ratio : Rat := 1
  fault : Bool := false
deriving DecidableEq, Repr, Inhabited

/-- A side word (Table 4.2): a background (`inj` false) or injected conversion, with its channel. `hold` says which hold it
converts; it is no bit of the word. -/
structure SideWord where
  word : RawWord := {}
  core : Nat := 0
  slot : Nat := 0
  inj : Bool := false
  entry : Nat := 0
  chan : Nat := 0
  hold : Nat := 0
deriving DecidableEq, Repr, Inhabited

/-- A raw frame of one FE die: its grid index, its regular words by die-local input and its side words (R126). -/
structure RawFrame where
  idx : Nat := 0
  words : List (Nat × RawWord) := []
  sides : List SideWord := []
  /-- The hold stamps of the injected holds taken during the frame: die-local core and stamp (R126). -/
  stamps : List (Nat × Nat) := []
  /-- The status word of the FE die's output arbiter (R327). -/
  status : Nat := 0
deriving DecidableEq, Repr, Inhabited

/-- A hold in the averaging interval of a gated channel's window (R111): its grid index, the window's start, and the first and last
averaged holds of the window. -/
structure WinHold where
  idx : Nat := 0
  t0 : Nat := 0
  first : Nat := 0
  last : Nat := 0
deriving DecidableEq, Repr, Inhabited

/-- The window averager of a gated channel (R111, R113). `win` is the window being averaged. -/
structure AvgSt where
  win : WinHold := {}
  sum : Rat := 0
  cnt : Nat := 0
  ovr : Bool := false
  nbr : Bool := false
  exc : Bool := false
  ranges : List Nat := []
  miss0 : Bool := false
  miss1 : Bool := false
  /-- The last averaged hold of a finished window, once its sum is complete. -/
  done : Option Nat := none
deriving DecidableEq, Repr, Inhabited

/-- A local input pair, beside its descriptor: its sample-and-hold, its range and its flags (R89 to R101). Voltages are in
LSB₁₈(G3) / 256. -/
structure InSt where
  range : Nat := 0
  /-- The range decided for the next hold. -/
  next : Option Nat := none
  volts : Int := 0
  /-- Grid index of the latest hold. -/
  idx : Nat := 0
  cm : Bool := false
  beyond : Bool := false
  ovr : Bool := false
  nbrSrc : Bool := false
  exc : Bool := false
  fault : Bool := false
  ratio : Rat := 1
  /-- The latest hold is beyond 150 % or inside the recovery after one that was (R100). -/
  epi : Bool := false
  /-- Holds of the 2-frame recovery still to come (R100), and of the neighbour rule (R99). -/
  ovLeft : Nat := 0
  nbrLeft : Nat := 0
  /-- Holds in a row with the common-mode comparator clear after a logged trip (R90). -/
  cmClear : Nat := 2000
  /-- Converted raw samples, newest first: grid index, range, code (R95). -/
  conv : List (Nat × Nat × Int) := []
  /-- Raw samples count for a decision from this grid index on: sampling started there (R94). -/
  startIdx : Nat := 0
  down : Nat := 0
  /-- Holds still to carry raw EXC after an excitation change (R114). -/
  excLeft : Nat := 0
  /-- The grid index of a synchronising reset due after an excitation change (R115). -/
  resyncAt : Option Nat := none
  /-- The latest holds that lay in an averaging interval, newest first. -/
  wins : List WinHold := []
  avg : AvgSt := {}
deriving DecidableEq, Repr, Inhabited

/-- An excitation driver, beside its object (R102 to R116). -/
structure DrvSt where
  /-- The driver takes part: excitation runs and the driver has been turned on. -/
  active : Bool := false
  /-- When the driver is to be turned on after a run start, in 2⁻¹⁶ ns of ARRAY. -/
  turnOn : Option Nat := none
  /-- The start of the open pulse window. -/
  window : Option Nat := none
  /-- Windows count from this instant on, and those that start at `winNext` or later are still to come. -/
  winFrom : Nat := 0
  winNext : Nat := 0
  /-- The tick at which the present fault began, and its cause. -/
  fault : Option Nat := none
  cause : Nat := 0
  ratio : Rat := 1
  /-- The sensed voltages of the running millisecond, in 1.25 mV / 65,536: their sum, their number, and whether one of them is not
  known; and the mean of the latest full one (V_MEAS). -/
  vSum : Nat := 0
  vCnt : Nat := 0
  vOpen : Bool := false
  vMean : Option Rat := none
deriving DecidableEq, Repr, Inhabited

/-- An injected entry held and not yet converted (R131, R133). -/
structure InjEntry where
  input : Nat := 0
  entry : Nat := 0
  volts : Int := 0
  /-- What R90, R99 and R100 say at its hold: the comparator is tripped, its word carries OVR, its successor's NBR. -/
  cm : Bool := false
  ovr : Bool := false
  nbrSrc : Bool := false
deriving DecidableEq, Repr, Inhabited

/-- What a slot converts. -/
inductive ConvKind where
  | regular | background | injected
deriving DecidableEq, Repr, Inhabited

/-- A conversion in progress; its code is ready at `ends`, in 2⁻¹⁶ ns of ARRAY (R124). For a background conversion `entry`
is the list position and `source` the code of BG_LIST. -/
structure Conv where
  kind : ConvKind := .regular
  frame : Nat := 0
  slot : Nat := 0
  ends : Nat := 0
  hold : Nat := 0
  input : Nat := 0
  entry : Nat := 0
  source : Nat := 0
  word : RawWord := {}
deriving DecidableEq, Repr, Inhabited

/-- The conversions of a diagnostic source held in one period (R130). -/
structure DiagAcc where
  /-- The end of the half millisecond, in 2⁻¹⁶ ns of ARRAY. -/
  fin : Nat := 0
  /-- An output of this half alone has left. -/
  out : Bool := false
  sum : Int := 0
  cnt : Nat := 0
  first : Nat := 0
  last : Nat := 0
  swing : Bool := false
  miss0 : Bool := false
  miss1 : Bool := false
deriving DecidableEq, Repr, Inhabited

/-- A converter core, beside its objects (R124 to R137, R141, R172, R180). -/
structure CoreSt where
  /-- The frame being converted and its next slot boundary, 0 to 9; 10 when the frame has no further one. -/
  frame : Nat := 0
  slot : Nat := 10
  guard : Bool := false
  injUsed : Nat := 0
  regPending : List Nat := []
  cur : Option Conv := none
  /-- The next conversion of the core is the successor of an overloaded channel (R99). -/
  nbrNext : Bool := false
  bgPos : Nat := 0
  /-- Frames in a row without a background slot, and whether the present one has had one (R135). -/
  bgStarve : Nat := 0
  bgDone : Bool := true
  /-- Source edges of the present start source not yet taken, oldest first (R132). -/
  edges : List Nat := []
  /-- The LOCAL instant, in 2⁻¹⁶ ns, of the latest edge taken of a footlights string's PWM (R311). -/
  pwmAt : Nat := 0
  /-- The instants at which injected holds are due, oldest first, and the grid index to which one is deferred (R133). -/
  dues : List Nat := []
  defer : Option Nat := none
  injQ : List InjEntry := []
  injHold : Nat := 0
  /-- The hold stamps received with the core's raw frames, newest first (R126). -/
  stamps : List Nat := []
  /-- The tick of the latest drop (R133). -/
  dropAt : Option Nat := none
  /-- The tick of the latest write of INJ_SOFT_START (R370). -/
  softAt : Option Nat := none
  refStreak : Nat := 0
  /-- The last CALBUS codes, newest first, at most 256, and a drift flagged and not yet calibrated (R180). -/
  calbus : List Int := []
  driftFlag : Bool := false
  /-- What each diagnostic source's conversions give, half millisecond by half millisecond, oldest first; and the preset that
  DIAG_PERIOD held up to the latest cue point that changed it (R130). -/
  diag : List (Nat × DiagAcc) := []
  diagWas : List (Nat × Nat × Nat) := []
  /-- TEMP outputs and the grid index from which each applies, newest first (R172). -/
  temps : List (Nat × Int) := []
  /-- CAL_TEMP_STALE has been logged since the last foreground calibration (R173). -/
  staleLogged : Bool := false
deriving DecidableEq, Repr, Inhabited

/-- The swing core of an FE die, beside its objects (R138 to R141). -/
structure SwingSt where
  /-- Grid index of the first frame of the running overlap. -/
  start : Nat := 0
  /-- Who asked: the calibration engine rather than SWING_REQUEST. -/
  byCal : Bool := false
  /-- An overlap out has failed once for this takeover (Table 4.5). -/
  failedOnce : Bool := false
  /-- The swing words are in force from this grid index on. -/
  from_ : Nat := 0
  /-- The core whose words were in force before another was taken over without overlap, and the grid index up to which (R140). -/
  last : Option (Nat × Nat) := none
  /-- CONV_OFFSET and CONV_GAIN that the served core had before its calibration (Table 4.5). -/
  prev : Option (Nat × Nat) := none
deriving DecidableEq, Repr, Inhabited

/-- An FE die: the raw frame in hand, the frames sent, the swing core and the skew log of R123. -/
structure FeSt where
  frame : RawFrame := {}
  sent : List RawFrame := []
  swing : SwingSt := {}
  /-- The tick and the code of the latest steered hold (R121). -/
  holdTick : Nat := 0
  holdCode : Nat := 0
  /-- HOLD_SKEW_LIMIT has been logged and may not be again; the skew has been within 20 ps since tick `skewQuiet` (R123). -/
  skewLogged : Bool := false
  skewQuiet : Option Nat := none
  skewAt : Nat := 0
  /-- The latest run of raw frames lost to both hub dies: its first grid index and its length (R361). -/
  lostFrom : Nat := 0
  lostCount : Nat := 0
  /-- The frames of 10 µs in which an output that a hub die cannot send has left, newest first, as far as a comparison can still ask
  (R324). -/
  suppressed : List Nat := []
deriving DecidableEq, Repr, Inhabited

/-- The alignment buffer of one hub die for one FE die (R46, R47): frames arrived, the last good one, the misses among the
latest 1,024 grid periods, and the link's counts. -/
structure AlignSt where
  arrived : List RawFrame := []
  lastGood : RawFrame := {}
  recent : List Bool := []
  failed : Bool := false
deriving DecidableEq, Repr, Inhabited

/-- A stage-1 word of a channel's history: the code less its offset, times the gain and the ratiometric factor, before the
shift of OUT_SCALE (R147), and its flags. `miss0` and `miss1` say that a hub die has only a repeat in its place (R47). -/
structure ChainWord where
  idx : Nat := 0
  value : Rat := 0
  range : Nat := 0
  ovr : Bool := false
  nbr : Bool := false
  exc : Bool := false
  swing : Bool := false
  rngchg : Bool := false
  miss0 : Bool := false
  miss1 : Bool := false
deriving DecidableEq, Repr, Inhabited

/-- One history of a filter chain (R159): its setting, the grid index `g` at which it began, its next output, its last one
where a later reset has ended it, and its first output with real input. -/
structure ChainCtx where
  preset : Nat := 3
  order : Nat := 5
  phase : Nat := 0
  scale : Nat := 0
  g : Nat := 0
  next : Nat := 0
  last : Option Int := none
  j0 : Int := 0
  /-- Its first output is still to come. -/
  fresh : Bool := true
  /-- The grid index of the latest output of the histories before it (R159). -/
  after : Int := 0
  /-- The stream its outputs go to; before an instant they went to another, oldest first (R349). -/
  stream : Nat := 0xFF
  moves : List (Nat × Nat) := []
deriving DecidableEq, Repr, Inhabited

/-- An output of a channel: the instant it represents, its word (Table 5.2b), and which hub die cannot send it (R47, R48). -/
structure OutRec where
  instant : Nat := 0
  word : Nat := 0
  lost0 : Bool := false
  lost1 : Bool := false
deriving DecidableEq, Repr, Inhabited

/-- The filter chain of a local channel, beside its descriptor. -/
structure ChainSt where
  /-- Stage-1 words, newest first. -/
  hist : List ChainWord := []
  lastRange : Option Nat := none
  ctxs : List ChainCtx := []
  /-- The tick of the latest clamp (R168). -/
  clampAt : Option Nat := none
deriving DecidableEq, Repr, Inhabited

/-- A detector, beside its object (R162 to R164). Running values carry 16 fraction bits. -/
structure DetSt where
  /-- Source outputs not yet taken, with the instant at which each is due, and whether a reset of the source begins there. -/
  inbox : List (Nat × OutRec × Bool) := []
  cnt : Nat := 0
  maxV : Int := 0
  maxAt : Nat := 0
  minV : Int := 0
  sumSq : Nat := 0
  run : Option Nat := none
  /-- Updates that still carry SUSPECT after the present one; the block is suspect. -/
  suspectLeft : Nat := 0
  suspect : Bool := false
  /-- An output of the source has been lost since the last update (R164). -/
  gap : Bool := false
deriving DecidableEq, Repr, Inhabited

/-- A trim or calibration record as one NVM holds it (Table 6.2). -/
structure CalRec where
  number : Nat := 0
  kind : Nat := 2
  format : Nat := 1
  rev : Nat := 0
  generation : Nat := 0
  written : Nat := 0
  boot : Nat := 0
  serial : Nat := 0
  payload : List Nat := []
  /-- The check word as stored. -/
  check : Nat := 0
deriving DecidableEq, Repr, Inhabited

/-- The background calibration of one FE die (R178 to R181). -/
structure BgSt where
  /-- A round is running. -/
  round : Bool := false
  /-- The cores still to be taken over, in order. -/
  queue : List Nat := []
  /-- The converter being calibrated: 0 to 11 a core, 12 the swing core. -/
  conv : Option Nat := none
  phase : Nat := 0
  phaseAt : Nat := 0
  repeated : Bool := false
  zero : Int := 0
  plus : Int := 0
  /-- CAL_BG_ENABLE has been written 0 during the round. -/
  ending : Bool := false
deriving DecidableEq, Repr, Inhabited

/-- The calibration engine (R169 to R188). -/
structure CalSt where
  /-- The step of the running foreground calibration, an index into its list of steps, and when the step began. -/
  step : Nat := 0
  stepAt : Nat := 0
  bg : Vector BgSt 4 := Vector.replicate 4 {}
  /-- The results held until they are applied: object key and value. -/
  results : List (Nat × Nat) := []
  /-- Channels that keep their terms. -/
  failed : List Nat := []
  /-- The tick of the latest start of a round (R178). -/
  roundTick : Nat := 0
  /-- A backward step of ARRAY has left instants up to this one reached, in 2⁻¹⁶ ns, and a forward step has passed a round start
  at this tick (R203). -/
  roundFloor : Nat := 0
  roundLate : Option Nat := none
  /-- The tick of the latest NVM write of background results (R175). -/
  nvmAt : Nat := 0
  /-- The kind of the last foreground calibration applied (Table 6.3). -/
  lastKind : Nat := 0
  /-- The coefficients that words held before grid index `priorTo` were held under, by object key (R171). -/
  prior : List (Nat × Nat) := []
  priorTo : Nat := 0
  /-- The next free byte of each NVM's calibration area of 1 MB (R175). -/
  nvmNext : Vector Nat 2 := Vector.replicate 2 0
  /-- The records in the two NVMs. -/
  nvm0 : List CalRec := []
  nvm1 : List CalRec := []
deriving DecidableEq, Repr, Inhabited

/-- The servo of ARRAY or SITE (R200 to R209). Offsets are in 2⁻¹⁶ ns. -/
structure Servo where
  /-- The offsets of the latest measurements, newest first, at most 16 (Table 7.4). -/
  thetas : List Int := []
  /-- A valid measurement not yet taken by the servo. -/
  meas : Option Int := none
  /-- The tick of the latest servo update. -/
  lastUpdate : Nat := 0
  /-- The next measurement is stepped whatever its size (R203). -/
  force : Bool := false
  /-- A step waiting: its size in 2⁻⁴⁰ ns and the first tick at which it may be applied (R198). -/
  step : Option (Int × Nat) := none
  /-- The phase term in INCREMENT, in 2⁻⁴⁰ ns (R202). -/
  phase : Int := 0
  /-- A run of refusals is under way. -/
  refusing : Bool := false
  /-- The uplink selected under UPLINK_AUTO, 0 to 7. -/
  port : Option Nat := none
  /-- The other ports that offer a better quality than the selected one without a break, each with the tick since which it does
  (R215). -/
  better : List (Nat × Nat) := []
  /-- The tick of the last update before a servo stall not yet logged. -/
  stalledAt : Option Nat := none
  /-- The frequency part of INCREMENT, in 2⁻⁴⁰ ns. -/
  freq : Nat := 2 ^ 42
deriving DecidableEq, Repr, Inhabited

/-- Time transfer on one port (R211 to R215). Stamps are in 2⁻¹⁶ ns of the die's own ARRAY. -/
structure TtPort where
  seq : Nat := 0
  t1 : Option Nat := none
  t2 : Option Nat := none
  t3 : Option Nat := none
  t4 : Option Nat := none
  /-- The ARRAY state the slave reported in its latest TT_DELAY (master port). -/
  slaveState : Nat := 4
  /-- LINK_DELAY of the latest valid exchanges, newest first, at most 16. -/
  delays : List Int := []
  valid : Nat := 0
  lastValid : Bool := false
  failedInRow : Nat := 0
  lastLog : Option Nat := none
  levelLogged : Bool := false
  /-- SITE − ARRAY at t1, in 2⁻¹⁶ ns (master port). -/
  siteAt : Int := 0
  /-- The frequency ratios measured over the latest SERVO_TC, newest first, in 10⁻¹² (R214). -/
  ratios : List Int := []
  masterIncr : Nat := 2 ^ 42
  masterSiteMinusArray : Int := 0
  siteQuality : Nat := 4
  left : Bool := false
deriving DecidableEq, Repr, Inhabited

/-- A foreign master of the PTP client (R415). -/
structure PtpMaster where
  identity : Nat := 0
  quality : Nat := 0
  announces : Nat := 0
  timescale : Bool := true
  utc : Int := 0
  steps : Nat := 0
  lastTick : Nat := 0
  gm : Nat := 0
deriving DecidableEq, Repr, Inhabited

/-- The PTP client (R210, R415). -/
structure PtpSt where
  masters : List PtpMaster := []
  sel : Option Nat := none
  syncSeq : Nat := 0
  syncT1 : Option Int := none
  syncT2 : Option Int := none
  syncCorr : Int := 0
  twoStep : Bool := false
  reqSeq : Nat := 0
  reqT3 : Option Int := none
  /-- When the latest Delay_Req was sent. -/
  reqAt : Nat := 0
  announceTick : Nat := 0
  wrongScale : Bool := false
deriving DecidableEq, Repr, Inhabited

/-- PPS_IN, PPS_OUT, REFCLK_IN and the cross-check (R206 to R208, R216, R223). -/
structure PinsTime where
  /-- LOCAL instant of the previous valid PPS_IN edge, in 2⁻¹⁶ ns. -/
  lastValid : Option Nat := none
  irregularLog : Option Nat := none
  /-- A TOD_NEXT in force and the LOCAL instant at which it took effect. -/
  todNext : Option (Nat × Nat) := none
  /-- The ARRAY second the latest valid edge marked, once TOD_NEXT has been applied. -/
  second : Option Nat := none
  ppsOut : Bool := false
  /-- A cue fire that PPS_OUT still has to place, in 2⁻¹⁶ ns of ARRAY. -/
  ppsDue : Option Nat := none
  /-- The instant at which PPS_OUT falls, in 2⁻¹⁶ ns of ARRAY. -/
  ppsEnd : Nat := 0
  xchkSum : Int := 0
  xchkSq : Nat := 0
  xchkMax : Int := 0
  xchkN : Nat := 0
  /-- Since when the mean has been within the limit after a logged XCHK_LIMIT. -/
  xchkQuiet : Option Nat := none
  xchkLogged : Bool := false
deriving DecidableEq, Repr, Inhabited

/-- The four time bases and what belongs to them (R194). `ticks` counts the 4 ns ticks since the bases last started; LOCAL is
`ticks` times 4 ns. The other bases are held in 2⁻⁴⁰ ns. -/
structure TimeSt where
  ticks : Nat := 0
  array : Nat := 0
  site : Nat := 0
  host : Nat := 0
  servoA : Servo := {}
  servoS : Servo := {}
  ports : Vector TtPort 16 := Vector.replicate 16 {}
  ptp : PtpSt := {}
  pins : PinsTime := {}
  /-- Index of the next instant of each cue that has not been reached (R219). -/
  cueNext : Vector Nat 32 := Vector.replicate 32 0
  /-- The ARRAY instant of a forward step that has passed the cue's next instant (R203). -/
  cueLate : Vector (Option Nat) 32 := Vector.replicate 32 none
  /-- The raw-frame boundary at which each cue was last armed, in 2⁻¹⁶ ns of ARRAY. -/
  cueArmedAt : Vector Nat 32 := Vector.replicate 32 0
  /-- Cues that have fired with a higher-numbered one on the tick given, and whose own report is still to come (R220). -/
  cueJoint : Nat × List Nat := (0, [])
  /-- Index of the next grid instant to be held (R203). -/
  nextGrid : Nat := 0
deriving DecidableEq, Repr, Inhabited

/-- A fire or join of the trigger manager: the event record of Table 8.16, which the slots it triggers keep too. Times are in
2⁻¹⁶ ns of ARRAY. -/
structure FireRec where
  /-- The tick of the fire. -/
  tick : Nat := 0
  /-- The comparator whose stamp the record awaits (R241). -/
  wait : Option Nat := none
  time : Nat := 0
  cause : Nat := 0
  source : Nat := 0xFF
  mask : Nat := 0
  state : Nat := 0
  forced : Bool := false
  /-- An originating fire; a fire that came by the CUE_FIRE wire. -/
  own : Bool := false
  wire : Bool := false
  eventTime : Nat := 0
  eventHub : Nat := 0
  final : Bool := false
  wireOnly : Bool := false
  slots : Nat := 0
  busy : Nat := 0
  fires : Nat := 0
  number : Nat := 0
deriving DecidableEq, Repr, Inhabited

/-- A source of the sequencer: its level, the tick at which that last changed, its source time and an edge not yet
evaluated. -/
structure SrcSt where
  level : Bool := false
  since : Nat := 0
  time : Nat := 0
  edge : Bool := false
deriving DecidableEq, Repr, Inhabited

/-- A window comparator: its output, its input in thousandths of a threshold code once it is known, the stamp of its latest
transition to true in 2⁻¹⁶ ns of ARRAY, and its stamps on the die link. -/
structure CmpSt where
  out : Bool := false
  input : Option Int := none
  stamp : Nat := 0
  link : List Nat := []
deriving DecidableEq, Repr, Inhabited

/-- A mark (R256). -/
structure MarkRec where
  time : Nat := 0
  state : Nat := 0
  source : Nat := 0
  mask : Nat := 0
deriving DecidableEq, Repr, Inhabited

/-- The numbers accepted from an originator for a message type (R245). -/
structure SeenMsg where
  hub : Nat := 0
  code : Nat := 0
  high : Nat := 0
  nums : List Nat := []
deriving DecidableEq, Repr, Inhabited

/-- A row of a capture (R250): output words in ascending channel order, or 96 raw words of each FE die in ascending order.
`miss0` and `miss1` name, by FE die, what a hub die's copy lacks (bit 0 for a FILTERED row), `drop0` and `drop1` say that its
write buffer dropped the row, and `late` that the ring had overwritten it. -/
structure CapRow where
  inst : Nat := 0
  words : List Nat := []
  miss0 : Nat := 0
  miss1 : Nat := 0
  drop0 : Bool := false
  drop1 : Bool := false
  late : Bool := false
  /-- One die alone has a copy of the row: it was written, or held, in RUN-SIMPLEX (R338). -/
  alone : Bool := false
deriving DecidableEq, Repr, Inhabited

/-- A capture slot, beside its object (R249 to R259). -/
structure SlotSt where
  /-- The rows held, newest first: the ring, or the window once it is fixed. -/
  rows : List CapRow := []
  /-- The rows that the ring has overwritten. -/
  lapped : Nat := 0
  /-- The output instant being gathered and its outputs so far. -/
  part : Option (Nat × List (Nat × OutRec)) := none
  /-- The settings the ring fills under. -/
  kind : Nat := 0
  chMask : Nat := 0
  dieMask : Nat := 0
  preset : Nat := 0
  cap : Nat := 0
  /-- Rows from this instant on are written. -/
  from_ : Nat := 0
  trig : Option FireRec := none
  /-- The window is fixed; its rows before the trigger, and PRE. -/
  fixed : Bool := false
  pre : Nat := 0
  preMax : Nat := 0
  post : Nat := 1
  preShort : Bool := false
  incomplete : Bool := false
  marks : List MarkRec := []
  busyLog : Option Nat := none
  gapLog : Option Nat := none
  /-- Bytes of the image already put into capture frames, and the next capture frame number. -/
  sent : Nat := 0
  frameNo : Nat := 0
  /-- The tick at which the next capture frame is due. -/
  readAt : Nat := 0
deriving DecidableEq, Repr, Inhabited

/-- A join or disarm that an event of the same tick prevails over: its tick, the auto timeout it ended, and, of a join, the slots
as they stood before it (R237). -/
structure SameTick where
  tick : Nat := 0
  autoAt : Option Nat := none
  slots : Option (Vector SlotSt 16) := none
deriving DecidableEq, Repr, Inhabited

/-- The trigger sequencer, its manager and the cue bus, beside their objects (R231 to R248). -/
structure TrigSt where
  srcs : Vector SrcSt 32 := Vector.replicate 32 {}
  cmps : Vector CmpSt 32 := Vector.replicate 32 {}
  /-- The latest tick evaluated. -/
  lastEval : Nat := 0
  /-- The tick at which each timer reaches 0. -/
  timers : Vector (Option Nat) 2 := Vector.replicate 2 none
  /-- The tick and time at which each counter last reached its target, and that its source is still to be told. -/
  reach : Vector (Nat × Nat) 2 := Vector.replicate 2 (0, 0)
  reachDue : Vector Bool 2 := Vector.replicate 2 false
  /-- The tick at which the auto timeout ends. -/
  autoAt : Option Nat := none
  /-- The tick of the raw-frame boundary of SAFE at which a sequencer frozen by HOLD goes on (R63). -/
  resumeAt : Option Nat := none
  /-- The tick at which HOLD froze the sequencer. -/
  heldAt : Option Nat := none
  /-- Writes of SOFT_TRIGGER not yet seen: bit and instant. -/
  soft : List (Nat × Nat) := []
  /-- CUE_ARM as received, CUE_FIRE pulled low by another hub, CUE_ARM as driven, and the end of this hub's CUE_FIRE pulse
  in 2⁻¹⁶ ns of LOCAL. -/
  armIn : Bool := false
  fireIn : Bool := false
  armOut : Bool := false
  pulse : Option Nat := none
  /-- The latest fire and arm numbers sent. -/
  fireNo : Nat := 0
  armNo : Nat := 0
  seen : List SeenMsg := []
  /-- FIRE messages accepted: fire time and hub, newest first. -/
  fires : List (Nat × Nat) := []
  /-- The stamp of a foreign fall of CUE_FIRE, less CUE_FIRE_DELAY, and of the latest rise of CUE_ARM, in 2⁻¹⁶ ns. -/
  fireAt : Nat := 0
  armAt : Nat := 0
  /-- The latest stamp of each FE die's TDC in 2⁻¹⁶ ns of LOCAL and of ARRAY. -/
  tdc : Vector (Option (Nat × Nat)) 4 := Vector.replicate 4 none
  /-- The latest join or disarm, while an event of its own tick still prevails over it. -/
  beaten : Option SameTick := none
  /-- The latest 16 event records, newest first. -/
  events : List FireRec := []
deriving DecidableEq, Repr, Inhabited

/-- A control loop, beside its objects (R263 to R283). Law values are in 2⁻³² LSB₂₄. -/
structure LoopSt where
  /-- The law's level: 0 LOW, 1 MID, 2 HIGH. -/
  level : Nat := 0
  held : Bool := false
  oHold : Nat := 0
  /-- Cycle instants counted, those since the last change of level, and those at which changes were made. -/
  cyc : Nat := 0
  dwell : Nat := 0
  changes : List Nat := []
  /-- The latest evaluated cycles that entered a value: cycle number and PV, newest first. -/
  vhist : List (Nat × Int) := []
  suspectRun : Nat := 0
  overLog : Option Nat := none
  /-- The generator is to start at the next evaluated cycle: with v = 0, or with v̂ (true). -/
  genInit : Option Bool := none
  /-- The cycle at which TUNE was entered, a fire of INJ_CUE since, and a write of INJ_GO. -/
  tuneAt : Nat := 0
  injFire : Option Nat := none
  injGo : Bool := false
  lfsr : Nat := 0
  phase : Nat := 0
  u : Int := 0
  err : Int := 0
  lo : Nat := 0
  hi : Nat := 0
  /-- A SAFE cause that has come about (Table 9.10, SAFE_CAUSE), and an injection that has reached its end. -/
  safeDue : Nat := 0
  injEnd : Bool := false
  /-- The output in effect at a string: OUTPUT one frame later (R264). -/
  strO : Nat := 0
deriving DecidableEq, Repr, Inhabited

/-- A switched control output, beside its object (R280, R281). -/
structure CtlSt where
  pulseEnd : Option Nat := none
  /-- The change that has been ordered and the instant, in 2⁻¹⁶ ns of ARRAY, at which it takes effect (R264, R272, R328). -/
  edge : Option (Bool × Nat) := none
  latchedAt : Nat := 0
  /-- The tick of the latest write of HOST_LEVEL (R370). -/
  hostAt : Option Nat := none
deriving DecidableEq, Repr, Inhabited

/-- A trace buffer (R284, R285): its words, oldest first, and the loop cycles since its start. -/
structure TraceSt where
  words : List Int := []
  cycles : Nat := 0
  fire : Option Nat := none
  full : Bool := false
  /-- Words that an uncorrectable error of a memory die has taken: memory die and place among the words held (R473). -/
  bad : List (Nat × Nat) := []
deriving DecidableEq, Repr, Inhabited

/-- The control engine: the next frame and the latest FRAME_LOAD (R263, R266). -/
structure EngineSt where
  frame : Nat := 0
  load : Nat := 0
  loops : Vector LoopSt 32 := Vector.replicate 32 {}
  ctls : Vector CtlSt 16 := Vector.replicate 16 {}
  traces : Vector TraceSt 8 := Vector.replicate 8 {}
deriving DecidableEq, Repr, Inhabited

/-- A footlights string, beside its object (R293 to R304). Instants in 2⁻¹⁶ ns of ARRAY, faults in LOCAL ticks. -/
structure FlSt where
  /-- The start of the soft start in force, and of a soft stop with the target it began from. -/
  soft : Option Nat := none
  stop : Option (Nat × Nat) := none
  /-- The string runs: turned on and not yet soft-stopped. -/
  on : Bool := false
  ocRun : Nat := 0
  openAt : Option Nat := none
  faultAt : Option Nat := none
  latchedAt : Nat := 0
  faultLog : Option Nat := none
  /-- The LOCAL instant, in 2⁻¹⁶ ns, at which the PWM counter last restarted: it runs from the crystal (R299). -/
  pwmFrom : Nat := 0
  /-- The target in force in the controller (R298, R304). -/
  tgt : Nat := 0
  /-- GATE, the LOCAL instant of its latest change, and the one until which an OVERCURRENT holds it off (R295, R296). -/
  gate : Bool := false
  gateAt : Nat := 0
  /-- The LOCAL instant up to which GATE has followed the PWM (R301). -/
  gateSeen : Nat := 0
  offTo : Nat := 0
  /-- The duty in force, and the one that has arrived with the LOCAL instant of the period start that takes it (R301). -/
  duty : Nat := 0
  want : Nat := 0
  wantAt : Nat := 0
deriving DecidableEq, Repr, Inhabited

/-- A pattern engine, beside its objects (R305 to R310). -/
structure PatSt where
  levels : List Nat := [0, 0, 0, 0, 0, 0, 0, 0]
  /-- The levels on entry to the present step, the next step frame i, and the frame of entry. -/
  l0 : List Nat := [0, 0, 0, 0, 0, 0, 0, 0]
  i : Nat := 1
  entry : Nat := 0
  /-- The counters of LOOP steps. -/
  counters : List (Nat × Nat) := []
  /-- The engine starts at the next frame. -/
  start : Bool := false
  /-- The latest fire of each cue, in 2⁻¹⁶ ns of ARRAY. -/
  fires : List (Nat × Nat) := []
deriving DecidableEq, Repr, Inhabited

/-- The output arbiter of an FE die (R79, R327 to R329, R334). -/
structure ArbSt where
  /-- The hub die selected. -/
  sel : Nat := 0
  /-- The switch instant of a TAKE received and not yet in force. -/
  take : Option Nat := none
  /-- The die link to HD0 and to HD1 carries valid blocks, and with them that die's timebase clock and its grid marks, standby
  marks where it is not selected (R327). -/
  ok0 : Bool := true
  ok1 : Bool := true
  /-- No command block for 100 µs: the outputs are safe, and the first TAKE is followed. -/
  silent : Bool := false
deriving DecidableEq, Repr, Inhabited

/-- A hub die's RELINQUISH line, its house processor, and the latest frame in which it logged a fault that attributes a
mismatch (R321, R81, R326). -/
structure DieRed where
  line : Bool := false
  restarting : Bool := false
  /-- The frames in which the die logged a fault, newest first, as far as a comparison can still ask (R326). -/
  faultFrames : List Nat := []
  /-- The ticks of the latest uncorrectable memory-die errors, newest first. -/
  mdErrs : List Nat := []
deriving DecidableEq, Repr, Inhabited

/-- A hand-over under way: the switch instant in 2⁻¹⁶ ns of ARRAY, the cause as a bit number of Table 11.9, and whether the
roles swap. -/
structure Handover where
  at_ : Nat := 0
  cause : Nat := 0
  swap : Bool := false
deriving DecidableEq, Repr, Inhabited

/-- Redundancy, beside the objects of Table 11.8 (R315 to R334). -/
structure RedSt where
  arbs : Vector ArbSt 4 := Vector.replicate 4 {}
  dies : Vector DieRed 2 := Vector.replicate 2 {}
  /-- The peer link is up; the tick of its loss. -/
  peerUp : Bool := false
  peerLostAt : Nat := 0
  handover : Option Handover := none
  /-- The switch instant of the latest hand-over, in 2⁻¹⁶ ns of ARRAY: the arbiters apply the new Lead's commands from 10 µs after it
  (R328). -/
  switched : Option Nat := none
  /-- The cause, as a bit number, under which the Lead holds SAFE and which has not ended (R64). -/
  sole : Option Nat := none
  /-- The readmission cue point, and whether the readmission is automatic (R332). -/
  readmit : Option (Nat × Bool) := none
  /-- Frames below this one have been compared. -/
  cmpNext : Nat := 0
  cmpLog : Option Nat := none
  /-- The tick of the latest automatic readmission. -/
  autoAt : Nat := 0
  /-- The LOCAL seconds at which the bases have been compared (R198). -/
  seconds : Nat := 0
deriving DecidableEq, Repr, Inhabited


/-- A packet of an output queue (R377): its key, number and last number covered, TYPE, ports and class, its 34-bit stored
words, and what a gap record for it would say: the first instant lost and the span in ns. -/
structure Packet where
  hub : Nat := 0
  stream : Nat := 0
  seq : Nat := 0
  last : Nat := 0
  type : Nat := 1
  prim : Nat := 0
  alt : Option Nat := none
  cls : Nat := 0
  cause : Nat := 0
  start : Nat := 0
  span : Option Nat := none
  words : List Nat := []
deriving DecidableEq, Repr, Inhabited

/-- A number that a hub die has lost and reports to its peer (R362). -/
structure LostRec where
  die : Nat := 0
  cause : Nat := 0
  packet : Packet := {}
deriving DecidableEq, Repr, Inhabited

/-- A gap record to issue (R360). Times are in 2⁻¹⁶ ns, the span in ns. -/
structure GapRec where
  hub : Nat := 0
  stream : Nat := 0
  seq : Nat := 0
  last : Nat := 0
  cause : Nat := 0
  kind : Nat := 0
  fe : Nat := 0
  start : Nat := 0
  span : Nat := 0
  prim : Nat := 0
  alt : Option Nat := none
  cls : Nat := 0
deriving DecidableEq, Repr, Inhabited

/-- A record waiting in a RECORD frame: its channel, kind and output, and the instant at which it left. -/
structure RecordSt where
  chan : Nat := 0
  kind : Nat := 0
  out : OutRec := {}
  left : Nat := 0
deriving DecidableEq, Repr, Inhabited

/-- The loss of output words of a stream that is going on (Table 12.7, cause 0). -/
structure PartialLoss where
  first : Nat := 0
  last : Nat := 0
  start : Nat := 0
  count : Nat := 0
  fe : Nat := 0
  second : Nat := 0
  /-- The run of missed raw frames behind it, as grid indices (Table 12.7). -/
  from_ : Nat := 0
  to_ : Nat := 0
deriving DecidableEq, Repr, Inhabited

/-- A stream, beside its object (R348 to R352). -/
structure StreamSt where
  /-- Rows still lacking words: instant and outputs by channel. -/
  rows : List (Nat × List (Nat × OutRec)) := []
  /-- The rows of the open frame, oldest first, and its channels. -/
  done : List (Nat × List (Nat × OutRec)) := []
  chans : List Nat := []
  recs : List RecordSt := []
  /-- The next frame carries START. -/
  start : Bool := false
  /-- Outputs belong to the stream from this instant, from this leaving instant and from histories that began at this grid
  index on. -/
  fromInst : Nat := 0
  fromLeave : Nat := 0
  fromG : Nat := 0
  partial_ : Option PartialLoss := none
  gapLog : Option Nat := none
  /-- The TIME of the last record closed. -/
  lastTime : Nat := 0
  /-- The number and the first instant of the latest frames, newest first (R360). -/
  heads : List (Nat × Nat) := []
  /-- The cue point of a commit that disabled the stream: outputs of earlier instants still belong to it (R349). -/
  ends : Option Nat := none
deriving DecidableEq, Repr, Inhabited

/-- The window of a hub die for a key: frames, or gap records by first number (R335, R363). A number seen keeps its check
word; `marked` are ranges that gap records cover. -/
structure DupWin where
  die : Nat := 0
  hub : Nat := 0
  stream : Nat := 0
  gap : Bool := false
  high : Nat := 0
  seen : List (Nat × Nat) := []
  marked : List (Nat × Nat) := []
deriving DecidableEq, Repr, Inhabited

/-- A range of numbers, and the interval between the samples on either side of it, in 2⁻¹⁶ ns (R360). -/
structure NumRange where
  lo : Nat := 0
  hi : Nat := 0
  start : Nat := 0
  fin : Nat := 0
deriving DecidableEq, Repr, Inhabited

/-- Numbers of a forwarded stream that have not been accepted (R366): what remains of an open range, the range as it was opened,
when its time ends, and its cause. -/
structure OpenRange where
  nums : List NumRange := []
  whole : NumRange := {}
  due : Nat := 0
  cause : Nat := 4
deriving DecidableEq, Repr, Inhabited

/-- A forward entry, beside its object (R364 to R366). -/
structure FwdSt where
  /-- The policing budget of each hub die in 1 / 250,000,000 frames, and the tick at which it was last filled. -/
  budget0 : Nat := 1000000000
  budget1 : Nat := 1000000000
  at0 : Nat := 0
  at1 : Nat := 0
  /-- A frame has been accepted; the tick of the latest reception. -/
  known : Bool := false
  lastRx : Nat := 0
  /-- The instant after the last sample delivered; the number and the first instant of the latest frames, newest first (R360). -/
  lastEnd : Nat := 0
  heads : List (Nat × Nat) := []
  opens : List OpenRange := []
  gapLog : Option Nat := none
deriving DecidableEq, Repr, Inhabited

/-- What the data path keeps of one hub die: its output queue, oldest packet first, and the ticks of the latest poisoned
words (R325). -/
structure QueueSt where
  packets : List Packet := []
  poison : List Nat := []
deriving DecidableEq, Repr, Inhabited


/-- A message waiting on a lane: its type (Table 13.7) and its payload before the CRC. -/
structure LaneMsg where
  code : Nat := 0
  bytes : List Nat := []
deriving DecidableEq, Repr, Inhabited

/-- A lane, beside its object (R387 to R411). Instants are LOCAL ticks. -/
structure LaneSt where
  /-- The rate divider in force (R388). -/
  div : Nat := 1
  /-- When the present state was entered. -/
  since : Nat := 0
  /-- Consecutive entries into DOWN (R398). -/
  retries : Nat := 0
  /-- The next receiver-detect step (R393). -/
  detectAt : Nat := 0
  /-- Losses of block lock since TRAIN (Table 13.3). -/
  lockFails : Nat := 0
  rxReady : Bool := false
  /-- Training words read in a row with the far end's RX_READY. -/
  peerReady : Nat := 0
  bestFom : Nat := 0
  ffeReq : Nat := 15
  halfLogged : Bool := false
  failLog : Option Nat := none
  dropLog : Option Nat := none
  eyeLowRun : Nat := 0
  msgs : List LaneMsg := []
  /-- The message in progress and its body blocks still to send. -/
  msgNow : Option (LaneMsg × Nat) := none
  /-- The packet being sent and its words still to send. -/
  frameNow : Option (Packet × List Nat) := none
  /-- Blocks sent, and the block numbers of the HOROL blocks among the latest 1,024 (R403). -/
  blocks : Nat := 0
  horolAt : List Nat := []
  /-- The latest 58 scrambled bits, the newest lowest (R400). -/
  scram : Nat := 0
  capAt : Nat := 0
  /-- LP_ENTER sent and not answered: when, and the target state (R408). -/
  lpSent : Option (Nat × Nat) := none
  lpRetry : Option Nat := none
  /-- The state to enter once the LP_ACK that accepts it has been sent (R408). -/
  lpAck : Option Nat := none
  /-- The kind of a running loopback, and a FLOOP_REQ not answered (R411). -/
  loopKind : Nat := 0
  floopSent : Option Nat := none
  /-- The tick from which a running loopback's checker counts (R410). -/
  loopFrom : Nat := 0
  /-- LPM_REQUEST has been written 0 (R409). -/
  wake : Bool := false
  /-- TRAIN began from the coefficients an L2 stay has kept (Table 13.3). -/
  stored : Bool := false
  /-- The latest eye scan (R399). -/
  eyeAt : Nat := 0
deriving DecidableEq, Repr, Inhabited

/-- An Ethernet port, beside its object (R412 to R416). Instants are LOCAL ticks. -/
structure EthSt where
  /-- The last Local or Remote Fault received and not yet 10 ms past. -/
  faultAt : Option Nat := none
  requests : Nat := 0
  requestAt : Nat := 0
  failLog : Option Nat := none
  resolvedAt : Option Nat := none
  refreshed : Bool := false
  echoes : List Nat := []
  memberAt : Nat := 0
deriving DecidableEq, Repr, Inhabited

/-- A request as the object server takes it: the fields of its PDU (Table 14.6) and its carrier. -/
structure SrvReq where
  src : Carrier := .mailbox
  tx : Nat := 0
  service : Nat := 1
  index : Nat := 0
  sub : Nat := 0
  segment : Nat := 0
  staged : Bool := false
  length : Nat := 0
  data : List Nat := []
  /-- A write of NVM that the request needs succeeds. -/
  nvm : Bool := true
deriving DecidableEq, Repr, Inhabited

/-- A BLOCK-WRITE that has not received all its segments (R438): its first one, the segments received, and when. -/
structure Transfer where
  first : SrvReq := {}
  segs : List (Nat × List Nat) := []
  at_ : Nat := 0
deriving DecidableEq, Repr, Inhabited

/-- A request answered, its tick and its response PDUs (R440). -/
structure Answered where
  req : SrvReq := {}
  at_ : Nat := 0
  pdus : List (List Nat) := []
deriving DecidableEq, Repr, Inhabited

/-- An entry of the staging set (R430): key, length in bytes, value. -/
structure StagedEntry where
  key : Nat := 0
  len : Nat := 0
  val : Nat := 0
deriving DecidableEq, Repr, Inhabited

/-- A write of an RW-live object of a control loop that waits for the start of the loop's next cycle (R264), and its request where
it has one: a commit's has none. -/
structure LoopWrite where
  loop : Nat := 0
  key : Nat := 0
  val : Nat := 0
  req : Option SrvReq := none
  /-- No cycle before this instant takes it, in 2⁻¹⁶ ns of ARRAY (R41). -/
  from_ : Nat := 0
deriving DecidableEq, Repr, Inhabited

/-- A write of SET of ARRAY whose step waits for its tick, and the request that it answers then (R198, R203). -/
structure SetWait where
  /-- The TIME96 word written. -/
  word : Nat := 0
  /-- The first tick at which it may be applied (R198). -/
  from_ : Nat := 0
  req : Option SrvReq := none
deriving DecidableEq, Repr, Inhabited

/-- A request sent into the tunnel, whose responses come back to a CAN port (R443). -/
structure TunnelWait where
  port : Nat := 0
  tx : Nat := 0
  service : Nat := 0
  index : Nat := 0
  sub : Nat := 0
  at_ : Nat := 0
deriving DecidableEq, Repr, Inhabited

/-- The object server, the staging set and the saved configuration (R427 to R449). The pending commit stands in COMMIT_STATE,
COMMIT_ID and COMMIT_CUE. -/
structure SrvSt where
  staging : List StagedEntry := []
  transfers : List Transfer := []
  answered : List Answered := []
  /-- Requests that wait for the house processor, oldest first. -/
  waiting : List SrvReq := []
  /-- EVENT PDUs for the tunnel, oldest first. -/
  events : List (List Nat) := []
  tunnelNo : Nat := 0
  /-- The numbers accepted from each origin, newest first. -/
  seen : List (Nat × List Nat) := []
  tunnels : List TunnelWait := []
  /-- Writes of ROLE_SWAP_REQUEST, oldest first, and writes of LOOPBACK 3 by lane, whose responses are still to be sent (R439, R411). -/
  swapHeld : List SrvReq := []
  loopHeld : List (Nat × SrvReq) := []
  /-- Writes of loop objects that wait for their loops' cycles, oldest first (R264). -/
  loopLive : List LoopWrite := []
  /-- Writes of SET of ARRAY that wait for the hold of their raw-frame boundary, oldest first (R203). -/
  sets : List SetWait := []
  /-- The tick at which the latest commit was applied: what arrives at it takes effect at the next boundary (R41). -/
  appliedAt : Option Nat := none
  /-- The tick of the latest HEARTBEAT. -/
  beatAt : Nat := 0
  /-- The key of the latest write passed to the peer, and the tick at which it arrived (R43). -/
  passed : Option (Nat × Nat) := none
  /-- An accepted write that the Understudy does not confirm, and the tick at which it arrived: it waits for PEER_WRITE_TIMEOUT. -/
  unconfirmed : Option (SrvReq × Nat) := none
  /-- The NODE_IDs before a write of one that is still to be answered: it applies after the response (Table 14.13). -/
  nodes : Option (Nat × Nat) := none
  /-- The saved configuration, by key and value (R449). -/
  saved : Option (List (Nat × Nat)) := none
deriving DecidableEq, Repr, Inhabited

/-- What a channel or injected item shows from an instant on: the tick at which it becomes visible, its instant and word, and
that the output due was lost (R460, R461). -/
structure MirPend where
  at_ : Nat := 0
  instant : Nat := 0
  word : Nat := 0
  lost : Bool := false
deriving DecidableEq, Repr, Inhabited

/-- A channel or injected item (Tables 15.3, 15.5): its value, the tick of the latest write and the writes not yet visible,
oldest first. -/
structure MirItem where
  instant : Nat := 0
  word : Nat := 0
  gen : Nat := 0
  valid : Bool := false
  lost : Bool := false
  wrote : Nat := 0
  pend : List MirPend := []
deriving DecidableEq, Repr, Inhabited

/-- The mailbox (Table 14.9): its request fields as 33 words from offset 0, the last DOORBELL, and the response. -/
structure MailboxSt where
  req : Vector Nat 33 := Vector.replicate 33 0
  doorbell : Nat := 0
  respSeq : Nat := 0
  respCount : Nat := 0
  busy : Bool := false
  rejected : Bool := false
  resp : Vector (List Nat) 14 := Vector.replicate 14 []
deriving DecidableEq, Repr, Inhabited

/-- The mirror port and the scrubbers, beside their objects (R453 to R476). -/
structure MirSt where
  /-- Slots 0 to 527, and the forwarded slots of HD0 and HD1. -/
  items : Vector MirItem 528 := Vector.replicate 528 {}
  fwd0 : Vector MirItem 496 := Vector.replicate 496 {}
  fwd1 : Vector MirItem 496 := Vector.replicate 496 {}
  /-- Core k's entry e at 4k + e. -/
  inj : Vector MirItem 192 := Vector.replicate 192 {}
  /-- The hub die whose memory drives the port, and the switch instant of a hand-over not yet followed. -/
  lead : Nat := 0
  switch : Option Nat := none
  /-- The holding register: the first word address of the item held, and its words. -/
  held : Option (Nat × List Nat) := none
  torn : Bool := false
  seen : Bool := false
  tornLog : Option Nat := none
  mbox : MailboxSt := {}
  /-- The ticks of the latest ECC records, by hub die and by memory die (R476). -/
  grLogs : Vector (List Nat) 2 := Vector.replicate 2 []
  mdLogs : Vector (List Nat) 2 := Vector.replicate 2 []
  /-- By hub die and bank: the pointer of ROUND-ROBIN, and the house processor's latest accesses in a row (R466). -/
  ptrs : Vector (Vector Nat 8) 2 := Vector.replicate 2 (Vector.replicate 8 0)
  runs : Vector (Vector Nat 8) 2 := Vector.replicate 2 (Vector.replicate 8 0)
  /-- The ticks at which the scrub passes in progress began, by hub die and by memory die (R469, R473). -/
  grFrom : Vector Nat 2 := Vector.replicate 2 0
  mdFrom : Vector Nat 2 := Vector.replicate 2 0
deriving DecidableEq, Repr, Inhabited

/-- Everything the hub holds but its mode. `objs` is the object store: key and value, sorted by key, with no entry equal
to the catalog's default (`Objs.wf`). -/
structure Hub where
  part : Part := {}
  objs : List (Nat × Nat) := []
  time : TimeSt := {}
  cb : Callboard := {}
  lanes : Vector LaneSt 16 := Vector.replicate 16 {}
  eths : Vector EthSt 8 := Vector.replicate 8 {}
  ins : Vector InSt 384 := Vector.replicate 384 {}
  drvs : Vector DrvSt 96 := Vector.replicate 96 {}
  cores : Vector CoreSt 48 := Vector.replicate 48 {}
  fes : Vector FeSt 4 := Vector.replicate 4 {}
  /-- The alignment buffers: hub die x, FE die f at x × 4 + f. -/
  align : Vector AlignSt 8 := Vector.replicate 8 {}
  /-- The next grid index the alignment buffers release (R46). -/
  relIdx : Nat := 0
  chains : Vector ChainSt 384 := Vector.replicate 384 {}
  /-- The latest output of every channel that has one: local, diagnostic and forwarded, by channel index. -/
  outs : List (Nat × OutRec) := []
  /-- The latest output of each channel that a hub die could compute, which is what a control loop takes (R47, R269). -/
  loopOuts : List (Nat × OutRec) := []
  /-- Injected records of each local channel, newest first, each with the instant from which a control loop takes it (R268). -/
  injOuts : List (Nat × List (Nat × OutRec)) := []
  dets : Vector DetSt 64 := Vector.replicate 64 {}
  cal : CalSt := {}
  eng : EngineSt := {}
  strings : Vector FlSt 8 := Vector.replicate 8 {}
  pats : Vector PatSt 4 := Vector.replicate 4 {}
  trig : TrigSt := {}
  streams : Vector StreamSt 64 := Vector.replicate 64 {}
  queues : Vector QueueSt 2 := Vector.replicate 2 {}
  fwds : Vector FwdSt 128 := Vector.replicate 128 {}
  wins : List DupWin := []
  lost : List LostRec := []
  gaps : List GapRec := []
  /-- Streams of records that commits have changed, the latest first: the key of STREAM or REC_STREAM, the old stream and the
  cue point (R349). -/
  recMoves : List (Nat × Nat × Nat) := []
  /-- Keys for which FWD_UNDECLARED has been logged, with the tick. -/
  undeclared : List (Nat × Nat × Nat) := []
  divergeLog : Option Nat := none
  slots : Vector SlotSt 16 := Vector.replicate 16 {}
  /-- The capture write buffers of HD0 and HD1 are full (R259). -/
  capFull0 : Bool := false
  capFull1 : Bool := false
  red : RedSt := {}
  mir : MirSt := {}
  pow : PowerSt := {}
  srv : SrvSt := {}
  out : List Out := []
  /-- How many free values have been drawn (the model's own field). -/
  free : Nat := 0
deriving DecidableEq, Repr, Inhabited

/-- The state of the block. `pending` is the queue of waiting commands, first in first out. -/
structure State where
  mb : ModeBlock := {}
  hub : Hub := {}
  pending : List Instr := []
deriving DecidableEq, Repr

/-- The machine right after reset: a DTK-H384 in CURTAIN-DOWN to which no supply has ever been applied, with factory NVM. -/
def State.reset : State := {}

end Sys2Proof.Machine
end

