-- ==== Sys2Proof/Machine/Ops.lean ====
section
/-! DEFINITION. The named operations every meaning is built from: the object store, the time bases, the callboard, the
free values and the two ways a meaning answers. -/
namespace Sys2Proof.Machine

/-! ### The object store -/

/-- The value stored under `k`, if any. -/
def Objs.find : List (Nat × Nat) → Nat → Option Nat
  | [], _ => none
  | e :: es, k => if e.1 = k then some e.2 else Objs.find es k

/-- The store with `k` removed. -/
def Objs.erase : List (Nat × Nat) → Nat → List (Nat × Nat)
  | [], _ => []
  | e :: es, k => if e.1 = k then Objs.erase es k else e :: Objs.erase es k

/-- The store with `k` holding `v`, in key order. -/
def Objs.insert : List (Nat × Nat) → Nat → Nat → List (Nat × Nat)
  | [], k, v => [(k, v)]
  | e :: es, k, v =>
    if k < e.1 then (k, v) :: e :: es else if e.1 = k then (k, v) :: es else e :: Objs.insert es k v

/-- A write of the store: a value equal to the default is not listed. -/
def Objs.put (o : List (Nat × Nat)) (k v : Nat) : List (Nat × Nat) :=
  if v = Catalog.dflt k then Objs.erase o k else Objs.insert o k v

/-- A read of the store: an unlisted object reads as its default. -/
def Objs.get (o : List (Nat × Nat)) (k : Nat) : Nat :=
  match Objs.find o k with
  | some v => v
  | none => Catalog.dflt k

/-- The keys rise strictly from `lo`, and no entry equals its default. -/
def Objs.wfFrom : Nat → List (Nat × Nat) → Bool
  | _, [] => true
  | lo, e :: es => decide (lo ≤ e.1) && decide (e.2 ≠ Catalog.dflt e.1) && Objs.wfFrom (e.1 + 1) es

/-- The canonical form of the store. -/
def Objs.wf (o : List (Nat × Nat)) : Bool := Objs.wfFrom 0 o

/-- The value in force of an object. -/
def Hub.get (h : Hub) (k : Nat) : Nat := Objs.get h.objs k

/-- The value in force of a BOOL object. -/
def Hub.flag (h : Hub) (k : Nat) : Bool := h.get k != 0

/-- The value in force of a signed object of `bits` bits. -/
def Hub.getI (h : Hub) (bits k : Nat) : Int := toSigned bits (h.get k)

/-- The hub with an object's value set. -/
def Hub.put (h : Hub) (k v : Nat) : Hub := { h with objs := Objs.put h.objs k v }

/-- The hub with a signed object's value set. -/
def Hub.putI (h : Hub) (bits k : Nat) (i : Int) : Hub := h.put k (ofSigned bits i)

/-- The hub with a BOOL object's value set. -/
def Hub.putB (h : Hub) (k : Nat) (b : Bool) : Hub := h.put k (b2n b)

/-- A counter object advanced by `n`, modulo its width. (DEDUCED: log 16.) -/
def Hub.bumpBy (h : Hub) (k n : Nat) : Hub := h.put k ((h.get k + n) % 256 ^ Catalog.len k)

/-- A counter object advanced by 1, modulo its width. (DEDUCED: log 16.) -/
def Hub.bump (h : Hub) (k : Nat) : Hub := h.bumpBy k 1

/-- One bit of an object set or cleared. -/
def Hub.putBit (h : Hub) (k i : Nat) (b : Bool) : Hub := h.put k (setBit (h.get k) i b)

/-- One bit of an object. -/
def Hub.bit (h : Hub) (k i : Nat) : Bool := bitOf (h.get k) i

/-- The hub after `f` has run for each element of a list, in order. -/
def Hub.forEach {α : Type} (h : Hub) (l : List α) (f : α → Hub → Hub) : Hub := l.foldl (fun a x => f x a) h

/-- The hub after `f` if `c`, otherwise unchanged. -/
def Hub.when (h : Hub) (c : Bool) (f : Hub → Hub) : Hub := if c then f h else h

/-- The configuration in force with the staging set applied. -/
def Hub.staged (h : Hub) : Hub := h.forEach h.srv.staging (fun e h => h.put e.key e.val)

/-! ### Vectors and free values -/

/-- Element `i` of a vector, the type's default outside it. -/
def vget {α : Type} [Inhabited α] {n : Nat} (v : Vector α n) (i : Nat) : α := v.toList.getD i default

/-- A vector with element `i` replaced, unchanged outside it. -/
def vset {α : Type} {n : Nat} (v : Vector α n) (i : Nat) (x : α) : Vector α n := v.setIfInBounds i x

/-- A vector with element `i` changed by `f`. -/
def vupd {α : Type} [Inhabited α] {n : Nat} (v : Vector α n) (i : Nat) (f : α → α) : Vector α n := vset v i (f (vget v i))

/-- A free natural number and the hub that has drawn it. (DESIGN CHOICE: log 6.) -/
def Hub.drawNat (h : Hub) : Nat × Hub := (Config.freeNat h.free, { h with free := h.free + 1 })

/-- A free integer and the hub that has drawn it. (DESIGN CHOICE: log 6.) -/
def Hub.drawInt (h : Hub) : Int × Hub := (Config.freeInt h.free, { h with free := h.free + 1 })

/-- `n` free integers. (DESIGN CHOICE: log 38.) -/
def Hub.drawInts (h : Hub) (n : Nat) : List Int × Hub :=
  ((List.range n).map (fun i => Config.freeInt (h.free + i)), { h with free := h.free + n })

/-- A free truth value and the hub that has drawn it. (DESIGN CHOICE: log 6.) -/
def Hub.drawBool (h : Hub) : Bool × Hub := (Config.freeBool h.free, { h with free := h.free + 1 })

/-- A quotient whose rounding the rules leave open: exact where it divides, otherwise either neighbour.
(DESIGN CHOICE: log 6, 37.) -/
def Hub.divOpen (h : Hub) (a : Int) (d : Nat) : Int × Hub :=
  if d = 0 then h.drawInt
  else if a % d = 0 then (a / d, h)
  else
    let r := h.drawBool
    (a / d + (if r.1 then 1 else 0), r.2)

/-- A rational rounded by a rule the specification does not give. (DESIGN CHOICE: log 6.) -/
def Hub.ratOpen (h : Hub) (x : Rat) : Int × Hub := h.divOpen x.num x.den

/-- A rational rounded to the nearest integer, a tie going to either neighbour. (DESIGN CHOICE: log 6.) -/
def Hub.ratNearest (h : Hub) (x : Rat) : Int × Hub :=
  let two := 2 * x.num
  let q := x.num / (x.den : Int)
  let r := two - 2 * q * x.den
  if r < x.den then (q, h) else if r > x.den then (q + 1, h)
  else
    let b := h.drawBool
    (q + (if b.1 then 1 else 0), b.2)

/-! ### Time (R16, R194, R195) -/

/-- 2⁻¹⁶ ns in one second. -/
def uSec : Nat := 65536 * 1000000000

/-- 2⁻¹⁶ ns in one millisecond. -/
def uMs : Nat := 65536 * 1000000

/-- 2⁻¹⁶ ns in one microsecond. -/
def uUs : Nat := 65536 * 1000

/-- 2⁻¹⁶ ns in one grid period of 500 ns. -/
def uGrid : Nat := 65536 * 500

/-- A frame of 10 µs in 2⁻¹⁶ ns. -/
def uFrame : Nat := 10 * uUs

/-- 4 ns ticks in one microsecond, millisecond and second. -/
def tUs : Nat := 250
def tMs : Nat := 250000
def tSec : Nat := 250000000

/-- A time in 2⁻⁴⁰ ns rounded to 2⁻¹⁶ ns, ties up (R195). -/
def uOfAcc (acc : Nat) : Nat := (acc + 2 ^ 23) / 2 ^ 24

/-- The TIME96 word of a time in 2⁻¹⁶ ns (Table 0.5). -/
def time96 (u dom : Nat) : Nat := u / uSec % 2 ^ 48 * 2 ^ 48 + u % uSec * 4 + dom

/-- The time in 2⁻¹⁶ ns that a TIME96 word states. -/
def uOfTime96 (w : Nat) : Nat := w / 2 ^ 48 * uSec + w % 2 ^ 48 / 4

/-- NANOSECONDS is at most 999,999,999 (R17). -/
def time96Ok (w : Nat) : Bool := w < 2 ^ 96 && w % 2 ^ 48 / 4 < uSec

/-- INCREMENT of a base in force; HOST's 0 follows ARRAY (R225). -/
def Hub.incr (h : Hub) (b : Nat) : Nat :=
  if b = 2 then 2 ^ 42
  else if b = 3 && h.get (Obj.tbIncrement 3) = 0 then h.get (Obj.tbIncrement 0)
  else h.get (Obj.tbIncrement b)

/-- A base's time in 2⁻⁴⁰ ns. -/
def Hub.acc (h : Hub) (b : Nat) : Nat :=
  if b = 0 then h.time.array else if b = 1 then h.time.site else if b = 2 then h.time.ticks * 2 ^ 42 else h.time.host

/-- A base's time in 2⁻¹⁶ ns. -/
def Hub.now (h : Hub) (b : Nat) : Nat := uOfAcc (h.acc b)

/-- A base's TIME96. -/
def Hub.nowWord (h : Hub) (b : Nat) : Nat := time96 (h.now b) b

/-- The hub with a base set. -/
def Hub.setAcc (h : Hub) (b acc : Nat) : Hub :=
  { h with time :=
      if b = 0 then { h.time with array := acc } else if b = 1 then { h.time with site := acc }
      else if b = 3 then { h.time with host := acc } else h.time }

/-- `n` ticks of 4 ns: every base adds its INCREMENT at each (R195). (DESIGN CHOICE: log 3; DEDUCED: log 149.) -/
def Hub.waitTicks (h : Hub) (n : Nat) : Hub :=
  { h with time := { h.time with
      ticks := h.time.ticks + n
      array := h.time.array + n * h.incr 0
      site := h.time.site + n * h.incr 1
      host := h.time.host + n * h.incr 3 } }

/-- The instant of a grid index in 2⁻¹⁶ ns of ARRAY. -/
def gridU (i : Nat) : Nat := i * uGrid

/-- Ticks until base `b` reaches the instant `u`, 0 where it already has. -/
def Hub.ticksTo (h : Hub) (b u : Nat) : Nat := ceilDiv (u * 2 ^ 24 - h.acc b) (h.incr b)

/-- The hub at the first tick at which base `b` has reached the instant `u`; time never runs back. (DESIGN CHOICE: log 3.) -/
def Hub.waitFor (h : Hub) (b u : Nat) : Hub := h.waitTicks (h.ticksTo b u)

/-- The hub at tick `t` of LOCAL, unchanged where that has passed. (DESIGN CHOICE: log 3.) -/
def Hub.waitTick (h : Hub) (t : Nat) : Hub := h.waitTicks (t - h.time.ticks)

/-- The raw-frame boundary at which what has arrived by now takes effect, in 2⁻¹⁶ ns of ARRAY (Table 1.4): the grid instant that
the present tick is the first to have reached, otherwise the next one. What arrives at the tick of a commit that has been applied
takes effect at the next one (R41). (DEDUCED: log 5, 29; DESIGN CHOICE: log 206.) -/
def Hub.boundary (h : Hub) : Nat :=
  let g := h.acc 0 / (2 ^ 24 * uGrid)
  if h.acc 0 % (2 ^ 24 * uGrid) < h.incr 0 && h.srv.appliedAt ≠ some h.time.ticks then g * uGrid else (g + 1) * uGrid

/-- The hub at the first tick of that boundary. -/
def Hub.waitBoundary (h : Hub) : Hub := h.waitFor 0 h.boundary

/-- ARRAY counts as locked (R201): FINE, COARSE or HOLDOVER. -/
def Hub.locked (h : Hub) : Bool := h.get (Obj.tbState 0) ≤ 2

/-- QUALITY of ARRAY or SITE: the larger of its state and what its upstream port reports (R205). -/
def Hub.quality (h : Hub) (b : Nat) : Nat := h.get (Obj.tbQuality b)

/-- The time an event is stamped with: ARRAY when it is locked, otherwise LOCAL (R85). -/
def Hub.stamp (h : Hub) : Nat := if h.locked then h.nowWord 0 else h.nowWord 2

/-- The instant of the last tick before an edge plus the TDC fraction `f` of a tick, in base `b` (R197). -/
def Hub.edgeStamp (h : Hub) (b f : Nat) : Nat := (h.acc b * 512 + f * h.incr b + 512 * 2 ^ 23) / (512 * 2 ^ 24)

/-! ### The callboard (R85 to R88) -/

/-- The SOURCE codes of Table 2.12. -/
def srcFe (f : Nat) : Nat := f
def srcHd (x : Nat) : Nat := 0x10 + x
def srcMd (x : Nat) : Nat := 0x20 + x
def srcPkg : Nat := 0x30

/-- The SOURCE code of a die (Table 2.12). -/
def dieSource (i : Nat) : Nat := if i < 4 then srcFe i else if i < 6 then srcHd (i - 4) else srcMd (i - 6)

/-- The bytes of a record, least significant first (Table 2.12). -/
def CbRecord.bytes (r : CbRecord) : List Nat :=
  toBytes 12 r.time ++ toBytes 2 r.code ++ toBytes 1 r.severity ++ toBytes 1 r.source ++ toBytes 4 r.seq ++
    toBytes 2 r.boot ++ toBytes 2 0 ++ toBytes 8 r.param

/-- The EVENT_SEQ after `n`: 0 is never given (R86). (DEDUCED: log 65.) -/
def nextSeq (n : Nat) : Nat := if n ≥ 2 ^ 32 - 1 then 1 else n + 1

/-- How many records were given after `seq` up to `top`: EVENT_SEQ runs from 1 to 2³² − 1. -/
def seqAge (top seq : Nat) : Nat := (top + (2 ^ 32 - 1) - seq) % (2 ^ 32 - 1)

/-- The record pushed out of a ring of `cap` records, if it is full. -/
def pushedOut (cap : Nat) (l : List CbRecord) : Option CbRecord := if l.length < cap then none else l.getLast?

/-- A record joins the ring of 4,096, and the NVM ring of 16,384 when it goes there. (DEDUCED: log 145.) -/
def Hub.pushRecord (h : Hub) (r : CbRecord) : Hub :=
  { h with cb := { h.cb with
      ring := (r :: h.cb.ring).take 4096
      nvm := if r.inNvm then (r :: h.cb.nvm).take 16384 else h.cb.nvm
      lastSeq := r.seq } }

/-- A record enters the callboard: the ring, NVM when its severity reaches CB_NVM_THRESHOLD, and CB_LOST counts a record that
neither ring holds any more (R86). (DEDUCED: log 145.) -/
def Hub.record (h : Hub) (r : CbRecord) : Hub :=
  let r := { r with inNvm := decide (r.severity ≥ h.get Obj.cbNvmThreshold) }
  let lostRing := match pushedOut 4096 h.cb.ring with
    | some o => !o.inNvm
    | none => false
  let lostNvm := match pushedOut 16384 h.cb.nvm with
    | some _ => r.inNvm
    | none => false
  ((h.pushRecord r).when lostRing (·.bump Obj.cbLost)).when lostNvm (·.bump Obj.cbLost)

/-- The NODE_ID in force on CAN port p. -/
def Hub.nodeOf (h : Hub) (p : Nat) : Nat :=
  match h.srv.nodes with
  | some n => if p = 0 then n.1 else n.2
  | none => h.get (Obj.nodeId p)

/-- A data field padded with 0x00 to a length that CAN FD has (R436). -/
def canPad (b : List Nat) : List Nat :=
  b ++ List.replicate ((([8, 12, 16, 20, 24, 32, 48, 64].find? (fun n => b.length ≤ n)).getD b.length) - b.length) 0

/-- The CAN frame of FUNCTION `fn` that carries `b` from port p (R442). -/
def Hub.canOut (h : Hub) (p fn : Nat) (b : List Nat) : Out := .can p (fn * 128 + h.nodeOf p) (canPad b)

/-- A hub die runs its firmware or its loader: without one CAN stays idle (R57, R80, R82). (DEDUCED: log 201.) -/
def Hub.speaks (h : Hub) : Bool :=
  (List.range 2).any (fun x => h.get (Obj.dieRole x) = 2 || h.get (Obj.dieRole x) = 3 || [3, 7].contains (field (h.get Obj.dieState) (16 + 4 * x) 4))

/-- An EVENT PDU leaves on each CAN port in use, and joins those for the tunnel where that is enabled (R443), when the severity
reaches CB_EVENT_THRESHOLD. (DEDUCED: log 66, 77, 201.) -/
def Hub.sendEvent (h : Hub) (severity : Nat) (pdu : List Nat) : Hub :=
  if severity ≥ h.get Obj.cbEventThreshold && h.speaks then
    let send (p : Nat) : List Out := if h.flag (Obj.canEnable p) && h.get (Obj.canStatus p) ≠ 2 then [h.canOut p 1 pdu] else []
    { h with
      out := h.out ++ send 0 ++ send 1
      srv := { h.srv with events := if h.flag Obj.eventTunnelEnable then h.srv.events ++ [pdu] else h.srv.events } }
  else h

/-- The role of a hub die (Table 11.1). -/
def Hub.role (h : Hub) (x : Nat) : Nat := h.get (Obj.dieRole x)

/-- The hub die that holds LEAD. -/
def Hub.leadDie (h : Hub) : Nat := if h.role 1 = 2 then 1 else 0

/-- The Lead's house processor is restarting: object service, time servo and callboard stop (R44, R81). -/
def Hub.stalled (h : Hub) : Bool := (vget h.red.dies h.leadDie).restarting

/-- A record joins the callboard with the next EVENT_SEQ, and is sent by the EVENT service (R86, R437). -/
def Hub.enterRecord (h : Hub) (r : CbRecord) : Hub :=
  let r := { r with seq := nextSeq h.cb.lastSeq }
  (h.record r).sendEvent r.severity (toBytes 8 (0x07 + r.seq % 256 * 256 + 32 * 2 ^ 50) ++ r.bytes)

/-- The callboard runs again: the events that waited for it are entered in their order. (DESIGN CHOICE: log 184.) -/
def Hub.enterWaiting (h : Hub) : Hub :=
  if h.stalled then h
  else h.cb.waiting.foldl Hub.enterRecord { h with cb := { h.cb with waiting := [] } }

/-- The events that still wait are kept with the ring, unsent, before the hub writes it to NVM and loses power.
(DESIGN CHOICE: log 184.) -/
def Hub.keepWaiting (h : Hub) : Hub :=
  h.cb.waiting.foldl (fun (h : Hub) r => h.record { r with seq := nextSeq h.cb.lastSeq })
    { h with cb := { h.cb with waiting := [] } }

/-- An event with the TIME given is logged, and sent by the EVENT service (R85 to R87, R437). While the Lead's house processor
restarts it waits. (DESIGN CHOICE: log 184.) -/
def Hub.logAt (h : Hub) (time code severity source param : Nat) : Hub :=
  let r : CbRecord := { time := time, code := code, severity := severity, source := source, seq := 0,
                        boot := h.get Obj.bootCount % 65536, param := param % 2 ^ 64 }
  if h.stalled then { h with cb := { h.cb with waiting := h.cb.waiting ++ [r] } } else h.enterRecord r

/-- An event is logged now. -/
def Hub.log (h : Hub) (code severity source param : Nat) : Hub := h.logAt h.stamp code severity source param

/-- Something is sent. (DESIGN CHOICE: log 153.) -/
def Hub.emit (h : Hub) (o : Out) : Hub := { h with out := h.out ++ [o] }

/-! ### Dies and modes (Tables 2.2, 2.9) -/

/-- A die's place in DIE_STATE: FE f is f, HD x is 4 + x, MD m is 6 + m. -/
def Hub.die (h : Hub) (i : Nat) : Nat := field (h.get Obj.dieState) (4 * i) 4

/-- The hub with a die's state code set. -/
def Hub.setDie (h : Hub) (i c : Nat) : Hub :=
  h.put Obj.dieState (h.get Obj.dieState - h.die i * 2 ^ (4 * i) + c % 16 * 2 ^ (4 * i))

/-- The part has the die (R2, R3). -/
def Part.has (p : Part) (i : Nat) : Bool := if i < 4 then i < p.fe else i % 2 = 0 || !p.simplex

/-- FE die f is UP. -/
def Hub.feUp (h : Hub) (f : Nat) : Bool := h.die f = 3

/-- The instant at which a command of the Lead to an output takes effect: not before 10 µs after the latest hand-over (R328, R330).
(DEDUCED: log 202.) -/
def Hub.outFrom (h : Hub) (u : Nat) : Nat :=
  match h.red.switched with
  | some t => if t ≤ u && u < t + uFrame then t + uFrame else u
  | none => u

/-- FE die f follows the Lead's commands (R32, R334): its output arbiter selects the die that holds LEAD, and hears it.
(DEDUCED: log 110; DESIGN CHOICE: log 207.) -/
def Hub.obeys (h : Hub) (f : Nat) : Bool :=
  let a := vget h.red.arbs f
  !a.silent && a.sel = h.leadDie

/-- The status word of an output arbiter (R327): the hub die selected, and the die links that carry valid blocks. -/
def ArbSt.status (a : ArbSt) : Nat := a.sel + 2 * b2n a.ok0 + 4 * b2n a.ok1

/-- FE die f takes grid marks: those of the die its arbiter selects, while the link to that die is valid (R32, R327, R329). -/
def Hub.marked (h : Hub) (f : Nat) : Bool :=
  let a := vget h.red.arbs f
  if a.sel = 0 then a.ok0 else a.ok1

/-- The other hub die. -/
def peerOf (x : Nat) : Nat := 1 - x

/-- The Lead's peer holds UNDERSTUDY. -/
def Hub.understudy (h : Hub) : Bool := h.role (peerOf h.leadDie) = 3

/-- Sampling and the filter chains run (Table 2.2, R63). -/
def ModeBlock.samples (b : ModeBlock) : Bool :=
  match b.mode with
  | .configure | .calibrate | .sync | .run | .runSimplex | .hold => true
  | .safe => !(b.safeFrom = .selfTest || b.safeFrom = .service)
  | _ => false

/-- Excitation, loops, control outputs and footlights run as configured. -/
def ModeBlock.drives (b : ModeBlock) : Bool := b.mode = .run || b.mode = .runSimplex || b.mode = .hold

/-- Streams are transmitted, and the trigger sequencer evaluates its conditions (Table 2.2, R61, R63). -/
def ModeBlock.streams (b : ModeBlock) : Bool :=
  match b.mode with
  | .run | .runSimplex => true
  | .safe => b.safeFrom = .run || b.safeFrom = .runSimplex || b.safeFrom = .hold
  | _ => false

/-- Capture slots fill: while the streams run, and in HOLD (Table 2.2, R61). -/
def ModeBlock.captures (b : ModeBlock) : Bool := b.streams || b.mode = .hold

/-- The hub dies run: neither CURTAIN-DOWN nor BOOT. (DEDUCED: log 119.) -/
def ModeBlock.up (b : ModeBlock) : Bool := !(b.mode = .curtainDown || b.mode = .boot)

/-- An idle tick of the timebase clock: one 4 ns tick while a rail is up, nothing in CURTAIN-DOWN. (DESIGN CHOICE: log 2.) -/
def idleTick (mb : ModeBlock) (h : Hub) : Hub := if mb.mode = .curtainDown then h else h.waitTicks 1

/-! ### How a meaning answers -/

/-- The code of a mode (Table 2.1). -/
def Mode.code : Mode → Nat
  | .curtainDown => 0 | .boot => 1 | .configure => 2 | .selfTest => 3 | .calibrate => 4 | .sync => 5 | .run => 6
  | .runSimplex => 7 | .hold => 8 | .service => 9 | .safe => 10 | .shutdown => 11

/-- The mode block after a transition (R57): a pending transition is over, and SAFE_CAUSE is cleared on leaving SAFE. -/
def ModeBlock.enter (b : ModeBlock) (m : Mode) (time cause : Nat) : ModeBlock :=
  { b with
    mode := m, entryTime := time, cause := cause, next := none, cue := none
    safeCause := if m = .safe then b.safeCause else 0
    safeFrom := if m = .safe then b.safeFrom else .curtainDown }

/-- A transition with its MODE_CHANGE record, stamped `time` (R56, R502). -/
def enterAt (b : ModeBlock) (h : Hub) (m : Mode) (time cause : Nat) : ModeBlock × Hub :=
  (b.enter m time cause, h.logAt time 0x0201 0 srcPkg (b.mode.code + m.code * 256 + cause * 65536))

/-- A transition now. -/
def enterMode (b : ModeBlock) (h : Hub) (m : Mode) (cause : Nat) : ModeBlock × Hub := enterAt b h m h.stamp cause

/-- A command whose effect is on the hub alone and depends on what the mode block allows. -/
def onHubM (f : ModeBlock → Hub → Hub) (s : State) : Host.Outcome State Fault Refusal :=
  .next { s with hub := f s.mb { s.hub with out := [] } }

/-- A command whose effect is on the hub alone. -/
def onHub (f : Mode → Hub → Hub) (s : State) : Host.Outcome State Fault Refusal :=
  .next { s with hub := f s.mb.mode { s.hub with out := [] } }

/-- A command whose effect may reach the mode as well; the queue is not its business. -/
def onBoth (f : ModeBlock → Hub → ModeBlock × Hub) (s : State) : Host.Outcome State Fault Refusal :=
  let r := f s.mb { s.hub with out := [] }
  .next { s with mb := r.1, hub := r.2 }

end Sys2Proof.Machine
end

