-- ==== Sys2Proof/Machine/TimeBases.lean ====
section
/-! DEFINITION. The four time bases, the servo of ARRAY and SITE, steps, and the root references (R194 to R209, R216,
R225). Writes that reach a base (SET, SOURCE, JUMP_ACCEPT, INCREMENT) have their effect here and are served by the object
server. -/
namespace Sys2Proof.Machine

/-- The servo of ARRAY (0) or SITE (1). -/
def Hub.servo (h : Hub) (b : Nat) : Servo := if b = 0 then h.time.servoA else h.time.servoS

/-- The hub with a servo changed. -/
def Hub.modServo (h : Hub) (b : Nat) (f : Servo → Servo) : Hub :=
  if b = 0 then { h with time := { h.time with servoA := f h.time.servoA } }
  else { h with time := { h.time with servoS := f h.time.servoS } }

/-- The hub with PPS_IN, PPS_OUT and the cross-check changed. -/
def Hub.modPins (h : Hub) (f : PinsTime → PinsTime) : Hub := { h with time := { h.time with pins := f h.time.pins } }

/-- SOURCE of a base is an uplink (R205). -/
def Hub.uplinkSource (h : Hub) (b : Nat) : Bool := h.get (Obj.tbSource b) = 1 || h.get (Obj.tbSource b) = 2

/-- The uplink a base follows, by its number x × 4 + p: SOURCE_PORT under UPLINK_FIXED and PTP, the selection under
UPLINK_AUTO. -/
def Hub.sourcePort (h : Hub) (b : Nat) : Option Nat :=
  if h.get (Obj.tbSource b) = 1 then (h.servo b).port else some (h.get (Obj.tbSourcePort b))

/-- The index among the sixteen ports of uplink x × 4 + p: x × 8 + p (R227). -/
def upPort (u : Nat) : Nat := u / 4 * 8 + u % 4

/-- The quality an upstream hub reports for a base on a port (R205). -/
def Hub.upstreamQuality (h : Hub) (b p : Nat) : Nat :=
  if b = 0 then h.get (Obj.portPeerQuality p) else (vget h.time.ports p).siteQuality

/-- QUALITY is brought up to date: the larger of the state and the upstream quality (R205). -/
def Hub.refreshQuality (h : Hub) (b : Nat) : Hub :=
  let own := h.get (Obj.tbState b)
  let up := if h.uplinkSource b then
      match h.sourcePort b with
      | some u => h.upstreamQuality b (upPort u)
      | none => 0
    else 0
  h.put (Obj.tbQuality b) (max own up)

/-- A state change of ARRAY or SITE, logged with its cause (Table 7.17): WARNING when the new state is HOLDOVER. -/
def Hub.setTbState (h : Hub) (b st cause : Nat) : Hub :=
  let old := h.get (Obj.tbState b)
  if old = st then h.refreshQuality b
  else
    let h := (h.put (Obj.tbState b) st).put (Obj.tbStateSince b) (h.nowWord b)
    let h := h.putB Obj.xchkValid (h.get (Obj.tbState 0) ≤ 1 && h.get (Obj.tbState 1) ≤ 1)
    (h.refreshQuality b).log 0x0701 (if st = 2 then 1 else 0) srcPkg (b + old * 16 + st * 256 + cause * 4096)

/-- ARRAY may be stepped in CONFIGURE, SYNC and SERVICE only, SITE and HOST in any mode (R202). -/
def stepAllowed (b : Nat) (m : Mode) : Bool := b ≠ 0 || m = .configure || m = .sync || m = .service

/-- A due step of ARRAY is held back in SELF-TEST and CALIBRATE (R202). -/
def stepDeferred (b : Nat) (m : Mode) : Bool := b = 0 && (m = .selfTest || m = .calibrate)

/-- The permitted values of INCREMENT (R195). -/
def incrLo : Nat := 0x03FF7CED9168
def incrHi : Nat := 0x040083126E98

/-- INCREMENT is set to the frequency part plus the phase term, held at its limit with STATUS.FREQ_LIMIT (R195).
(DESIGN CHOICE: log 81.) -/
def Hub.setIncr (h : Hub) (b : Nat) (phase : Int) : Hub :=
  let want : Int := (h.servo b).freq + phase
  let lim := want < incrLo || want > incrHi
  let v := (clampInt incrLo incrHi want).toNat
  let h := h.modServo b (fun s => { s with phase := phase })
  ((h.put (Obj.tbIncrement b) v).putBit (Obj.tbStatus b) 5 lim).putBit (Obj.tbStatus b) 2 (decide (phase ≠ 0))

/-- A slew: a phase term that opposes θ, no larger than SLEW_LIMIT and otherwise free (R202). (DESIGN CHOICE: log 81.) -/
def Hub.slew (h : Hub) (b : Nat) (theta : Int) : Hub :=
  let lim := h.get (Obj.tbSlewLimit b) * 2 ^ 42 / 1000000
  let d := h.drawNat
  let mag := d.1 % (lim + 1)
  let phase : Int := if theta > 0 then -(mag : Int) else if theta < 0 then mag else 0
  d.2.setIncr b phase

/-- The ticks of 1 µs by which the Lead names the tick of a step or an INCREMENT write ahead (R198).
(DESIGN CHOICE: log 185.) -/
def applyLead : Nat := 250

/-- A servo step of −θ is called for: it waits for its tick, is held back, or gives way to a slew (R202). -/
def Hub.callStep (h : Hub) (m : Mode) (b : Nat) (theta : Int) : Hub :=
  if stepAllowed b m then
    (h.modServo b (fun v => { v with
      step := some (-theta * 2 ^ 24, h.time.ticks + applyLead), force := false })).putBit (Obj.tbStatus b) 3 false
  else if stepDeferred b m then
    (h.modServo b (fun v => { v with force := true })).putBit (Obj.tbStatus b) 3 true
  else h.slew b theta

/-- The sum of the latest `n` offsets. -/
def Servo.sum (v : Servo) (n : Nat) : Int := sumInt (v.thetas.take n)

/-- The mean of the latest `n` offsets is at most `ps` in magnitude, with `n` of them held. -/
def Servo.meanWithin (v : Servo) (n ps : Nat) : Bool :=
  v.thetas.length ≥ n && (v.sum n).natAbs * 1000 ≤ ps * 65536 * n

/-- The mean of the latest `n` offsets exceeds `ps` in magnitude. -/
def Servo.meanBeyond (v : Servo) (n ps : Nat) : Bool :=
  v.thetas.length ≥ n && (v.sum n).natAbs * 1000 > ps * 65536 * n

/-- The upstream quality of a base is FINE. -/
def Hub.upstreamFine (h : Hub) (b : Nat) : Bool :=
  match h.sourcePort b with
  | some u => h.upstreamQuality b (upPort u) = 0
  | none => false

/-- The fine-entry criterion of Table 7.4. -/
def Hub.fineEntry (h : Hub) (b : Nat) : Bool :=
  let v := h.servo b
  match h.get (Obj.tbSource b) with
  | 0 => true
  | 3 => if h.flag Obj.refclkInValid then v.meanWithin 16 1000 else v.meanWithin 16 5000
  | 4 => v.meanWithin 16 50000
  | _ => v.meanWithin 8 100 && h.upstreamFine b

/-- The fine-exit criterion of Table 7.4. -/
def Hub.fineExit (h : Hub) (b : Nat) : Bool :=
  let v := h.servo b
  match h.get (Obj.tbSource b) with
  | 0 => false
  | 3 => if h.flag Obj.refclkInValid then v.meanBeyond 4 2500 else v.meanBeyond 4 12500
  | 4 => v.meanBeyond 4 125000
  | _ => v.meanBeyond 4 250 || !h.upstreamFine b

/-- The servo runs in every mode but CURTAIN-DOWN, BOOT and SHUTDOWN (Table 2.2). -/
def servoRuns (m : Mode) : Bool := m ≠ .curtainDown && m ≠ .boot && m ≠ .shutdown

/-- The correction of R202 in COARSE and FINE; a step held back is taken at the first measurement after the mode ends. -/
def Hub.correct (h : Hub) (m : Mode) (b : Nat) (theta : Int) : Hub :=
  if (h.servo b).force && stepAllowed b m then h.callStep m b theta
  else if theta.natAbs < uUs then h.slew b theta
  else if stepAllowed b m then h.callStep m b theta
  else if stepDeferred b m then h.callStep m b theta
  else h.slew b theta

/-- A measurement is refused: beyond JUMP_THRESHOLD in COARSE, FINE or HOLDOVER (Table 7.3). (DEDUCED: log 158.) -/
def Hub.refuses (h : Hub) (b : Nat) (theta : Int) : Bool :=
  h.get (Obj.tbState b) ≤ 2 && theta.natAbs > h.get (Obj.tbJumpThreshold b) * 65536

/-- The state changes of a base on a valid measurement (Table 7.3). (DEDUCED: log 158.) -/
def Hub.servoTake (h : Hub) (m : Mode) (b : Nat) (theta : Int) : Hub :=
  let st := h.get (Obj.tbState b)
  if st = 4 then ((h.modServo b (fun v => { v with thetas := [] })).setTbState b 3 0).callStep m b theta
  else if st = 3 then
    if (h.servo b).force || theta.natAbs ≥ uUs then h.callStep m b theta
    else ((h.modServo b (fun v => { v with thetas := [theta] })).setTbState b 1 0).correct m b theta
  else if h.refuses b theta then
    let h := if (h.servo b).refusing then h
      else h.log 0x0703 1 srcPkg (b + ofSigned 56 (clampInt (-(2 ^ 55)) (2 ^ 55 - 1) theta) * 256)
    (((h.modServo b (fun v => { v with refusing := true })).putBit (Obj.tbStatus b) 1 true).bump
      (Obj.tbJumpsRefused b)).setTbState b 2 2
  else
    let h := (h.modServo b (fun v => { v with thetas := (theta :: v.thetas).take 16, refusing := false })).putBit
      (Obj.tbStatus b) 1 false
    let h := h.putBit (Obj.tbStatus b) 4 false
    let h := if st = 2 then h.setTbState b 1 0
      else if st = 1 && h.fineEntry b then h.setTbState b 0 0
      else if st = 0 && h.fineExit b then h.setTbState b 1 0 else h.refreshQuality b
    h.correct m b theta

/-- The frequency the servo takes: the master's INCREMENT times the measured ratio on an uplink (R214), otherwise what it
has measured against its source. (DESIGN CHOICE: log 81.) -/
def Hub.servoFreq (h : Hub) (b measured : Nat) : Nat :=
  if h.uplinkSource b then
    match h.sourcePort b with
    | some u =>
      let p := upPort u
      ((divRoundUp ((vget h.time.ports p).masterIncr * (1000000000000 + h.getI 32 (Obj.portFreqRatio p))) 1000000000000)).toNat
    | none => measured
  else measured

/-- A SERVO_STALL is logged once the servo runs again (Table 7.3). -/
def Hub.logStall (h : Hub) (b : Nat) : Hub :=
  match (h.servo b).stalledAt with
  | some t => (h.modServo b (fun v => { v with stalledAt := none })).log 0x0705 2 srcPkg ((h.time.ticks - t) / tMs)
  | none => h

/-- The frequency part of a base's INCREMENT becomes `f`. -/
def Hub.setFreq (h : Hub) (b f : Nat) : Hub :=
  (h.modServo b (fun v => { v with freq := f })).putI 32 (Obj.tbFreqOffset b) ((2 ^ 42 - (f : Int)) * 1000000000000 / 2 ^ 42)

/-- One update of the servo of a base with the measurement waiting for it (R201, R202, R208, R214). A refused measurement is
discarded and keeps INCREMENT. Without one, a base under PPS_TOD takes its frequency from a valid REFCLK_IN, but in HOLDOVER, which
keeps INCREMENT (Table 7.2). The servo stands still
while the Lead's house processor restarts (R44). -/
def Hub.measure (h : Hub) (m : Mode) (b freq : Nat) : Hub :=
  if h.stalled then h else
  match (h.servo b).meas with
  | none =>
    if servoRuns m && h.get (Obj.tbSource b) = 3 && h.flag Obj.refclkInValid && h.get (Obj.tbState b) ≠ 2 then
      ((h.waitTicks applyLead).setFreq b freq).setIncr b (h.servo b).phase
    else h
  | some theta =>
    if !servoRuns m || h.get (Obj.tbSource b) = 0 then h else
    let h := h.logStall b
    let h := h.modServo b (fun v => { v with meas := none, lastUpdate := h.time.ticks })
    let h := (h.putI 64 (Obj.tbOffset b) theta).putBit (Obj.tbStatus b) 0 true
    if h.refuses b theta then h.servoTake m b theta else
    let h := (h.waitTicks applyLead).setFreq b (h.servoFreq b freq)
    (h.setIncr b 0).servoTake m b theta

/-- The lock level of SYNC_EXIT_LEVEL is reached: COARSE or FINE, or FINE (R201). -/
def Hub.lockLevel (h : Hub) : Bool := h.get (Obj.tbState 0) ≤ 1 - h.get Obj.syncExitLevel

/-- The first whole ARRAY second at least 1 s from now. -/
def Hub.defaultCue (h : Hub) : Nat := ceilDiv (h.now 0 + uSec) uSec * uSec

/-- In SYNC the run cue is known once the lock level is reached (R59): MODE_CUE, or the default where MODE_CUE is 0 or has
passed meanwhile, which is logged. -/
def syncCue (mb : ModeBlock) (h : Hub) : ModeBlock × Hub :=
  if mb.mode ≠ .sync || mb.cue.isSome || !h.lockLevel then (mb, h) else
  let w := h.get Obj.modeCue
  if w ≠ 0 && uOfTime96 w > h.now 0 then ({ mb with cue := some (uOfTime96 w) }, h)
  else ({ mb with cue := some h.defaultCue }, if w = 0 then h else h.log 0x0208 1 srcPkg (w / 65536))

/-- A valid offset measurement drives the servo of ARRAY (0) or SITE (1): the measurement that an edge, an exchange or the
PTP client has left for it. `freq` is the INCREMENT the servo has found from a root reference's frequency. (DEDUCED: log 88.) -/
def execTimeMeasurement (b : Fin 2) (freq : Nat) (s : State) : Host.Outcome State Fault Refusal :=
  onBoth (fun mb h => syncCue mb (h.measure mb.mode b freq)) s

/-! ### Steps (R203, R225) -/

/-- Picoseconds as 2⁻¹⁶ ns, rounded to the nearest. -/
def uOfPs (ps : Int) : Int := divRoundUp (ps * 65536) 1000

/-! ### REFCLK_OUT (R224) -/

/-- The GATE condition: always, ARRAY quality COARSE or better, or FINE only. -/
def Hub.gateOk (h : Hub) (gate : Nat) : Bool :=
  if gate = 0 then true else if gate = 1 then h.quality 0 ≤ 1 else h.quality 0 = 0

/-- Steering of a hold or an edge: the last tick at which A is below the instant, and the code φ (R121). -/
def steer (acc incr u : Nat) : Int := divRoundUp (512 * ((u * 2 ^ 24 : Nat) - (acc : Int))) incr

/-- An instant of base `b` as a pin edge is placed there, in ARRAY: the steering code of R121, from the base and its INCREMENT, moves
an edge in steps of 1/512 of a tick (R220). -/
def Hub.placedIn (h : Hub) (b u : Nat) : Nat :=
  uOfAcc (((h.acc 0 : Int) * 512 + steer (h.acc b) (h.incr b) u * h.incr 0) / 512).toNat

/-- An ARRAY instant as a pin edge is placed there. -/
def Hub.placed (h : Hub) (u : Nat) : Nat := h.placedIn 0 u

/-- The pin of REFCLK_OUT. -/
def pinRefclkOut : Nat := 4

/-- The period of REFCLK_OUT in 2⁻¹⁶ ns, 0 while the ball is held low. -/
def Hub.refclkPeriod (h : Hub) : Nat :=
  if !h.gateOk (h.get Obj.refclkOutGate) then 0
  else match h.get Obj.refclkOutFreq with
    | 1 => 100 * 65536
    | 2 => 40 * 65536
    | _ => 0

/-- The rising edges of REFCLK_OUT from the ARRAY instant `lo` up to `hi`: every n / frequency + REFCLK_OUT_DELAY, placed under
R220. Its falling edges are not given. (DESIGN CHOICE: log 17.) -/
def Hub.refclkEdges (h : Hub) (lo hi : Nat) : Hub :=
  let per := h.refclkPeriod
  if per = 0 then h else
  let d := uOfPs (h.getI 32 Obj.refclkOutDelay)
  let first := (((lo : Int) - d + per - 1) / per).toNat
  let edges := (List.range ((hi - lo) / per + 1)).filterMap (fun j =>
    let e : Int := ((first + j) * per : Nat) + d
    if (lo : Int) ≤ e && e < hi then some e.toNat else none)
  h.forEach edges (fun e h => h.emit (.pin pinRefclkOut true (h.placed e)))

/-- A step of ARRAY may be applied at this raw-frame boundary: its tick has come. -/
def Hub.stepDue (h : Hub) : Bool :=
  (match h.time.servoA.step with
   | some (_, k) => decide (k ≤ h.time.ticks)
   | none => false) || h.srv.sets.any (fun w => w.from_ ≤ h.time.ticks)

/-- The edges of REFCLK_OUT from a grid instant to the next, or to the first tick after it where ARRAY is stepped there: the step then
goes on with them (R224). (DESIGN CHOICE: log 17.) -/
def Hub.refclkFrom (h : Hub) (u : Nat) : Hub :=
  let next := uOfAcc (if h.acc 0 > u * 2 ^ 24 then h.acc 0 else h.acc 0 + h.incr 0)
  h.refclkEdges u (if h.stepDue then next else u + uGrid)

/-! ### Steps (R203) -/

/-- After ARRAY has moved to `acc`, the next grid instant to hold: instants stepped over are not held, and none is held
twice (R203). -/
def nextGridAfter (next acc : Nat) : Nat := max next (acc / (2 ^ 24 * uGrid) + 1)

/-- The index `k` of a cue's next instant, or none when it has no further one (R219). -/
def Hub.cueInstantAt (h : Hub) (c k : Nat) : Nat :=
  uOfTime96 (h.get (Obj.cueInstant c)) + k * h.get (Obj.cuePeriod c)

/-- Cues of base `b` whose next instant a forward step to `acc` has passed fire late, as reached at the step (R203). -/
def Hub.markLate (h : Hub) (b acc : Nat) : Hub :=
  let at_ := uOfAcc (if b = 0 then acc else h.acc 0)
  h.forEach (List.range 32) (fun c h =>
    if h.get (Obj.cueState c) % 4 = 1 && h.get (Obj.cueInstant c) % 4 = b &&
        h.cueInstantAt c (vget h.time.cueNext c) * 2 ^ 24 ≤ acc then
      { h with time := { h.time with cueLate := vset h.time.cueLate c (some at_) } }
    else h)

/-- A step of ARRAY from `old` to `acc`, in 2⁻⁴⁰ ns, over the background rounds (R203): a start passed over counts as reached, and
one already reached is not reached again. -/
def Hub.stepRounds (h : Hub) (old acc : Nat) : Hub :=
  let p := h.get Obj.calCyclePeriod * uSec * 2 ^ 24
  let now := h.time.ticks
  if acc < old then { h with cal := { h.cal with roundFloor := max h.cal.roundFloor (old / 2 ^ 24) } }
  else if p ≠ 0 && old / p < acc / p then { h with cal := { h.cal with roundLate := some now } }
  else h

/-- A base moves to `acc` at the present tick: TIME_STEP is logged with the tick given before the step, STEPS counts, cues
passed over are marked, and for ARRAY the grid goes on under R203. (DESIGN CHOICE: log 17.) -/
def Hub.stepTo (h : Hub) (b acc : Nat) (isSet : Bool) : Hub :=
  let old := h.acc b
  let size : Int := ((acc : Int) - (old : Int)) / 2 ^ 24
  let h := h.logAt (h.nowWord b) 0x0702 0 srcPkg (b + b2n isSet * 4 + ofSigned 56 size * 256)
  let h := if b < 2 then h.bump (Obj.tbSteps b) else h
  let h := if acc > old then h.markLate b acc else h
  let h := h.setAcc b acc
  if b = 0 then
    let h := { (h.stepRounds old acc) with time := { h.time with nextGrid := nextGridAfter h.time.nextGrid acc } }
    h.refclkEdges (h.now 0) (gridU h.time.nextGrid)
  else h

/-- The first tick after a raw-frame boundary (R203). -/
def Hub.waitBoundaryTick (h : Hub) : Hub := h.waitFor 0 h.boundary

/-- The hold of the raw-frame boundary that comes next is still to be taken: a step of ARRAY waits for it (R203). -/
def Hub.holdDue (h : Hub) (samples : Bool) : Bool := samples && decide (gridU h.time.nextGrid ≤ h.boundary)

/-- The servo's step waiting on a base takes place: ARRAY's at the first tick after a raw-frame boundary, whose hold comes first
where the mode samples. -/
def Hub.takeStep (h : Hub) (samples : Bool) (b : Nat) : Hub :=
  match (h.servo b).step with
  | none => h
  | some (d, k) =>
    let h := h.waitTick (max k (h.time.ticks + b2n (b ≠ 0)))
    if b = 0 && h.holdDue samples then h else
    let h := if b = 0 then h.waitFor 0 (h.boundary + 1) else h
    (h.modServo b (fun v => { v with step := none })).stepTo b ((h.acc b : Int) + d).toNat false

/-- A base is set: it has the value written at the raw-frame boundary that comes next, ARRAY from the first tick after it on
(R203, R225). (DESIGN CHOICE: log 185.) -/
def Hub.setBase (h : Hub) (b w : Nat) : Hub :=
  let g := h.boundary
  let h := h.waitFor 0 (g + b2n (b = 0))
  h.stepTo b (uOfTime96 w * 2 ^ 24 + (h.acc 0 - g * 2 ^ 24)) true

/-- The hub at the tick that the Lead names for a SET or an INCREMENT write. (DESIGN CHOICE: log 185.) -/
def Hub.waitLead (h : Hub) : Hub := h.waitTicks applyLead

/-- A SET of ARRAY waits for a hold. -/
def Hub.setWaits (h : Hub) (mb : ModeBlock) (b : Nat) : Bool := b = 0 && h.waitLead.holdDue mb.samples

/-- SET: the base holds the value written from the first raw-frame boundary on that the Lead can name to both dies; ARRAY not before
the hold of that boundary (R198, R203, R225). (DESIGN CHOICE: log 185.) -/
def Hub.applySet (h : Hub) (mb : ModeBlock) (b w : Nat) : Hub :=
  if h.setWaits mb b then
    { h with srv := { h.srv with sets := h.srv.sets ++ [{ word := w, from_ := h.time.ticks + applyLead }] } }
  else h.waitLead.setBase b w

/-- JUMP_ACCEPT: the base acquires again and the next measurement is stepped; logged at the write with cause 4 (R203). -/
def Hub.applyJumpAccept (h : Hub) (b : Nat) : Hub :=
  let st := h.get (Obj.tbState b)
  let h := h.modServo b (fun v => { v with force := true, refusing := false })
  if st ≤ 2 then (h.setTbState b 3 4)
  else h.log 0x0701 0 srcPkg (b + st * 16 + st * 256 + 4 * 4096)

/-- A base starts to acquire from the source its objects name: UNSET, and FINE at once under FREE_RUN (Table 7.3). -/
def Hub.restartSource (h : Hub) (b cause : Nat) : Hub :=
  let free := h.get (Obj.tbSource b) = 0
  let h := h.modServo b (fun v => { v with
    thetas := [], meas := none, force := false, refusing := false, port := none, better := [], step := none })
  let h := ((h.put (Obj.tbStatus b) (h.get (Obj.tbStatus b) / 128 % 2 * 128)).putBit (Obj.tbStatus b) 6 free).setTbState b 4 cause
  if free then (h.modServo b (fun v => { v with lastUpdate := h.time.ticks })).setTbState b 0 cause else h

/-- The bases at BOOT (Table 7.3, R68): every base at 0, ARRAY and SITE UNSET, INCREMENT 4 ns, no grid instant held.
(DESIGN CHOICE: log 20.) -/
def Hub.bootBases (h : Hub) : Hub :=
  let ports := h.time.ports
  let h := { h with time := { ports := ports.map (fun (_ : TtPort) => ({} : TtPort)) } }
  let h := (h.put (Obj.tbIncrement 0) (2 ^ 42)).put (Obj.tbIncrement 1) (2 ^ 42)
  h

/-! ### Loss and stall (R201, R208, R209) -/

/-- An uplink is ACTIVE (Table 13.2). -/
def Hub.laneActive (h : Hub) (l : Nat) : Bool := h.get (Obj.laneState l) = 5

/-- Eligibility of uplink `u` as a source (R215). -/
def Hub.eligible (h : Hub) (u : Nat) : Bool :=
  let p := upPort u
  h.laneActive p && (vget h.time.ports p).lastValid && h.get (Obj.portPeerQuality p) ≤ 2 && h.get (Obj.portPeerLevel p) ≤ 3

/-- The source of a base has been lost (Table 7.4). -/
def Hub.sourceLost (h : Hub) (b : Nat) : Bool :=
  match h.get (Obj.tbSource b) with
  | 0 => false
  | 1 =>
    match (h.servo b).port with
    | some u => (vget h.time.ports (upPort u)).failedInRow ≥ 8 && !(List.range 8).any (fun v => v ≠ u && h.eligible v)
    | none => true
  | 2 =>
    let u := h.get (Obj.tbSourcePort b)
    (vget h.time.ports (upPort u)).failedInRow ≥ 8 || !h.eligible u
  | 3 =>
    match h.time.pins.lastValid with
    | some t => h.now 2 ≥ t + 2500 * uMs
    | none => true
  | _ => h.get Obj.ptpState ≠ 3 || h.time.ptp.wrongScale

/-- A time source is declared lost: ACQUIRING returns to UNSET, COARSE and FINE enter HOLDOVER (Table 7.3). -/
def Hub.loseSource (h : Hub) (b : Nat) : Hub :=
  let h := h.putBit (Obj.tbStatus b) 0 false
  match h.get (Obj.tbState b) with
  | 3 => h.setTbState b 4 1
  | 1 => h.setTbState b 2 1
  | 0 => h.setTbState b 2 1
  | _ => h

/-- The source of ARRAY (0) or SITE (1) is lost; under PPS_TOD 2.5 s pass since the last valid edge. -/
def execTimeSourceLost (b : Fin 2) (s : State) : Host.Outcome State Fault Refusal :=
  onHub (fun m h =>
    if !servoRuns m then h else
    let h := if h.get (Obj.tbSource b) = 3 then
        match h.time.pins.lastValid with
        | some t => h.waitFor 2 (t + 2500 * uMs)
        | none => h
      else h
    if h.sourceLost b then h.loseSource b else h) s

/-- No servo update for 2 s: a locked base enters HOLDOVER with SERVO_STALL (Table 7.3). -/
def execServoStall (b : Fin 2) (s : State) : Host.Outcome State Fault Refusal :=
  onHub (fun m h =>
    let st := h.get (Obj.tbState b)
    if !servoRuns m || st > 1 || h.get (Obj.tbSource b) = 0 then h else
    let h := h.waitTick ((h.servo b).lastUpdate + 2 * tSec)
    let since := (h.servo b).lastUpdate
    ((h.modServo b (fun v => { v with stalledAt := some since })).putBit (Obj.tbStatus b) 4 true).setTbState b 2 3) s

/-- REFCLK_IN enters or leaves ±100 ppm of its selected frequency (R208): logged as a source change with the same SOURCE. -/
def execRefclkInValidChange (valid : Bool) (s : State) : Host.Outcome State Fault Refusal :=
  onHub (fun m h =>
    if m = .curtainDown || m = .boot || h.flag Obj.refclkInValid = valid then h else
    let h := h.putB Obj.refclkInValid valid
    let port := upPort (h.get (Obj.tbSourcePort 0))
    h.log 0x0704 0 srcPkg (h.get (Obj.tbSource 0) * 16 + port * 256 + port * 65536 + b2n valid * 2 ^ 24)) s

/-! ### PPS_IN (R206, R207) -/

/-- A PPS_IN edge follows the previous valid one by 1 s ± 200 µs, or is a first edge (R206). -/
def ppsValid (last : Option Nat) (local_ : Nat) : Bool :=
  match last with
  | none => true
  | some t => local_ ≥ t + 2500 * uMs || (local_ ≥ t + (uSec - 200 * uUs) && local_ ≤ t + (uSec + 200 * uUs))

/-- The ARRAY second a valid edge marks: TOD_NEXT when it applies, else the next second counted, else the nearest whole
second of ARRAY (R206, R207). -/
def Hub.ppsSecond (h : Hub) (local_ arr : Nat) : Nat × Bool :=
  match h.time.pins.todNext with
  | some (sec, since) =>
    if local_ ≥ since + uMs then (sec, true)
    else match h.time.pins.second with
      | some p => (p + 1, false)
      | none => ((arr + uSec / 2) / uSec, false)
  | none =>
    match h.time.pins.second with
    | some p => (p + 1, false)
    | none => ((arr + uSec / 2) / uSec, false)

/-- A valid PPS_IN edge: TOD_NEXT is applied, θ is reported, and it is a measurement of each base with SOURCE PPS_TOD. -/
def Hub.ppsEdge (h : Hub) (local_ arr site : Nat) : Hub :=
  let sec := h.ppsSecond local_ arr
  let counted := h.time.pins.second.isSome || sec.2
  let delay := uOfPs (h.getI 32 Obj.ppsInDelay)
  let onTime : Int := (sec.1 * uSec : Nat) + delay
  let theta : Int := arr - onTime
  let h := h.modPins (fun p => { p with
    lastValid := some local_
    second := if counted then some sec.1 else none
    todNext := if sec.2 then none else p.todNext })
  let h := ((h.put Obj.ppsInLast (time96 arr 0)).putI 64 Obj.ppsInOffset theta).bump Obj.ppsInEdges
  let h := if h.get (Obj.tbSource 0) = 3 && counted then h.modServo 0 (fun v => { v with meas := some theta }) else h
  if h.get (Obj.tbSource 1) = 3 && counted then
    h.modServo 1 (fun v => { v with meas := some ((site : Int) - onTime) }) else h

/-- An irregular PPS_IN edge is counted, and logged at most once per 60 s (R206). -/
def Hub.ppsIrregular (h : Hub) (local_ : Nat) : Hub :=
  let h := h.bump Obj.ppsInIrregular
  let due := match h.time.pins.irregularLog with
    | some t => decide (local_ ≥ t + 60 * uSec)
    | none => true
  if due then
    let dev : Int := match h.time.pins.lastValid with
      | some t => ((local_ : Int) - t - uSec) / 65536
      | none => 0
    (h.modPins (fun p => { p with irregularLog := some local_ })).log 0x070C 1 srcPkg
      (ofSigned 32 (clampInt (-(2 ^ 31)) (2 ^ 31 - 1) dev))
  else h

/-- A rising edge on PPS_IN, `dt` ticks on and `f`/512 of a tick after the last tick (R197, R206). -/
def execPpsInEdge (dt : Nat) (f : Fin 512) (s : State) : Host.Outcome State Fault Refusal :=
  onHub (fun m h =>
    if m = .curtainDown || m = .boot then h else
    let h := h.waitTicks dt
    let l := h.edgeStamp 2 f
    if ppsValid h.time.pins.lastValid l then h.ppsEdge l (h.edgeStamp 0 f) (h.edgeStamp 1 f) else h.ppsIrregular l) s

/-- TOD_NEXT takes effect at the next raw-frame boundary (R207). -/
def Hub.applyTodNext (h : Hub) (w : Nat) : Hub :=
  let wait := h.boundary - h.now 0
  h.modPins (fun p => { p with todNext := some (w / 2 ^ 48, h.now 2 + wait) })

/-! ### The cross-check of SITE against ARRAY (R216) -/

/-- SITE − ARRAY in 2⁻¹⁶ ns at the present tick. -/
def Hub.siteMinusArray (h : Hub) : Int := ((h.time.site : Int) - h.time.array) / 2 ^ 24

/-- The difference is sampled at a grid instant. -/
def Hub.xchkSample (h : Hub) : Hub :=
  let d := h.siteMinusArray
  h.modPins (fun p => { p with
    xchkSum := p.xchkSum + d
    xchkSq := p.xchkSq + d.natAbs * d.natAbs
    xchkMax := if d.natAbs > p.xchkMax.natAbs then d else p.xchkMax
    xchkN := p.xchkN + 1 })

/-- The end of an ARRAY second: mean, largest value and rms of SITE − ARRAY are reported and checked against XCHK_LIMIT,
which is logged again only after 60 s within the limit (R216). (DESIGN CHOICE: log 82.) -/
def Hub.xchkReport (h : Hub) : Hub :=
  let p := h.time.pins
  let m := h.divOpen p.xchkSum p.xchkN
  let mean := m.1
  let q := m.2.divOpen p.xchkSq p.xchkN
  let root := sqrtNat q.1.toNat
  let e := q.2.drawBool
  let rms := if root * root = q.1.toNat || !e.1 then root else root + 1
  let h := e.2
  let valid := (h.get (Obj.tbState 0) ≤ 1) && (h.get (Obj.tbState 1) ≤ 1)
  let h := (((h.putI 64 Obj.xchkMean mean).putI 64 Obj.xchkMax p.xchkMax).put Obj.xchkRms rms).putB
    Obj.xchkValid valid
  let h := h.put Obj.xchkTime (time96 (h.now 0 / uSec * uSec) 0)
  let beyond : Bool := mean.natAbs > h.get Obj.xchkLimit * 65536
  let quiet := match p.xchkQuiet with
    | some t => decide (h.time.ticks ≥ t + 60 * tSec)
    | none => false
  let logNow := valid && beyond && (!p.xchkLogged || quiet)
  let h := h.modPins (fun p => { p with
    xchkSum := 0, xchkSq := 0, xchkMax := 0, xchkN := 0
    xchkLogged := p.xchkLogged || logNow
    xchkQuiet := if beyond then none else if p.xchkQuiet.isSome then p.xchkQuiet else some h.time.ticks })
  if logNow then h.log 0x0707 1 srcPkg (ofSigned 64 mean) else h

/-- The next whole ARRAY second is reached and the cross-check reports. -/
def execXchkSecond (s : State) : Host.Outcome State Fault Refusal :=
  onHub (fun m h =>
    if m = .curtainDown || m = .boot then h
    else (h.waitFor 0 ((h.now 0 / uSec + 1) * uSec)).xchkReport) s

/-- A change of what hub die x keeps for the redundancy. -/
def Hub.modHdie (h : Hub) (x : Nat) (g : DieRed → DieRed) : Hub := { h with red := { h.red with dies := vupd h.red.dies x g } }

/-- Hub die x has logged a fault in the frame at hand, which a mismatch can be attributed to (R326). -/
def Hub.noteFault (h : Hub) (x : Nat) : Hub :=
  let n := h.now 0 / uFrame
  h.modHdie x (fun v => { v with faultFrames := n :: v.faultFrames.filter (fun m => m ≠ n && m + 3 > n) })

end Sys2Proof.Machine
end

