-- ==== Sys2Proof/Machine/FrontEnd.lean ====
section
/-! DEFINITION. Input pairs, ranges, overload and neighbours, and the excitation drivers (R89 to R119). -/
namespace Sys2Proof.Machine

/-! ### Grid, ranges and thresholds -/

/-- LSB₁₈ of range r in the unit of held voltages. -/
def lsbOf (r : Nat) : Nat := 256 * 4 ^ (3 - r)

/-- The FE die, core and input of a local channel (R8). -/
def chFe (n : Nat) : Nat := n / 96
def chCore (n : Nat) : Nat := n / 8
def chInput (n : Nat) : Nat := n % 8

/-- The driver that serves a local channel: f × 24 + e (R102). -/
def chDrv (n : Nat) : Nat := n / 4

/-- The clamp codes and the thresholds in raw codes (R92). -/
def codeMax : Int := 131071
def codeMin : Int := -131072
def upThreshold : Int := 114688
def downThreshold : Int := 26214

/-- The input pair of a channel. -/
def Hub.ch (h : Hub) (n : Nat) : InSt := vget h.ins n

/-- The hub with an input pair changed. -/
def Hub.modCh (h : Hub) (n : Nat) (f : InSt → InSt) : Hub := { h with ins := vupd h.ins n f }

/-- A driver. -/
def Hub.drv (h : Hub) (d : Nat) : DrvSt := vget h.drvs d

/-- The hub with a driver changed. -/
def Hub.modDrv (h : Hub) (d : Nat) (f : DrvSt → DrvSt) : Hub := { h with drvs := vupd h.drvs d f }

/-- The channel is in AUTO. -/
def Hub.auto (h : Hub) (n : Nat) : Bool := h.get (Obj.chRangeMode n) = 1

/-! ### The auto-range decision (R94 to R98) -/

/-- A code of range q on the scale of range r, exactly (R95). -/
def scaledCode (c : Int) (q r : Nat) : Rat := (c : Rat) * 4 ^ r / 4 ^ q

/-- The newest converted sample at or before grid index `j` counts as itself; one not held since sampling started counts as 0
in the range in force. -/
def InSt.codeAt (v : InSt) (j : Int) : Rat :=
  if j < v.startIdx then 0
  else
    match v.conv.find? (fun e => (e.1 : Int) = j) with
    | some e => scaledCode e.2.2 e.2.1 v.range
    | none => 0

/-- P of R95 for the decision of hold `i`. -/
def InSt.predict (v : InSt) (i : Nat) : Rat :=
  let got := v.conv.any (fun e => e.1 + 1 = i) || i < v.startIdx + 1
  let a : Int := if got then (i : Int) - 1 else (i : Int) - 2
  let m : Rat := if got then 2 else 4
  let x := v.codeAt a
  let dx := x - v.codeAt (a - 1)
  ratAbs x + m * ratAbs dx

/-- The finest allowed range in which P stays at or below the up threshold, from `n` toward `coarsest` (R96). -/
def stepUpTo (p : Rat) (r coarsest : Nat) : Nat → Nat → Nat
  | 0, n => n
  | fuel + 1, n =>
    if n > coarsest && p > (upThreshold : Rat) * 4 ^ (r - n) then stepUpTo p r coarsest fuel (n - 1) else n

/-- What a decision says: the next range, the down count and DOWN_PENDING. `hold` defers a step down (R113). -/
structure RangeDecision where
  next : Nat
  down : Nat
  pending : Bool
deriving DecidableEq, Repr

/-- The decision of R95. A step down that is deferred past a window's averaging (R113) is not latched: it is decided anew at the
first decision after it, and a down count that has cleared by then drops it. (DESIGN CHOICE: log 170.) -/
def decideRange (v : InSt) (i downCount coarsest finest : Nat) (hold : Bool) : RangeDecision :=
  let p := v.predict i
  let r := v.range
  if p > (upThreshold : Rat) && r > coarsest then ⟨stepUpTo p r coarsest 4 (r - 1), 0, false⟩
  else if v.down = downCount && r < finest then
    if 4 * p < (upThreshold : Rat) then
      if hold then ⟨r, v.down, false⟩ else ⟨r + 1, 0, false⟩
    else ⟨r, v.down, true⟩
  else ⟨r, v.down, false⟩

/-- P and s of a driver's windows, in grid periods (R105). -/
def presetRaw (p : Nat) : Nat := [16, 20, 40, 80, 200, 400, 1000, 2000].getD p 16
def Hub.pulsePeriod (h : Hub) (d : Nat) : Nat := h.get (Obj.excPulseEvery d) * presetRaw (h.get (Obj.excPulsePreset d))
def Hub.pulseOffset (h : Hub) (d : Nat) : Nat := 2 * h.get (Obj.excStagger d)

/-- The grid index of the window start at or before grid index `i`, for windows that start at `lo` or later. -/
def Hub.windowAt (h : Hub) (d i : Nat) : Option Nat :=
  let p := h.pulsePeriod d
  let s := h.pulseOffset d
  if p = 0 || i < s then none
  else
    let t0 := (i - s) / p * p + s
    if gridU t0 ≥ (h.drv d).winFrom then some t0 else none

/-- Grid index `i` lies in the averaging interval of a gated channel's window (R111). -/
def Hub.averaged (h : Hub) (n i : Nat) : Option Nat :=
  let d := chDrv n
  if !h.flag (Obj.chGated n) || h.get (Obj.excMode d) ≠ 3 || !(h.drv d).active then none
  else
    match h.windowAt d i with
    | some t0 =>
      if i ≥ t0 + h.get (Obj.chExcSettle n) && i < t0 + h.get (Obj.excPulseWidth d) then some t0 else none
    | none => none

/-- A hold of channel n at grid index `i` joins those to be averaged where it lies in an averaging interval: what a window takes is
settled at its holds, whatever follows them. (DESIGN CHOICE: log 196.) -/
def Hub.noteWindow (h : Hub) (n i : Nat) : Hub :=
  match h.averaged n i with
  | none => h
  | some t0 =>
    let w : WinHold := { idx := i, t0 := t0, first := t0 + h.get (Obj.chExcSettle n), last := t0 + h.get (Obj.excPulseWidth (chDrv n)) - 1 }
    h.modCh n (fun v => { v with wins := (w :: v.wins).take 8 })

/-- The window hold of channel n at grid index `i`. -/
def Hub.winHold (h : Hub) (n i : Nat) : Option WinHold := (h.ch n).wins.find? (fun w => w.idx = i)

/-- The decision of one AUTO channel for hold `i` of the grid. -/
def Hub.rangeStep (h : Hub) (i n : Nat) : Hub :=
  if !h.auto n || !h.feUp (chFe n) then h else
  let v := h.ch n
  let d := decideRange v i (h.get (Obj.chDownCount n)) (h.get (Obj.chRangeCoarsest n)) (h.get (Obj.chRangeFinest n))
    (h.averaged n i).isSome
  let h := h.modCh n (fun v => { v with next := some d.next, down := d.down })
  let h := h.putBit (Obj.chFeStatus n) 8 d.pending
  h.when (d.next ≠ v.range) (·.bump (Obj.chRangeChanges n))

/-! ### Holding a channel (R90, R99, R100, R114) -/

/-- What the environment shows at a hold: the differential voltage of each channel in LSB₁₈(G3) / 256, the channels whose
common-mode comparator is tripped, and the sensed output of each driver in 1.25 mV / 65,536 (nominal where not listed). -/
def holdVolts (volts : List Int) (n : Nat) : Int := volts.getD n 0

/-- Beyond 150 % of the full scale of range r. -/
def beyond150 (v : Int) (r : Nat) : Bool := 2 * v.natAbs > 3 * 131072 * lsbOf r

/-- The range of hold in force for a channel. -/
def Hub.heldRange (h : Hub) (n : Nat) : Nat :=
  match (h.ch n).next with
  | some r => r
  | none => (h.ch n).range

/-- One channel holds at grid index `i` (R90, R99, R100). -/
def holdChannel (v : InSt) (i r : Nat) (volts : Int) (trip drvFault : Bool) (ratio : Rat) : InSt :=
  let beyond := beyond150 volts r
  { v with
    range := r, next := none, volts := volts, idx := i, cm := trip, beyond := beyond
    ovr := trip || beyond || v.ovLeft > 0
    epi := beyond || v.ovLeft > 0
    nbrSrc := trip || beyond || v.nbrLeft > 0
    ovLeft := if beyond then 2 else v.ovLeft - 1
    nbrLeft := if beyond || trip then 2 else v.nbrLeft - 1
    cmClear := if trip then 0 else v.cmClear + 1
    exc := drvFault || v.excLeft > 0
    fault := drvFault
    ratio := ratio
    excLeft := v.excLeft - 1 }

/-- CM_FAULT is logged at the first tripped hold after 1 ms clear (R90). Its polarity bit is the sign of the differential voltage,
the one that also forces the code: Table 3.11 does not say whose polarity it is. (DESIGN CHOICE: log 166.) -/
def Hub.noteTrip (h : Hub) (n : Nat) (volts : Int) (trip : Bool) (clear : Nat) : Hub :=
  if trip && clear ≥ 2000 then h.log 0x0301 1 (srcFe (chFe n)) (n + b2n (volts < 0) * 4096) else h

/-- A channel's hold: its state, FE_STATUS, OVERLOAD_EPISODES and CM_FAULT. -/
def Hub.holdOne (h : Hub) (i : Nat) (volts : List Int) (trips : List Nat) (n : Nat) : Hub :=
  let v := h.ch n
  let r := h.heldRange n
  let d := h.drv (chDrv n)
  let trip := trips.contains n
  let x := holdVolts volts n
  let w := holdChannel v i r x trip d.fault.isSome d.ratio
  let h := h.modCh n (fun _ => w)
  let st := h.get (Obj.chFeStatus n)
  let st := b2n (h.auto n) * (st / 256 % 2) * 256 + st / 32 % 8 * 32 + r + b2n (h.auto n) * 4 + b2n trip * 8 + b2n w.beyond * 16
  let h := h.put (Obj.chFeStatus n) st
  let h := h.when (w.beyond && v.ovLeft = 0) (·.bump (Obj.chOverloadEpisodes n))
  (h.noteTrip n x trip v.cmClear).noteWindow n i

/-- A channel holds for an injected sequence between two grid holds (R90, R99, R100): such a hold counts as a hold for the
common-mode fault, the recovery, the neighbour rule and the episodes. (DEDUCED: log 167.) -/
def Hub.holdInjected (h : Hub) (n : Nat) (volts : Int) (trip : Bool) : InjEntry × Hub :=
  let v := h.ch n
  let beyond := beyond150 volts v.range
  let h := h.modCh n (fun v => { v with
    epi := v.epi || beyond
    ovLeft := if beyond then 2 else v.ovLeft
    nbrLeft := if beyond || trip then 2 else v.nbrLeft
    cmClear := if trip then 0 else v.cmClear })
  let h := (h.putBit (Obj.chFeStatus n) 3 trip).putBit (Obj.chFeStatus n) 4 beyond
  let h := h.when (beyond && !v.epi) (·.bump (Obj.chOverloadEpisodes n))
  ({ input := chInput n, volts := volts, cm := trip, ovr := trip || beyond || v.epi, nbrSrc := trip || beyond || v.nbrSrc },
    h.noteTrip n volts trip v.cmClear)

/-! ### Excitation (R102 to R116) -/

/-- The driver drives current rather than voltage. -/
def Hub.excCurrent (h : Hub) (d : Nat) : Bool :=
  h.get (Obj.excMode d) = 2 || (h.get (Obj.excMode d) = 3 && h.get (Obj.excPulseKind d) = 1)

/-- The output of the driver is on: turned on, not latched off, and inside a window if pulsed. -/
def Hub.excOn (h : Hub) (d : Nat) : Bool :=
  (h.drv d).active && !h.bit (Obj.excStatus d) 3 && h.get (Obj.excMode d) ≠ 0 &&
    (h.get (Obj.excMode d) ≠ 3 || (h.drv d).window.isSome)

/-- STATUS.ON follows the output. -/
def Hub.refreshExc (h : Hub) (d : Nat) : Hub := h.putBit (Obj.excStatus d) 0 (h.excOn d)

/-- An excitation change at the next raw-frame boundary (R114, R115): the words of the served channels held from there on
carry EXC, EXC_SETTLE + 1 of them, and a channel with EXC_RESYNC is reset instead after EXC_SETTLE. -/
def Hub.excChange (h : Hub) (d : Nat) (edge : Bool) : Hub :=
  (h.forEach [4 * d, 4 * d + 1, 4 * d + 2, 4 * d + 3] (fun n h =>
    let settle := h.get (Obj.chExcSettle n)
    let resync := !edge && h.flag (Obj.chExcResync n) && !h.flag (Obj.chGated n)
    let at_ := h.time.nextGrid + settle
    h.modCh n (fun v => { v with
      excLeft := max v.excLeft (if resync then settle else settle + 1)
      resyncAt := if resync then some at_ else v.resyncAt }))).refreshExc d

/-- The driver turns off without a fault of its own: an excitation change, for a PULSED driver between two windows too (R114). One
that is latched off stays in fault until FAULT_CLEAR (R104). A fault that ends so logs no EXC_FAULT_CLEARED.
(DESIGN CHOICE: log 194.) -/
def Hub.excOff (h : Hub) (d : Nat) : Hub :=
  let latched := h.bit (Obj.excStatus d) 3
  let was := (h.drv d).active && h.get (Obj.excMode d) ≠ 0 && !latched
  let h := h.modDrv d (fun v => { v with
    active := false, turnOn := none, window := none, fault := if latched then v.fault else none })
  let h := (h.putBit (Obj.excStatus d) 1 false).putBit (Obj.excStatus d) 2 false
  if was then h.excChange d false else h.refreshExc d

/-- All excitation turns off (R57, R66, R75). -/
def Hub.excAllOff (h : Hub) : Hub := h.forEach (List.range 96) (fun d h => h.excOff d)

/-- Excitation starts with its stagger at a run cue (R116): driver e of each die at cue + e µs in modes 1, 2 and 4, pulsed
drivers with the first window at or after the cue; the drivers of an FE die whose arbiter lets the Lead's commands through (R32).
(DEDUCED: log 202.) -/
def Hub.excStart (h : Hub) (cue : Nat) : Hub :=
  h.forEach ((List.range 96).filter (fun d => h.obeys (d / 24))) (fun d h =>
    let m := h.get (Obj.excMode d)
    h.modDrv d (fun v => { v with
      active := m = 3
      turnOn := if m = 1 || m = 2 || m = 4 then some (h.outFrom (cue + d % 24 * uUs)) else none
      window := none, winFrom := cue, winNext := cue }))

/-- A sensed voltage enters the mean of its millisecond, 2,000 holds that end with grid index `i` where that is the last of one
(V_MEAS). `none`: the voltage is not known. (DESIGN CHOICE: log 168.) -/
def DrvSt.meter (v : DrvSt) (i : Nat) (sense : Option Nat) : DrvSt :=
  let w := { v with vSum := v.vSum + sense.getD 0, vCnt := v.vCnt + 1, vOpen := v.vOpen || sense.isNone }
  if (i + 1) % 2000 ≠ 0 then w
  else { w with
    vSum := 0, vCnt := 0, vOpen := false
    vMean := if w.vOpen || w.vCnt ≠ 2000 then none else some ((w.vSum : Rat) / 2000) }

/-- The sensed voltage of a driver at a hold: the factor of R103 and RATIO_DEV, which is set only while the driver is on: one that
is off senses no excitation. `sense` is in 1.25 mV / 65,536. (DESIGN CHOICE: log 35.) -/
def Hub.senseRatio (h : Hub) (senses : List (Option Nat)) (d : Nat) : Hub :=
  if h.get (Obj.excMode d) ≠ 4 then
    (h.modDrv d (fun v => { v with ratio := 1 })).putBit (Obj.excStatus d) 2 false
  else
    let nominal := h.get (Obj.excLevel d) * 65536
    let sense := ((senses.getD d none).getD nominal)
    let q := if sense = 0 then h.drawInt else ((0 : Int), h)
    let ratio : Rat := if sense = 0 then (q.1 : Rat) else (nominal : Rat) / (sense : Rat)
    let dev := h.excOn d && ((sense : Int) - (nominal : Int)).natAbs * 50 > nominal
    (q.2.modDrv d (fun v => { v with ratio := ratio })).putBit (Obj.excStatus d) 2 dev

/-- What a driver senses at a hold. A RATIOMETRIC driver that is on senses its nominal voltage where the reading gives none.
(DESIGN CHOICE: log 35.) -/
def Hub.senseOne (h : Hub) (i : Nat) (senses : List (Option Nat)) (d : Nat) : Hub :=
  let given := senses.getD d none
  let nominal := if h.get (Obj.excMode d) = 4 && h.excOn d then some (h.get (Obj.excLevel d) * 65536) else none
  (h.modDrv d (fun v => v.meter i (given.orElse (fun _ => nominal)))).senseRatio senses d

/-- An excitation driver has been in limit or out of compliance for 2 µs, or deviates ratiometrically (`ratio`), `dt` ticks
on: EXC_FAULT is logged at the onset (R104). A limit beside a fault that stands already has no onset, and STATUS shows it. -/
def execExcFault (d : Fin 96) (dt : Nat) (ratio : Bool) (s : State) : Host.Outcome State Fault Refusal :=
  onHubM (fun _ h =>
    if !h.excOn d || (ratio && ((h.drv d).fault.isSome || !h.bit (Obj.excStatus d) 2)) then h else
    let h := h.waitTicks dt
    if (h.drv d).fault.isSome then h.putBit (Obj.excStatus d) 1 true else
    let now := h.time.ticks
    let cause := if ratio then 2 else b2n (h.excCurrent d)
    let h := h.modDrv d (fun v => { v with fault := some now, cause := cause })
    let h := ((h.putBit (Obj.excStatus d) 1 (!ratio)).putBit (Obj.excStatus d) 4 true).bump (Obj.excFaultCount d)
    (h.excChange d false).log 0x0302 1 (srcFe (d / 24)) (d + cause * 128)) s

/-- A fault has lasted 10 ms without a break: the driver turns off and LATCHED_OFF is set (R104). (DESIGN CHOICE: log 34.) -/
def execExcLatchedOff (d : Fin 96) (s : State) : Host.Outcome State Fault Refusal :=
  onHubM (fun _ h =>
    match (h.drv d).fault with
    | none => h
    | some t =>
      if h.bit (Obj.excStatus d) 3 then h else
      let h := h.waitTick (t + 10 * tMs)
      let h := (h.putBit (Obj.excStatus d) 3 true).refreshExc d
      (h.excChange d false).log 0x0303 2 (srcFe (d / 24)) d) s

/-- A driver in fault returns to regulation, `dt` ticks on: EXC_FAULT_CLEARED with the duration, and EXC ends after
EXC_SETTLE (R104, R114). A driver latched off returns only after FAULT_CLEAR, and one that still deviates ratiometrically only
leaves its limit. -/
def execExcFaultCleared (d : Fin 96) (dt : Nat) (s : State) : Host.Outcome State Fault Refusal :=
  onHubM (fun _ h =>
    match (h.drv d).fault with
    | none => h
    | some t =>
      if h.bit (Obj.excStatus d) 3 then h else
      let h := h.waitTicks dt
      if h.bit (Obj.excStatus d) 2 then h.putBit (Obj.excStatus d) 1 false else
      let us := satNat 65535 ((h.time.ticks - t) / tUs)
      let h := (h.modDrv d (fun v => { v with fault := none })).putBit (Obj.excStatus d) 1 false
      (h.excChange d false).log 0x0304 0 (srcFe (d / 24)) (d + us * 65536)) s

/-- FAULT_CLEAR written 1: LATCHED_OFF and FAULT_SEEN clear, and the driver is on again in a mode that drives it; its served
channels carry EXC until it is back in regulation (R104). The duration that EXC_FAULT_CLEARED then states counts from the
FAULT_CLEAR, not from the onset that latched it. (DESIGN CHOICE: log 34.) -/
def Hub.applyExcFaultClear (h : Hub) (d : Nat) : Hub :=
  let was := h.bit (Obj.excStatus d) 3
  let now := h.time.ticks
  let h := (h.putBit (Obj.excStatus d) 3 false).putBit (Obj.excStatus d) 4 false
  if was then (h.modDrv d (fun v => { v with fault := some now })).excChange d false else h.refreshExc d

/-- A pulsed driver's window starts or ends, at the next such boundary (R105, R114). -/
def execExcWindowEdge (d : Fin 96) (s : State) : Host.Outcome State Fault Refusal :=
  onHubM (fun mb h =>
    let v := h.drv d
    if !mb.drives || !v.active || h.get (Obj.excMode d) ≠ 3 || h.pulsePeriod d = 0 then h else
    match v.window with
    | some u =>
      let e := u + h.get (Obj.excPulseWidth d) * uGrid
      let h := h.waitFor 0 e
      (h.modDrv d (fun v => { v with window := none, winNext := e })).excChange d true
    | none =>
      let p := h.pulsePeriod d * uGrid
      let s := h.pulseOffset d * uGrid
      let u := if v.winNext ≤ s then s else ceilDiv (v.winNext - s) p * p + s
      let h := h.waitFor 0 u
      (h.modDrv d (fun v => { v with window := some u })).excChange d true) s

/-- A DC excitation driver turns on at run cue + e µs (R116); what a new Lead has commanded takes effect 10 µs after the hand-over
(R330). -/
def execExcDriverTurnOn (d : Fin 96) (s : State) : Host.Outcome State Fault Refusal :=
  onHubM (fun mb h =>
    match (h.drv d).turnOn with
    | none => h
    | some u =>
      if !mb.drives then h else
      let h := h.waitFor 0 u
      let on := h.get (Obj.excMode d) ≠ 0
      (h.modDrv d (fun v => { v with active := on, turnOn := none })).excChange d false) s

/-- A change of MODE, LEVEL or PULSE_KIND of a driver takes effect by a commit (R114): `old` is the hub before it. The windows of a
driver that stays PULSED go on. (DEDUCED: log 202.) -/
def Hub.excCommit (h old : Hub) (d : Nat) : Hub :=
  let changed := old.get (Obj.excMode d) ≠ h.get (Obj.excMode d) || old.get (Obj.excLevel d) ≠ h.get (Obj.excLevel d) ||
    old.get (Obj.excPulseKind d) ≠ h.get (Obj.excPulseKind d)
  if !changed || !h.obeys (d / 24) then h else
  let cue := h.outFrom (gridU h.time.nextGrid)
  let m := h.get (Obj.excMode d)
  let first := m = 3 && old.get (Obj.excMode d) ≠ 3
  if gridU h.time.nextGrid < cue then
    h.modDrv d (fun v => { v with
      turnOn := some cue, window := if m = 3 then v.window else none
      winFrom := if first then cue else v.winFrom, winNext := if first then cue else v.winNext })
  else
  (h.modDrv d (fun v => { v with
    active := m ≠ 0, turnOn := none, window := if m = 3 then v.window else none
    winFrom := if first then cue else v.winFrom, winNext := if first then cue else v.winNext })).excChange d false

/-! ### Which commands reach a range at a commit or at a sampling start (R94) -/

/-- The range a channel holds first when sampling starts. -/
def Hub.startRange (h : Hub) (n : Nat) : Nat :=
  if h.auto n then h.get (Obj.chRangeCoarsest n) else h.get (Obj.chRangeFixed n)

/-- The range of a channel's next hold at a cue point: the previous range clipped into the new limits (R94). -/
def Hub.clipped (h : Hub) (n r : Nat) : Nat :=
  if h.auto n then max (h.get (Obj.chRangeCoarsest n)) (min r (h.get (Obj.chRangeFinest n))) else h.get (Obj.chRangeFixed n)

/-- A commit clips the range. A decision and a clip at one hold count one change each in RANGE_CHANGES, and the range that
sampling starts with counts none. (DESIGN CHOICE: log 169.) -/
def Hub.clipRange (h : Hub) (n : Nat) : Hub :=
  let r := h.heldRange n
  let r' := h.clipped n r
  if r' = r then h else (h.modCh n (fun v => { v with next := some r' })).bump (Obj.chRangeChanges n)

/-- Sampling starts: every channel holds its first sample in its start range, with its down count at 0. -/
def Hub.startRanges (h : Hub) : Hub :=
  h.forEach (List.range 384) (fun n h =>
    let r := h.startRange n
    let i := h.time.nextGrid
    h.modCh n (fun v => { ({} : InSt) with
      range := r, next := some r, startIdx := i, cmClear := v.cmClear, excLeft := v.excLeft }))

/-- 100 ns before the next grid instant every AUTO channel decides the range of its next hold (R95). -/
def Hub.autoRange (h : Hub) : Hub :=
  let i := h.time.nextGrid
  h.forEach (List.range 384) (fun n h => h.rangeStep i n)

end Sys2Proof.Machine
end

