-- ==== Sys2Proof/Machine/Calibration.lean ====
section
/-! DEFINITION. The swing core (R138 to R141), calibration records, background and foreground calibration (R169 to R193). -/
namespace Sys2Proof.Machine

/-- A core's state: f × 12 + c. -/
def Hub.core (h : Hub) (k : Nat) : CoreSt := vget h.cores k
def Hub.modCore (h : Hub) (k : Nat) (f : CoreSt → CoreSt) : Hub := { h with cores := vupd h.cores k f }
def Hub.fe (h : Hub) (f : Nat) : FeSt := vget h.fes f
def Hub.modFe (h : Hub) (f : Nat) (g : FeSt → FeSt) : Hub := { h with fes := vupd h.fes f g }
def Hub.modSwing (h : Hub) (f : Nat) (g : SwingSt → SwingSt) : Hub := h.modFe f (fun v => { v with swing := g v.swing })
def Hub.modCal (h : Hub) (g : CalSt → CalSt) : Hub := { h with cal := g h.cal }
def Hub.bg (h : Hub) (f : Nat) : BgSt := vget h.cal.bg f
def Hub.modBg (h : Hub) (f : Nat) (g : BgSt → BgSt) : Hub := h.modCal (fun c => { c with bg := vupd c.bg f g })

/-- FE dies that take part: present and not FAILED. -/
def Hub.feList (h : Hub) : List Nat := (List.range 4).filter h.feUp

/-- The channels of FE dies that take part, ascending. -/
def Hub.chList (h : Hub) : List Nat := (List.range 384).filter (fun n => h.feUp (chFe n))

/-! ### The calibration bus and the input switches (R169, R179, R182) -/

/-- What drives an FE die's calibration bus. -/
inductive BusSource where
  | ground | plusRef | minusRef | dac | calref
deriving DecidableEq, Repr

/-- The positions of a channel's input switch. -/
inductive InputSwitch where
  | balls | short | bus
deriving DecidableEq, Repr

/-- The 64 ms in which a foreground step stands: the steps measure in turns of that length. -/
def Hub.calTurn (h : Hub) : Nat := (h.time.ticks - h.cal.stepAt) / (64 * tMs)

/-- The source on die f's bus: the phase of a converter calibration, the step of a foreground one, else +bandgap (R180).
(DESIGN CHOICE: log 174.) -/
def Hub.calBus (h : Hub) (f : Nat) : BusSource :=
  let phase (p : Nat) : BusSource := if p = 0 then .ground else if p = 1 then .plusRef else .minusRef
  match h.get Obj.calStep with
  | 0 => if (vget h.cal.bg f).conv.isSome then phase (vget h.cal.bg f).phase else .plusRef
  | 1 => phase h.calTurn
  | 2 => .calref
  | 3 => .ground
  | 4 | 5 => .dac
  | _ => .plusRef

/-- Where every channel's input switch stands (R169, Table 6.4): at BALLS outside foreground calibration; at BUS in step D and in
the two turns of step E that read ±L₀, and at SHORT otherwise. (DESIGN CHOICE: log 174.) -/
def Hub.inputSwitch (h : Hub) : InputSwitch :=
  match h.get Obj.calStep with
  | 0 => .balls
  | 4 => .bus
  | 5 => if h.calTurn % 3 < 2 then .bus else .short
  | _ => .short

/-- The voltages that the amplifiers see at a hold: the balls', 0 at SHORT, and at BUS the level of each die's bus, which the
calibration DAC sets as the engine asks and no rule spells out reading by reading. (DESIGN CHOICE: log 174.) -/
def Hub.switched (h : Hub) (balls : List Int) : List Int × Hub :=
  match h.inputSwitch with
  | .balls => (balls, h)
  | .short => ([], h)
  | .bus =>
    let r := (List.range 4).foldl (fun (a : List Int × Hub) _ =>
      let d := a.2.drawInt
      (a.1 ++ [d.1], d.2)) ([], h)
    ((List.range 384).map (fun n => r.1.getD (n / 96) 0), r.2)

/-! ### The swing core (Table 4.5) -/

/-- SWING_STATE codes. -/
def Hub.swingSt (h : Hub) (f : Nat) : Nat := h.get (Obj.swingState f)

/-- The swing core's words stand for core c's in the frame of grid index `i` (R138, R139). -/
def Hub.swingServes (h : Hub) (f c i : Nat) : Bool :=
  (h.swingSt f ≥ 2 && h.get (Obj.swingCore f) = c && i ≥ (h.fe f).swing.from_) ||
    (match (h.fe f).swing.last with
     | some (d, u) => d = c && i < u
     | none => false)

/-- The objects that hold a converter's terms. -/
def convKeys (f c : Nat) : Nat × Nat :=
  if c = 12 then (Obj.caldSwingConvOffset f, Obj.caldSwingConvGain f)
  else (Obj.calcConvOffset (f * 12 + c), Obj.calcConvGain (f * 12 + c))

/-- A converter's terms in force. -/
def Hub.putTerms (h : Hub) (f c : Nat) (t : Nat × Nat) : Hub := (h.put (convKeys f c).1 t.1).put (convKeys f c).2 t.2

/-- What a converter had before the terms about to be loaded is kept until its takeover is over. -/
def Hub.keepTerms (h : Hub) (f c : Nat) : Hub :=
  let t := (h.get (convKeys f c).1, h.get (convKeys f c).2)
  h.modSwing f (fun v => { v with prev := if v.prev.isSome then v.prev else some t })

/-- A takeover of core c starts with an overlap at the next raw-frame boundary. -/
def Hub.swingTakeover (h : Hub) (f c : Nat) (byCal : Bool) : Hub :=
  let i := h.time.nextGrid
  let h := h.modSwing f (fun _ => { start := i, byCal := byCal })
  ((h.put (Obj.swingState f) 1).put (Obj.swingCore f) c).put (Obj.coreCoreStatus (f * 12 + c)) 1

/-- The served core is to return: OVERLAP_OUT from the next boundary on, core c on the coefficients given. -/
def Hub.swingReturn (h : Hub) (f : Nat) : Hub :=
  if h.swingSt f ≠ 2 then h else
  let i := h.time.nextGrid
  let c := h.get (Obj.swingCore f)
  let h := h.modSwing f (fun v => { v with start := i })
  (h.put (Obj.swingState f) 3).put (Obj.coreCoreStatus (f * 12 + c)) 1

/-- The swing core is IDLE and its core, if any, ACTIVE, on the coefficients it had before where the takeover has not ended well. -/
def Hub.swingIdle (h : Hub) (f : Nat) : Hub :=
  let c := h.get (Obj.swingCore f)
  let h := match (h.fe f).swing.prev with
    | some t => (h.putTerms f c t).modSwing f (fun v => { v with prev := none })
    | none => h
  let h := h.modCore (f * 12 + c) (fun v => { v with driftFlag := false })
  let h := if c < 12 then h.put (Obj.coreCoreStatus (f * 12 + c)) 0 else h
  (h.put (Obj.swingState f) 0).put (Obj.swingCore f) 0xFF

/-- BG_STOPPED on every channel of a die whose swing core is PERMANENT (R181, R192). -/
def Hub.bgStoppedBits (h : Hub) (f : Nat) : Hub :=
  h.forEach (List.range 96) (fun i h => h.putBit (Obj.chCalStatus (f * 96 + i)) 5 true)

/-- Background calibration of a die stops (R181). -/
def Hub.bgStopped (h : Hub) (f : Nat) : Hub := (h.bgStoppedBits f).modBg f (fun _ => {})

/-- Core c is retired and the swing core serves it for good (R140): `cause` 0 return mismatch, 1 core fault. -/
def Hub.swingPermanent (h : Hub) (f c cause : Nat) : Hub :=
  let i := if h.swingSt f ≥ 2 && h.get (Obj.swingCore f) = c then (h.fe f).swing.from_ else h.time.nextGrid
  let h := h.modSwing f (fun v => { v with from_ := i })
  let h := ((h.put (Obj.swingState f) 4).put (Obj.swingCore f) c).put (Obj.coreCoreStatus (f * 12 + c)) 4
  ((h.putBit (Obj.retiredCores f) c true).bgStopped f).log 0x0406 2 (srcFe f) (f + c * 256 + cause * 65536)

/-- A mode without sampling is entered, or CALIBRATE (R140, R181): any relieved core resumes on its previous terms, and the
round ends. -/
def Hub.swingStop (h : Hub) : Hub :=
  h.forEach (List.range 4) (fun f h =>
    let st := h.swingSt f
    let h := if st = 1 || st = 2 || st = 3 then h.swingIdle f else h
    h.modBg f (fun _ => {}))

/-- Why a SWING_REQUEST is refused (R140): the abort code, 0 when it is accepted. -/
def Hub.swingRefusal (h : Hub) (m : Mode) (f v : Nat) : Nat :=
  if m = .selfTest || m = .service then Abort.wrongMode
  else if v = 0xFE then 0
  else if h.swingSt f = 4 then Abort.swingUnavailable
  else if h.swingSt f ≠ 0 then Abort.busy else 0

/-- SWING_REQUEST in force: a takeover, which ends a calibration of the swing core itself, or a return, which ends that of the
core served. (DEDUCED: log 156; DESIGN CHOICE: log 197.) -/
def Hub.applySwingRequest (h : Hub) (f v : Nat) : Hub :=
  if v = 0xFE then
    if h.swingSt f ≠ 2 then h
    else
      let c := h.get (Obj.swingCore f)
      let h := h.modCore (f * 12 + c) (fun v => { v with driftFlag := false })
      (h.modBg f (fun v => { v with conv := none })).swingReturn f
  else (h.modBg f (fun v => { v with conv := none })).swingTakeover f v false

/-! ### Records (R174 to R177, R187, R188) -/

/-- The coefficient objects of core k's channel at input `inp`, without its temperature coefficients. -/
def termKeys (k inp : Nat) : List Nat :=
  ((List.range 4).map (fun r => Obj.calcOffset k inp r)) ++ ((List.range 4).map (fun r => Obj.calcGain k inp r)) ++
    [Obj.calcBufOffset k inp, Obj.calcBufGain k inp]

/-- The objects a record holds, in the order of its payload (Table 6.3); before those of 0x0150 stands the kind of the last
foreground calibration. (DESIGN CHOICE: log 45; DEDUCED: log 46.) -/
def recordKeys (num : Nat) : List Nat :=
  if 0x100 ≤ num && num < 0x130 then
    let k := num - 0x100
    [Obj.calcConvOffset k, Obj.calcConvGain k, Obj.calcTCal k, Obj.calcBgCalCount k, Obj.calcBgCalLast k] ++
      ((List.range 8).flatMap (fun inp => termKeys k inp ++
        [Obj.chCalCount (k * 8 + inp), Obj.chCalLast (k * 8 + inp)]))
  else if 0x140 ≤ num && num < 0x144 then
    let f := num - 0x140
    [Obj.caldRefValue f, Obj.caldRefSource f, Obj.caldTraceDeclared f, Obj.caldTraceMeasured f, Obj.caldTraceSpread f,
      Obj.caldTraceTime f, Obj.caldSwingConvOffset f, Obj.caldSwingConvGain f, Obj.caldSwingCalLast f]
  else if num = 0x150 then [Obj.calResult, Obj.calLastForeground]
  else if 0x10 ≤ num && num < 0x14 then
    let f := num - 0x10
    [Obj.caldRefValue f, Obj.caldSwingConvOffset f, Obj.caldSwingConvGain f] ++
      ((List.range 12).flatMap (fun c => [Obj.calcConvOffset (f * 12 + c), Obj.calcConvGain (f * 12 + c)] ++
        ((List.range 8).flatMap (fun inp => termKeys (f * 12 + c) inp ++
          ((List.range 4).map (fun r => Obj.calcTcGain (f * 12 + c) inp r)) ++ [Obj.calcTcOffset (f * 12 + c) inp]))))
  else []

/-- The record numbers of the part (Table 6.3). -/
def Part.records (p : Part) : List Nat :=
  (List.range p.fe).map (0x10 + ·) ++ (if p.simplex then [0x20] else [0x20, 0x21]) ++
    (if p.simplex then [0x30] else [0x30, 0x31]) ++
    (List.range (p.fe * 12)).map (0x100 + ·) ++ (List.range p.fe).map (0x140 + ·) ++ [0x150]

/-- A record is a trim record. -/
def isTrim (num : Nat) : Bool := num < 0x100

/-- Zero bytes that bring a payload to a multiple of 4. -/
def padTo4 (l : List Nat) : List Nat := l ++ List.replicate ((4 - l.length % 4) % 4) 0

/-- The bytes of a record's header (Table 6.2). -/
def CalRec.header (r : CalRec) : List Nat :=
  toBytes 2 r.number ++ toBytes 1 r.kind ++ toBytes 1 r.format ++ toBytes 2 r.payload.length ++ toBytes 2 r.rev ++
    toBytes 4 r.generation ++ toBytes 12 r.written ++ toBytes 4 r.boot ++ toBytes 4 0 ++ toBytes 8 r.serial

/-- The bytes of a record as it is stored. -/
def CalRec.bytes (r : CalRec) : List Nat := r.header ++ r.payload ++ toBytes 4 r.check

/-- The record with its check word made right. -/
def CalRec.sealed (r : CalRec) : CalRec := { r with check := crc32 (r.header ++ r.payload) }

/-- A stored copy qualifies (R176): check word, SERIAL and FORMAT. -/
def CalRec.ok (p : Part) (r : CalRec) : Bool :=
  r.check = crc32 (r.header ++ r.payload) && r.serial = p.serial && r.format = 1

/-- The payload of a record from the objects in force. (DEDUCED: log 46.) -/
def Hub.recordPayload (h : Hub) (num : Nat) : List Nat :=
  let kind := if num = 0x150 then [h.cal.lastKind % 256] else []
  padTo4 (kind ++ (recordKeys num).flatMap (fun k => toBytes (Catalog.len k) (h.get k)))

/-- One object of a record in force. A TIME96 never states more than 999,999,999 ns (R17): where a record's bytes do, the instant
is open. (DESIGN CHOICE: log 175.) -/
def Hub.loadKey (h : Hub) (k v : Nat) : Hub :=
  if Catalog.len k = 12 && !time96Ok v then
    let d := h.drawNat
    d.2.put k (time96 d.1 0)
  else h.put k v

/-- The objects of a payload are put in force, in the record's order; missing bytes leave the objects as they are.
(DEDUCED: log 46.) -/
def loadPayload : Hub → List Nat → List Nat → Hub
  | h, [], _ => h
  | h, k :: ks, bytes =>
    let n := Catalog.len k
    if bytes.length < n then h else loadPayload (h.loadKey k (ofBytes (bytes.take n))) ks (bytes.drop n)

/-- A record's payload is put in force. -/
def Hub.loadRecord (h : Hub) (num : Nat) (payload : List Nat) : Hub :=
  if num = 0x150 then
    loadPayload (h.modCal (fun c => { c with lastKind := payload.headD 0 })) (recordKeys num) (payload.drop 1)
  else loadPayload h (recordKeys num) payload

/-- The NVM of a hub die. -/
def Hub.nvmOf (h : Hub) (x : Nat) : List CalRec := if x = 0 then h.cal.nvm0 else h.cal.nvm1

/-- The copy of a record in a die's NVM. -/
def Hub.copyOf (h : Hub) (x num : Nat) : Option CalRec := (h.nvmOf x).find? (fun r => r.number = num)

/-- Where the next record of `len` bytes goes in the calibration area of 256 sectors of 4 KB: behind the last one, or at the start
of the next sector in rotation, which is erased, where it does not fit (R175). -/
def nvmPlace (at_ len : Nat) : Nat :=
  if at_ % 4096 + len ≤ 4096 then at_ else (at_ / 4096 + 1) % 256 * 4096

/-- A die's NVM with a location of the calibration area used up. -/
def Hub.useLocation (h : Hub) (x len : Nat) : Hub :=
  h.modCal (fun c => { c with nvmNext := vupd c.nvmNext x (fun a => (nvmPlace a len + len) % 2 ^ 20) })

/-- A die's NVM with a record in a fresh location; the copy with the lower generation counts no more.
(DESIGN CHOICE: log 176.) -/
def Hub.storeRec (h : Hub) (x : Nat) (r : CalRec) : Hub :=
  let l := r :: (h.nvmOf x).filter (fun q => q.number ≠ r.number)
  (h.modCal (fun c => if x = 0 then { c with nvm0 := l } else { c with nvm1 := l })).useLocation x (44 + r.payload.length)

/-- The highest generation of a record among the NVMs. -/
def Hub.topGen (h : Hub) (num : Nat) : Nat :=
  max (((h.copyOf 0 num).map CalRec.generation).getD 0) (((h.copyOf 1 num).map CalRec.generation).getD 0)

/-- A record in both NVMs. `bad` has a pair of record number and hub die for each write whose read-back fails: one is repeated in
the next location; where that fails too it is logged and the old copy stays (R175). (DEDUCED: log 51.) -/
def Hub.storeBoth (h : Hub) (bad : List (Nat × Nat)) (r : CalRec) : Hub :=
  let dies := if h.part.simplex then [0] else [0, 1]
  h.forEach dies (fun x h =>
    let n := bad.count (r.number, x)
    let h := h.when (n ≥ 1) (·.useLocation x (44 + r.payload.length))
    if n ≥ 2 then (h.useLocation x (44 + r.payload.length)).log 0x0609 2 (srcHd x) (r.number + x * 65536) else h.storeRec x r)

/-- The read-backs of a record that no command gives the outcome of: how many fail on each die, up to two, is open. -/
def Hub.readBacks (h : Hub) (num : Nat) : List (Nat × Nat) × Hub :=
  let a := h.drawNat
  let b := a.2.drawNat
  (List.replicate (a.1 % 3) (num, 0) ++ List.replicate (b.1 % 3) (num, 1), b.2)

/-- A record in both NVMs, whose read-backs no command tells. (DESIGN CHOICE: log 176.) -/
def Hub.storeOpen (h : Hub) (r : CalRec) : Hub :=
  let b := h.readBacks r.number
  b.2.storeBoth b.1 r

/-- A calibration record written from the objects in force, one generation up (R175). -/
def Hub.writeRec (h : Hub) (bad : List (Nat × Nat)) (num : Nat) : Hub :=
  let rev := h.get Obj.brevActive
  let r : CalRec := {
    number := num, kind := 2, format := 1, rev := if rev = 0 then h.part.siliconRev else rev
    generation := h.topGen num + 1, written := h.stamp, boot := h.get Obj.bootCount, serial := h.part.serial
    payload := h.recordPayload num }
  h.storeBoth bad r.sealed

/-- Every calibration record of the dies present is written. -/
def Hub.writeAll (h : Hub) (bad : List (Nat × Nat)) (package : Bool) : Hub :=
  let nums := h.part.records.filter (fun n => 0x100 ≤ n && (package || n ≠ 0x150))
  h.forEach nums (fun n h => h.writeRec bad n)

/-- The trim record of a number as it was written at test (R174, R175), the same in every NVM: its terms are the nominal ones of
R176, and what the spec does not give is the part's. (DESIGN CHOICE: log 45; DEDUCED: log 47.) -/
def trimRec (p : Part) (num : Nat) : CalRec :=
  let terms := (recordKeys num).flatMap (fun k => toBytes (Catalog.len k) (Objs.get [] k))
  let r : CalRec := {
    number := num, kind := 1, format := 1, rev := Config.trimField num 0 % 2 ^ 16, generation := Config.trimField num 1 % 2 ^ 32
    written := time96 (Config.trimField num 2) 0, boot := Config.trimField num 3 % 2 ^ 32, serial := p.serial
    payload := padTo4 ((terms ++ (Config.trimContent num).map (· % 256)).take 65532) }
  r.sealed

/-- A trim record of hub die x qualifies: its check word holds, and what it carries is this package's. An NVM that lists no trim
record stands for one with the nominal terms. (DESIGN CHOICE: log 45.) -/
def Hub.trimOk (h : Hub) (bad : List (Nat × Nat)) (x num : Nat) : Bool :=
  !bad.contains (x, num) && !(x = 1 && h.part.simplex) && (match h.copyOf x num with
    | some r => r.ok h.part
    | none => true)

/-- The hub dies whose copies count at BOOT: with the peer link down the Lead's alone (R177). -/
def Hub.copyDies (h : Hub) (lead : Nat) : List Nat := if h.part.simplex then [0] else if h.red.peerUp then [0, 1] else [lead]

/-- A conflict of two copies of equal generation is logged (R177). -/
def Hub.recordConflict (h : Hub) (lead num gen : Nat) : Hub :=
  h.log 0x060C 1 (srcHd lead) (num + b2n (isTrim num) * 65536 + gen * 2 ^ 32)

/-- One trim record at BOOT (R176, R177): the qualifying copy of the highest generation, HD0's where two conflict. REF_SOURCE then
says FACTORY. -/
def Hub.loadTrim (h : Hub) (bad : List (Nat × Nat)) (lead num : Nat) : Hub :=
  let ok := (h.copyDies lead).filter (fun x => h.trimOk bad x num)
  let gen (x : Nat) : Nat := ((h.copyOf x num).map CalRec.generation).getD 0
  let load (x : Nat) (h : Hub) : Hub :=
    let h := match h.copyOf x num with
      | some r => h.loadRecord num r.payload
      | none => h
    h.when (0x10 ≤ num && num < 0x14) (·.put (Obj.caldRefSource (num - 0x10)) 1)
  match ok with
  | [] => h
  | [x] => load x h
  | _ =>
    if gen 0 > gen 1 then load 0 h else if gen 0 < gen 1 then load 1 h
    else if h.copyOf 0 num = h.copyOf 1 num then load lead h
    else (load 0 h).recordConflict lead num (gen 0)

/-- CAL_STATUS of the channels of a core's record: SOURCE, and TRACED where the terms are the field's and their REF_VALUE was set by
TRACE; the other bits begin at 0. (DEDUCED: log 177.) -/
def Hub.calSource (h : Hub) (num v : Nat) : Hub :=
  if 0x100 ≤ num && num < 0x130 then
    h.forEach (List.range 8) (fun i h => h.put (Obj.chCalStatus ((num - 0x100) * 8 + i)) v)
  else h

/-- TRACED of the channels listed follows SOURCE and the die's REF_SOURCE, once their records are loaded. -/
def Hub.loadTraced (h : Hub) (ns : List Nat) : Hub :=
  h.forEach ns (fun n h => h.putBit (Obj.chCalStatus n) 4
    (h.get (Obj.chCalStatus n) % 4 = 2 && h.get (Obj.caldRefSource (chFe n)) = 2))

/-- One calibration record at BOOT (R176, R177): the qualifying copy of the highest generation; where two of equal generation
differ, HD0's, which is then written to both NVMs one generation up; where none qualifies, the trims' terms stay.
(DESIGN CHOICE: log 45.) -/
def Hub.loadRec (h : Hub) (bad : List (Nat × Nat)) (lead num : Nat) : Hub :=
  let good (x : Nat) : Option CalRec :=
    if (h.copyDies lead).contains x then (h.copyOf x num).filter (CalRec.ok h.part) else none
  let load (r : CalRec) (h : Hub) : Hub := (h.loadRecord num r.payload).calSource num 2
  match good 0, good 1 with
  | none, none =>
    let t := 0x10 + (num - 0x100) / 12
    (h.calSource num (b2n ((h.copyDies lead).any (fun x => h.trimOk bad x t)))).log 0x0608 2 (srcHd lead) num
  | some a, none => load a h
  | none, some b => load b h
  | some a, some b =>
    if a.generation > b.generation then load a h
    else if a.generation < b.generation then load b h
    else if a = b then load a h
    else ((load a h).recordConflict lead num a.generation).storeOpen { a with generation := a.generation + 1 }.sealed

/-- The records at BOOT, trims first (R176). `bad` lists the copies of trim records whose check word fails, by hub die and record
number. (DESIGN CHOICE: log 21.) -/
def Hub.loadCal (h : Hub) (bad : List (Nat × Nat)) (lead : Nat) : Hub :=
  let h := h.forEach h.part.records (fun num h => if isTrim num then h.loadTrim bad lead num else h.loadRec bad lead num)
  (h.loadTraced (List.range 384)).forEach (List.range 4) (fun f h => h.when (h.swingSt f = 4) (·.bgStoppedBits f))

/-- CAL_RECORD: the selected record as the Lead's NVM stores it (R187). (DEDUCED: log 47.) -/
def Hub.calRecordBytes (h : Hub) (lead : Nat) : List Nat :=
  match h.copyOf lead (h.get Obj.calRecordSelect) with
  | some r => r.bytes
  | none => if isTrim (h.get Obj.calRecordSelect) then (trimRec h.part (h.get Obj.calRecordSelect)).bytes else []

/-- The record an import's bytes spell. -/
def parseRec (b : List Nat) : CalRec :=
  let f (lo n : Nat) : Nat := ofBytes ((b.drop lo).take n)
  { number := f 0 2, kind := f 2 1, format := f 3 1, rev := f 6 2, generation := f 8 4, written := f 12 12, boot := f 24 4
    serial := f 32 8, payload := (b.drop 40).take (b.length - 44), check := ofBytes (b.drop (b.length - 4)) }

/-- Why an import is refused (R188), 0 when it is accepted. A trim record is never written in the field (R175), so a number of one
is protected whatever KIND the import states. (DESIGN CHOICE: log 45.) -/
def Hub.importRefusal (h : Hub) (m : Mode) (b : List Nat) : Nat :=
  let r := parseRec b
  if m ≠ .service then Abort.wrongMode
  else if b.length < 44 || r.check ≠ crc32 (b.take (b.length - 4)) || ofBytes ((b.drop 4).take 2) ≠ r.payload.length ||
      r.payload.length % 4 ≠ 0 || r.format ≠ 1 then Abort.calRecordInvalid
  else if r.kind = 1 || isTrim r.number then Abort.calRecordProtected
  else if r.serial ≠ h.part.serial then Abort.calRecordForeign else 0

/-- The channels whose CAL_STATUS hangs on a calibration record: those of the core, or of the FE die. -/
def recordChannels (num : Nat) : List Nat :=
  if 0x100 ≤ num && num < 0x130 then (List.range 8).map (fun i => (num - 0x100) * 8 + i)
  else if 0x140 ≤ num && num < 0x144 then (List.range 96).map (fun i => (num - 0x140) * 96 + i) else []

/-- An accepted import: stored in both NVMs one generation up, applied at the next boundary and logged (R188). The terms of a core
are now the field's, and TRACED follows (Table 6.11). (DEDUCED: log 177.) -/
def Hub.applyImport (h : Hub) (b : List Nat) : Hub :=
  let r := parseRec b
  let r := { r with generation := h.topGen r.number + 1 }.sealed
  let h := (h.storeOpen r).loadRecord r.number r.payload
  let ns := recordChannels r.number
  let h := h.when (0x100 ≤ r.number && r.number < 0x130)
    (·.forEach ns (fun n h => h.put (Obj.chCalStatus n) (h.get (Obj.chCalStatus n) / 4 * 4 + 2)))
  (h.loadTraced ns).log 0x060B 0 srcPkg (r.number + r.generation * 65536)

/-! ### Background calibration (R178 to R181) -/

/-- The next core of the round is requested when the swing core is IDLE. -/
def Hub.bgNext (h : Hub) (f : Nat) : Hub :=
  let v := h.bg f
  if h.swingSt f ≠ 0 || v.conv.isSome then h else
  match v.queue with
  | c :: cs => (h.modBg f (fun v => { v with queue := cs })).swingTakeover f c true
  | [] => h.modBg f (fun v => { v with round := false, ending := false })

/-- The calibration of a converter starts at phase ZERO (R179). -/
def Hub.bgCalibrate (h : Hub) (f c : Nat) : Hub :=
  let now := h.time.ticks
  h.modBg f (fun v => { v with conv := some c, phase := 0, phaseAt := now, repeated := false })

/-- A calibration has ended, with new terms or the old ones: a core returns, through OVERLAP_OUT. -/
def Hub.bgFinish (h : Hub) (f c : Nat) : Hub :=
  let h := h.modBg f (fun v => { v with conv := none })
  if c = 12 then h.bgNext f
  else (h.modCore (f * 12 + c) (fun v => { v with driftFlag := false })).swingReturn f

/-- The converter terms that bring ZERO to 0 and PLUS − MINUS to 52,428.8 codes, from readings in 2⁻¹⁶ codes taken under the
terms given (R179): offset and gain. (DEDUCED: log 48.) -/
def Hub.convTerms (h : Hub) (off gain : Nat) (zero plus minus : Int) : (Int × Int) × Hub :=
  let g : Rat := (gain : Rat) / (2 ^ 30 : Nat)
  let o : Rat := (toSigned 32 off : Rat) + (zero : Rat) / (if g = 0 then 1 else g)
  let d : Int := plus - minus
  let a := h.ratOpen o
  let b := if d = 0 then a.2.drawInt else a.2.ratOpen ((gain : Rat) * 34359738368 / (10 * (d : Rat)))
  ((a.1, b.1), b.2)

/-- New converter terms in force at the present raw-frame boundary, with BG_CAL_COUNT, BG_CAL_LAST and BG_CAL_DONE (R179).
(DEDUCED: log 48.) -/
def Hub.bgDone (h : Hub) (f c : Nat) (t : Int × Int) : Hub :=
  let old := h.get (convKeys f c).2
  let q := h.divOpen ((t.2 - (old : Int)) * 100000000) old
  let h := (q.2.when (c < 12) (·.keepTerms f c)).putTerms f c (ofSigned 32 t.1, ofSigned 32 t.2)
  let h := if c = 12 then h.put (Obj.caldSwingCalLast f) h.stamp
    else (h.bump (Obj.calcBgCalCount (f * 12 + c))).put (Obj.calcBgCalLast (f * 12 + c)) h.stamp
  h.log 0x0605 0 (srcFe f) (f + c * 256 + ofSigned 32 (clampInt (-(2 ^ 31)) (2 ^ 31 - 1) q.1) * 65536)

/-- The multiple of `p` (in 2⁻¹⁶ ns) of base b that is next to start, where one started at tick `last`. A start that a forward step
of ARRAY passed over is due at once, and one reached before a backward step is not due again (R203). -/
def Hub.nextMultiple (h : Hub) (b p last : Nat) : Nat :=
  let late := b = 0 && (match h.cal.roundLate with
    | some t => decide (h.time.ticks * 4 * 65536 < t * 4 * 65536 + p)
    | none => false)
  if late then h.now b / p
  else
    let k := ceilDiv (h.now b - 262144) p
    let k := if k * p ≤ h.now b && h.time.ticks ≤ last + 1 then k + 1 else k
    if b = 0 && h.cal.roundFloor ≠ 0 then max k (h.cal.roundFloor / p + 1) else k

/-- A background round starts on one FE die: the swing core calibrates itself, then the cores in ascending order. -/
def Hub.bgRound (h : Hub) (f : Nat) : Hub :=
  if !h.feUp f || h.swingSt f = 4 || (h.bg f).round then h else
  let cores := (List.range 12).filter (fun c => h.get (Obj.coreCoreStatus (f * 12 + c)) < 4)
  let h := h.modBg f (fun v => { v with round := true, ending := false, queue := cores })
  let h := h.put (Obj.caldBgRoundStart f) h.stamp
  if h.swingSt f = 0 then h.bgCalibrate f 12 else h

/-- At a multiple of CAL_CYCLE_PERIOD each FE die starts a background round (R178). -/
def execBgCalRoundStart (s : State) : Host.Outcome State Fault Refusal :=
  onHubM (fun mb h =>
    if !mb.samples || mb.mode = .calibrate || !h.flag Obj.calBgEnable then h else
    let b := if h.locked then 0 else 2
    let p := h.get Obj.calCyclePeriod * uSec
    if p = 0 then h else
    let k := h.nextMultiple b p h.cal.roundTick
    let h := h.waitFor b (k * p)
    let now := h.time.ticks
    (h.modCal (fun c => { c with roundTick := now, roundLate := none })).forEach (List.range 4) (fun f h => h.bgRound f)) s

/-- A phase of 800 ms ends with its mean in 2⁻¹⁶ codes and its spread in 0.01 LSB₁₈ (R179). -/
def Hub.bgPhase (h : Hub) (f c : Nat) (mean : Int) (spread : Nat) : Hub :=
  let v := h.bg f
  let h := h.waitTick (v.phaseAt + 800 * tMs)
  let now := h.time.ticks
  if spread ≥ 500 then
    if !v.repeated then h.modBg f (fun v => { v with repeated := true, phaseAt := now })
    else (h.log 0x0606 1 (srcFe f) (f + c * 256 + v.phase * 65536)).bgFinish f c
  else if v.phase = 0 then
    h.modBg f (fun v => { v with phase := 1, phaseAt := now, repeated := false, zero := mean })
  else if v.phase = 1 then
    h.modBg f (fun v => { v with phase := 2, phaseAt := now, repeated := false, plus := mean })
  else
    let ks := convKeys f c
    let t := h.convTerms (h.get ks.1) (h.get ks.2) v.zero v.plus mean
    (t.2.waitBoundary.bgDone f c t.1).bgFinish f c

/-- A converter calibration phase of an FE die is done. -/
def execBgCalPhaseDone (f : Fin 4) (mean : Int) (spread : Nat) (s : State) : Host.Outcome State Fault Refusal :=
  onHubM (fun mb h =>
    match (h.bg f).conv with
    | some c => if mb.samples && h.feUp f then h.bgPhase f c mean spread else h
    | none => h) s

/-- CAL_NVM_INTERVAL elapses and background results are written to NVM; `bad` lists writes that fail twice (R175). -/
def execBgCalNvmWrite (bad : List (Nat × Nat)) (s : State) : Host.Outcome State Fault Refusal :=
  onHubM (fun mb h =>
    if !mb.up || mb.loader then h else
    let h := h.waitTick (h.cal.nvmAt + h.get Obj.calNvmInterval * tSec)
    let now := h.time.ticks
    (h.writeAll bad false).modCal (fun c => { c with nvmAt := now })) s

/-- CAL_BG_ENABLE written 0: the round ends after the core in SERVING has completed OVERLAP_OUT (R181). -/
def Hub.applyBgDisable (h : Hub) : Hub :=
  h.forEach (List.range 4) (fun f h => h.modBg f (fun v => if v.round then { v with queue := [], ending := true } else v))

/-- A new Lead's engine repeats a calibration in progress from ZERO (R181). -/
def Hub.bgHandover (h : Hub) : Hub :=
  h.forEach (List.range 4) (fun f h =>
    match (h.bg f).conv with
    | some c => h.bgCalibrate f c
    | none => h)

/-- A core's drift exceeds CAL_DRIFT_LIMIT: it is calibrated out of cycle (R180). (DEDUCED: log 156.) -/
def Hub.calDrift (h : Hub) (f c : Nat) (drift : Int) : Hub :=
  let h := (h.modCore (f * 12 + c) (fun v => { v with driftFlag := true })).log 0x0607 1 (srcFe f)
    (f + c * 256 + ofSigned 32 drift * 65536)
  if (h.bg f).round then h.modBg f (fun v => { v with queue := c :: v.queue.filter (· ≠ c) })
  else if h.swingSt f = 0 && (h.bg f).conv.isNone then h.swingTakeover f c true
  else if h.swingSt f = 4 then h
  else h.modBg f (fun v => { v with queue := v.queue ++ [c] })

/-- An overlap ends (R139, Table 4.5): `diff` is the largest difference in LSB₁₈ of any compared pair. -/
def Hub.overlapDone (h : Hub) (f diff : Nat) : Hub :=
  let st := h.swingSt f
  let c := h.get (Obj.swingCore f)
  let sw := (h.fe f).swing
  let bad := diff > h.get Obj.swingMatchLsb
  let mismatch (o : Nat) (h : Hub) : Hub := (h.bump (Obj.swingMismatches f)).log 0x0405 1 (srcFe f)
    (f + c * 256 + o * 65536 + satNat 65535 diff * 2 ^ 32)
  if st = 1 then
    if bad then ((mismatch 0 h).swingIdle f).bgNext f
    else
      let i := sw.start + h.get Obj.swingOverlapFrames
      let h := h.waitFor 0 (gridU i)
      let h := h.modSwing f (fun v => { v with from_ := i })
      let h := (h.put (Obj.swingState f) 2).put (Obj.coreCoreStatus (f * 12 + c)) 3
      let h := h.log 0x0403 0 (srcFe f) (f + c * 256)
      h.when sw.byCal (·.bgCalibrate f c)
  else if st = 3 then
    if bad then
      let h := mismatch 1 h
      if sw.failedOnce then h.swingPermanent f c 0
      else
        let h := h.modSwing f (fun v => { v with failedOnce := true })
        ((h.put (Obj.swingState f) 2).put (Obj.coreCoreStatus (f * 12 + c)) 3).bgCalibrate f c
    else
      let h := (h.waitFor 0 (gridU (sw.start + h.get Obj.swingOverlapFrames))).modSwing f (fun v => { v with prev := none })
      ((h.swingIdle f).log 0x0404 0 (srcFe f) (f + c * 256)).bgNext f
  else h

/-- An overlap of FE die f ends. -/
def execSwingOverlapDone (f : Fin 4) (diff : Nat) (s : State) : Host.Outcome State Fault Refusal :=
  onHubM (fun mb h => if mb.samples && h.feUp f then h.overlapDone f diff else h) s

/-- 16 consecutive REF conversions of a core lie outside 26,214 ± 131 codes (R141). -/
def execCoreFault (k : Fin 48) (s : State) : Host.Outcome State Fault Refusal :=
  onHubM (fun mb h =>
    let f := k / 12
    let c := k % 12
    if !mb.samples || !h.feUp f || (h.core k).refStreak < 16 || h.get (Obj.coreCoreStatus k) ≥ 4 then h
    else if h.swingSt f = 4 then
      (h.put (Obj.coreCoreStatus k) 5).log 0x0407 2 (srcFe f) (f + c * 256 + h.get (Obj.coreRefLast k) * 65536)
    else
      let d := h.get (Obj.swingCore f)
      let next := h.time.nextGrid
      let served := h.swingSt f ≥ 2 && d ≠ c
      let h := if d < 12 && d ≠ c then h.swingIdle f else h
      let h := h.when served (·.modSwing f (fun v => { v with last := some (d, next) }))
      h.swingPermanent f c 1) s

/-! ### Foreground calibration (R182 to R185) -/

/-- The steps of a kind, by their codes in CAL_STEP (Table 6.4). -/
def calSteps (kind : Nat) : List Nat :=
  if kind = 1 then [1, 3, 6] else if kind = 2 then [1, 3, 4, 5, 6] else [1, 2, 3, 4, 5, 6]

/-- The duration of a step in milliseconds. -/
def calStepMs (step : Nat) : Nat := [0, 192, 64, 256, 896, 2304, 50].getD step 0

/-- A foreground calibration starts: step B of the kind in CAL_KIND (R182). -/
def Hub.calStart (h : Hub) : Hub :=
  let now := h.time.ticks
  let h := h.swingStop
  let h := h.modCal (fun c => { c with step := 0, stepAt := now, results := [], failed := [] })
  (h.put Obj.calStep 1).log 0x0601 0 srcPkg (h.get Obj.calKind)

/-- The calibration ends with nothing applied: CAL_RESULT is the abort code (R184).
(DESIGN CHOICE: log 50; DEDUCED: log 157.) -/
def Hub.calAbort (h : Hub) (code fe step : Nat) (value : Int) : Hub :=
  let h := h.modCal (fun c => { c with results := [], failed := [] })
  ((h.put Obj.calResult code).put Obj.calStep 0).log 0x0603 2 srcPkg
    (code + fe * 65536 + step * 2 ^ 24 + ofSigned 32 (clampInt (-(2 ^ 31)) (2 ^ 31 - 1) value) * 2 ^ 32)

/-- The emergency shutdown interrupts a foreground calibration: nothing is applied, and the code stands in the record of the cause
alone (Table 6.5). -/
def Hub.calDrop (h : Hub) : Hub :=
  if h.get Obj.calStep = 0 then h
  else ((h.modCal (fun c => { c with results := [], failed := [] })).put Obj.calResult Abort.calInterrupted).put Obj.calStep 0

/-- A running foreground calibration is interrupted (CAL_CANCEL, SAFE cause, hand-over). (DEDUCED: log 157.) -/
def Hub.calInterrupt (h : Hub) : Hub :=
  if h.get Obj.calStep = 0 then h else h.calAbort Abort.calInterrupted 0 (h.get Obj.calStep) 0

/-- A result is held until it is applied. (DESIGN CHOICE: log 50.) -/
def Hub.calHold (h : Hub) (k v : Nat) : Hub := h.modCal (fun c => { c with results := c.results ++ [(k, v)] })

/-- The value a term will have: the one held, else the one in force. -/
def Hub.calHeld (h : Hub) (k : Nat) : Nat :=
  match h.cal.results.reverse.find? (fun e => e.1 = k) with
  | some e => e.2
  | none => h.get k

/-- Channel n keeps all its previous terms; the first 16 such channels are logged (R184). -/
def Hub.calChannelFailed (h : Hub) (n r cause : Nat) : Hub :=
  if h.cal.failed.contains n then h else
  let h := h.modCal (fun c => { c with failed := c.failed ++ [n] })
  if h.cal.failed.length ≤ 16 then
    h.log 0x0604 1 (srcFe (chFe n)) (n + r * 4096 + cause * 16384 + h.get Obj.calStep * 65536)
  else h

/-- The converters of step B, by place f × 13 + c: the first that fails stability twice, if any. -/
def unstable (l : List CalConv) (p : Nat) : Bool :=
  let v := l.getD p default
  (List.range 3).any (fun i => v.spread1.getD i 0 ≥ 500 && v.spread2.getD i 0 ≥ 500)

/-- Step B: every converter of every die (R179, R182). -/
def Hub.calStepB (h : Hub) (r : CalReading) : Hub :=
  h.forEach h.feList (fun f h => h.forEach (List.range 13) (fun c h =>
    let v := r.convs.getD (f * 13 + c) default
    let ks := convKeys f c
    let t := h.convTerms (h.get ks.1) (h.get ks.2) v.zero v.plus v.minus
    (t.2.calHold ks.1 (ofSigned 32 t.1.1)).calHold ks.2 (ofSigned 32 t.1.2)))

/-- Vm of R183 in µV, from the sum of 64 readings in 2⁻¹⁶ codes and REF_VALUE in nV. -/
def traceVm (sum : Int) (ref : Nat) : Rat := (sum : Rat) / (64 * 65536) * 78125 / 1000 * (ref : Rat) / 2048000000

/-- The largest less the smallest of a list. -/
def spreadOf : List Int → Int
  | [] => 0
  | x :: xs => xs.foldl max x - xs.foldl min x

/-- Step A on one die: the abort code and its value, or the results (R183). (DESIGN CHOICE: log 49.) -/
def Hub.calTrace (h : Hub) (r : CalReading) (f : Nat) : Hub × Nat × Int :=
  let l := r.refs.getD f []
  let ref := h.get (Obj.caldRefValue f)
  let vm := traceVm (sumInt l) ref
  let decl : Int := h.getI 32 Obj.calRefDeclared
  let sp := spreadOf l
  let vmR := h.ratOpen vm
  let spR := vmR.2.divOpen (sp * 100) 65536
  let h := spR.2
  if r.refTrips.contains f then (h, Abort.calRefMismatch, vmR.1)
  else if sp ≥ 5 * 65536 then (h, Abort.calRefUnstable, spR.1)
  else if ratAbs (vm - decl) > ratAbs decl / 200 then (h, Abort.calRefMismatch, vmR.1)
  else
    let n := if vm = 0 then h.drawInt else h.ratOpen ((ref : Rat) * decl / vm)
    let h := n.2
    let h := (h.calHold (Obj.caldRefValue f) (ofSigned 32 n.1)).calHold (Obj.caldRefSource f) 2
    let h := (h.calHold (Obj.caldTraceDeclared f) (ofSigned 32 decl)).calHold (Obj.caldTraceMeasured f) (ofSigned 32 vmR.1)
    (h.calHold (Obj.caldTraceSpread f) (satNat 65535 spR.1.toNat), 0, 0)

/-- Step A over the dies in ascending order: the first failure ends the calibration. -/
def calTraceAll (r : CalReading) : Hub → List Nat → Hub × Nat × Nat × Int
  | h, [] => (h, 0, 0, 0)
  | h, f :: fs =>
    let t := h.calTrace r f
    if t.2.1 = 0 then calTraceAll r t.1 fs else (t.1, t.2.1, f, t.2.2)

/-- The spread of a channel's reading at a range is too large. -/
def calWide (r : CalReading) (n i : Nat) : Bool := (r.spreads.getD n []).getD i 0 ≥ 500

/-- The offset limit of R171 in 2⁻¹⁶ LSB₁₈, and the gain limits in 2⁻³⁰. -/
def offsetOk (o : Int) : Bool := o.natAbs ≤ 2048 * 65536
def gainOk (g : Int) : Bool := 10 * g ≥ 9 * 2 ^ 30 && 10 * g ≤ 11 * 2 ^ 30

/-- The channel is served for good by its die's swing core (R182). -/
def Hub.viaSwing (h : Hub) (n : Nat) : Bool := h.swingSt (chFe n) = 4 && h.get (Obj.swingCore (chFe n)) = chCore n % 12

/-- Step C: OFFSET(r) from the shorted input; through a permanent swing core less BUF_OFFSET (R182). (DESIGN CHOICE: log 49.) -/
def Hub.calStepC (h : Hub) (r : CalReading) : Hub :=
  h.forEach h.chList (fun n h => h.forEach (List.range 4) (fun g h =>
    let k := chCore n
    let i := chInput n
    let m := (r.means.getD n []).getD g 0
    let o := if h.viaSwing n then m - h.getI 32 (Obj.calcBufOffset k i) else m
    if calWide r n g then h.calChannelFailed n g 0
    else if !offsetOk o then h.calChannelFailed n g 1
    else h.calHold (Obj.calcOffset k i g) (ofSigned 32 o)))

/-- The gains of step D as exact rationals: GAIN(0) from L₀, GAIN(r) = GAIN(r − 1) × ratio. -/
def gainChain (ref : Nat) (m : List Int) : Nat → Rat
  | 0 => (m.getD 0 0 : Rat) * (ref : Rat) / 2048000000 / (m.getD 1 0 : Rat)
  | r + 1 => gainChain ref m r * 4 * (m.getD (2 * r + 2) 0 : Rat) / (m.getD (2 * r + 3) 0 : Rat)

/-- Step D: GAIN(r); through a permanent swing core divided by BUF_GAIN (R182). (DESIGN CHOICE: log 49.) -/
def Hub.calStepD (h : Hub) (r : CalReading) : Hub :=
  h.forEach h.chList (fun n h =>
    let k := chCore n
    let i := chInput n
    let m := r.means.getD n []
    let ref := h.calHeld (Obj.caldRefValue (chFe n))
    let buf : Rat := (h.get (Obj.calcBufGain k i) : Rat) / (2 ^ 30 : Nat)
    h.forEach (List.range 4) (fun g h =>
      let x := gainChain ref m g * (2 ^ 30 : Nat)
      let x := if h.viaSwing n && buf ≠ 0 then x / buf else x
      let q := h.ratOpen x
      let h := q.2
      if calWide r n g then h.calChannelFailed n g 0
      else if m.getD (2 * g + 1) 0 = 0 || !gainOk q.1 then h.calChannelFailed n g 1
      else h.calHold (Obj.calcGain k i g) (ofSigned 32 q.1)))

/-- Step E: the BUF terms, on dies whose swing core is not PERMANENT. (DESIGN CHOICE: log 49.) -/
def Hub.calStepE (h : Hub) (r : CalReading) : Hub :=
  h.forEach (h.chList.filter (fun n => h.swingSt (chFe n) ≠ 4)) (fun n h =>
    let k := chCore n
    let i := chInput n
    let m := r.means.getD n []
    let o := m.getD 5 0 - m.getD 4 0
    let d := m.getD 1 0 - m.getD 3 0
    let q := h.ratOpen (if d = 0 then 0 else ((m.getD 0 0 - m.getD 2 0 : Int) : Rat) / (d : Rat) * (2 ^ 30 : Nat))
    let h := q.2
    if calWide r n 0 then h.calChannelFailed n 0 0
    else if !offsetOk o || !gainOk q.1 then h.calChannelFailed n 0 1
    else (h.calHold (Obj.calcBufOffset k i) (ofSigned 32 o)).calHold (Obj.calcBufGain k i) (ofSigned 32 q.1))

/-- A key belongs to the terms of a channel that keeps its previous ones. -/
def keptKey (failed : List Nat) (k : Nat) : Bool := failed.any (fun n => (termKeys (chCore n) (chInput n)).contains k)

/-- The results are applied together at raw-frame boundary `g` (R185); words held before it keep the terms that stood (R171).
(DESIGN CHOICE: log 50.) -/
def Hub.calApply (h : Hub) (g : Nat) : Hub :=
  let kind := h.get Obj.calKind
  let failed := h.cal.failed
  let res := h.cal.results.filter (fun e => !keptKey failed e.1)
  let prior := (res.map (·.1) ++ (List.range 48).map Obj.calcTCal).map (fun k => (k, h.get k))
  let h := h.modCal (fun c => { c with lastKind := kind, prior := prior, priorTo := g / uGrid })
  let h := h.forEach res (fun e h => h.put e.1 e.2)
  let h := h.forEach h.feList (fun f h => h.when (kind = 3) (fun h => h.put (Obj.caldTraceTime f) (time96 g 0)))
  let h := h.forEach ((List.range 48).filter (fun k => h.feUp (k / 12))) (fun k h =>
    let t := ((h.core k).temps.head?.map Prod.snd).getD (h.getI 16 (Obj.calcTCal k))
    (h.putI 16 (Obj.calcTCal k) t).modCore k (fun v => { v with staleLogged := false }))
  let h := h.forEach h.chList (fun n h =>
    let st := h.get (Obj.chCalStatus n)
    if failed.contains n then h.put (Obj.chCalStatus n) (setBit st 2 true)
    else
      let traced := if kind = 1 then bitOf st 4 else h.get (Obj.caldRefSource (chFe n)) = 2
      let st := setBit (setBit (setBit st 2 false) 3 false) 4 traced
      ((h.put (Obj.chCalStatus n) (st / 4 * 4 + 2)).bump (Obj.chCalCount n)).put (Obj.chCalLast n) (time96 g 0))
  (h.put Obj.calChannelsFailed failed.length).put Obj.calLastForeground (time96 g 0)

/-- The next step begins. -/
def Hub.calNext (h : Hub) : Hub :=
  let i := h.cal.step + 1
  let now := h.time.ticks
  (h.modCal (fun c => { c with step := i, stepAt := now })).put Obj.calStep ((calSteps (h.get Obj.calKind)).getD i 6)

/-- The hub returns to CONFIGURE (R184). -/
def calReturn (mb : ModeBlock) (h : Hub) (ok : Bool) : ModeBlock × Hub :=
  enterMode mb h .configure (if ok then 0x0602 else 0x0603)

/-- The end of a foreground step (R182 to R185). -/
def calStepDone (mb : ModeBlock) (h : Hub) (r : CalReading) : ModeBlock × Hub :=
  let step := h.get Obj.calStep
  if mb.mode ≠ .calibrate || step = 0 then (mb, h)
  else if step = 6 then
    let h := h.waitTicks (min r.dt (50 * tMs))
    let h := h.waitBoundary
    let h := h.calApply h.boundary
    let h := (h.put Obj.calResult 0).put Obj.calStep 0
    let h := h.writeAll r.bad true
    let h := h.log 0x0602 0 srcPkg (h.get Obj.calKind + h.get Obj.calChannelsFailed * 65536)
    calReturn mb h true
  else
    let h := h.waitTick (h.cal.stepAt + calStepMs step * tMs)
    if step = 1 then
      match (h.feList.flatMap (fun f => (List.range 13).map (fun c => f * 13 + c))).find? (unstable r.convs) with
      | some p => calReturn mb (h.calAbort Abort.calConverterUnstable (p / 13) step 0) false
      | none => (mb, (h.calStepB r).calNext)
    else if step = 2 then
      let t := calTraceAll r h h.feList
      if t.2.1 ≠ 0 then calReturn mb (t.1.calAbort t.2.1 t.2.2.1 step t.2.2.2) false else (mb, t.1.calNext)
    else if step = 3 then (mb, (h.calStepC r).calNext)
    else if step = 4 then (mb, (h.calStepD r).calNext)
    else (mb, (h.calStepE r).calNext)

/-- A foreground calibration step completes with what it has read. -/
def execCalStepDone (r : CalReading) (s : State) : Host.Outcome State Fault Refusal :=
  onBoth (fun mb h => calStepDone mb h r) s

/-- CAL_CANCEL written 1: the running calibration ends with CAL_INTERRUPTED (R184). -/
def applyCalCancel (mb : ModeBlock) (h : Hub) : ModeBlock × Hub :=
  if mb.mode ≠ .calibrate || h.get Obj.calStep = 0 then (mb, h) else calReturn mb h.calInterrupt false

end Sys2Proof.Machine
end

