-- ==== Sys2Proof/Machine/Conversion.lean ====
section
/-! DEFINITION. Holding on the grid, the converter cores and their frames, injected sequences and the hold-skew measurement
(R120 to R137, R141, R180). -/
namespace Sys2Proof.Machine

/-- 50 ns in 2⁻¹⁶ ns. -/
def uSlot : Nat := 65536 * 50

/-! ### Raw codes (R125) -/

/-- A voltage divided by the LSB, rounded to the nearest integer and limited to the clamp codes. (DESIGN CHOICE: log 33.) -/
def Hub.quantise (h : Hub) (x : Rat) : Int × Hub :=
  let q := h.ratNearest x
  (clampInt codeMin codeMax q.1, q.2)

/-- A clamp code. -/
def isClamp (c : Int) : Bool := c = codeMax || c = codeMin

/-- The code forced while the common-mode comparator is tripped (R90). -/
def cmCode (volts : Int) : Int := if volts < 0 then codeMin else codeMax

/-- The input converted in regular slot s (R127). -/
def Hub.regInput (h : Hub) (k s : Nat) : Nat := field (h.get (Obj.coreRegOrder k)) (4 * s) 3

/-- The background entry at list position p (R128). -/
def Hub.bgEntry (h : Hub) (k p : Nat) : Nat := field (h.get (Obj.coreBgList k)) (4 * p) 4

/-- The injected entries of a core: its eligible inputs in ascending order, at most 4 (R131). -/
def Hub.injEntries (h : Hub) (k : Nat) : List Nat :=
  ((List.range 8).filter (fun i => h.flag (Obj.chInjEligible (k * 8 + i)))).take 4

/-! ### Finishing a conversion -/

/-- The word joins the raw frame of its grid index, in hand or sent. -/
def FeSt.addTo (v : FeSt) (i : Nat) (f : RawFrame → RawFrame) : FeSt :=
  if v.frame.idx = i then { v with frame := f v.frame }
  else { v with sent := v.sent.map (fun r => if r.idx = i then f r else r) }

/-- A regular conversion is ready: word, down count, PREDICT_MISSES and FE_STATUS (R95, R98). (DESIGN CHOICE: log 193, 195.) -/
def Hub.finishRegular (h : Hub) (k : Nat) (c : Conv) : Hub :=
  let n := k * 8 + c.input
  let v := h.ch n
  let w := c.word
  let dc := h.get (Obj.chDownCount n)
  let down := if h.auto n && w.range = v.range && w.code.natAbs ≤ downThreshold.natAbs then min (v.down + 1) dc else 0
  let h := h.modCh n (fun v => { v with conv := ((c.frame, w.range, w.code) :: v.conv).take 4, down := down })
  let miss := isClamp w.code && !v.cm && h.auto n && w.range > h.get (Obj.chRangeCoarsest n)
  let h := h.when miss (·.bump (Obj.chPredictMisses n))
  let h := ((h.putBit (Obj.chFeStatus n) 5 (isClamp w.code)).putBit (Obj.chFeStatus n) 6 w.nbr).putBit
    (Obj.chFeStatus n) 7 w.exc
  h.modFe (k / 12) (fun v => v.addTo c.frame (fun r => { r with words := r.words ++ [(n % 96, w)] }))

/-- A side word of a conversion (Table 4.2). -/
def Conv.side (c : Conv) (k : Nat) : SideWord :=
  { word := c.word, core := k % 12, slot := c.slot, inj := c.kind = .injected, entry := c.entry, hold := c.hold
    chan := if c.kind = .injected then k * 8 + c.input else if c.source < 3 then 384 + k * 3 + c.source else 0xFFF }

/-- A CALBUS code enters the drift mean, and DRIFT is the deviation of the mean of the latest 256 from 26,214.4 codes (R180).
The entry counts only while the bus rests at +bandgap and serves no calibration; in a round that is ending nothing is flagged.
(DESIGN CHOICE: log 37.) -/
def Hub.calbusCode (h : Hub) (k : Nat) (code : Int) : Hub :=
  let f := k / 12
  if (h.bg f).conv.isSome || h.get Obj.calStep ≠ 0 || h.calBus f ≠ .plusRef then h else
  let h := h.modCore k (fun v => { v with calbus := (code :: v.calbus).take 256 })
  let l := (h.core k).calbus
  if l.length < 256 then h else
  let d := sumInt l * 10 - 67108864
  let q := h.divOpen (d * 100000000) 67108864
  let h := q.2.putI 32 (Obj.calcDrift k) q.1
  if d.natAbs * 1000000 > h.get Obj.calDriftLimit * 67108864 && !(h.core k).driftFlag && !(h.bg f).ending then
    h.calDrift f (k % 12) q.1 else h

/-- A REF code: REF_LAST and the run of codes outside 26,214 ± 131 (R141). -/
def Hub.refCode (h : Hub) (k : Nat) (code : Int) : Hub :=
  let out := decide ((code - 26214).natAbs > 131)
  (h.putI 32 (Obj.coreRefLast k) code).modCore k (fun v => { v with refStreak := if out then v.refStreak + 1 else 0 })

/-- The conversion of a core that has ended by now is ready. (DESIGN CHOICE: log 193, 195.) -/
def Hub.finishConv (h : Hub) (k : Nat) : Hub :=
  match (h.core k).cur with
  | none => h
  | some c =>
    if h.now 0 < c.ends then h else
    let h := h.modCore k (fun v => { v with cur := none })
    match c.kind with
    | .regular => h.finishRegular k c
    | .injected => h.modFe (k / 12) (fun v => v.addTo c.frame (fun r => { r with sides := r.sides ++ [c.side k] }))
    | .background =>
      let h := h.modFe (k / 12) (fun v => v.addTo c.frame (fun r => { r with sides := r.sides ++ [c.side k] }))
      if c.source = 0 then h.refCode k c.word.code
      else if c.source = 3 then h.calbusCode k c.word.code else h

/-- Every conversion that has ended by now is ready. -/
def Hub.finishAll (h : Hub) : Hub := h.forEach (List.range 48) (fun k h => h.finishConv k)

/-! ### GRID_HOLD (R120, R121) -/

/-- Each FE die places its hold: φ plus HOLD_TRIM, borrowing from or carrying into the tick. -/
def Hub.placeHolds (h : Hub) (u : Nat) : Hub :=
  let inc := h.incr 0
  let last := h.acc 0 - inc
  h.forEach (List.range 4) (fun f h =>
    let c := steer last inc u + h.getI 8 (Obj.holdTrim f)
    let j : Int := (h.time.ticks : Int) - 1 + c / 512
    h.modFe f (fun v => { v with holdTick := j.toNat, holdCode := (c % 512).toNat }))

/-- A new frame of a core begins: a guard frame when the background list has had no slot in 64 frames (R135). -/
def Hub.coreFrame (h : Hub) (i k : Nat) : Hub :=
  let v := h.core k
  let starve := if v.bgDone then 0 else v.bgStarve + 1
  let guard := decide (starve ≥ 64)
  let regs := (List.range 8).map (h.regInput k)
  let h := h.modCore k (fun v => { v with
    frame := i, slot := 0, guard := guard, injUsed := 0, regPending := regs, bgStarve := starve, bgDone := false })
  h.when guard (·.bump (Obj.coreBgStarveCount k))

/-- The stamp of an injected hold at `d` (R197): the last tick below it plus the steering code that the hold took, `resid` steps
from the nearest, for it falls within one step of its instant (R132). -/
def Hub.injStamp (h : Hub) (d : Nat) (resid : Int) : Nat :=
  let inc := h.incr 0
  let last := h.acc 0 - inc
  uOfAcc (((last : Int) + (steer last inc d + resid) * inc / 512).toNat)

/-- The entries of a start are held, `stamp` being what the FE die's TDC says of the instant (R126, R133). -/
def Hub.injTake (h : Hub) (k stamp : Nat) (q : List InjEntry) : Hub :=
  let h := h.modCore k (fun v => { v with injQ := q, injHold := stamp })
  let h := h.modFe (k / 12) (fun v => { v with frame := { v.frame with stamps := v.frame.stamps ++ [(k % 12, stamp)] } })
  (h.bump (Obj.coreInjStarts k)).put (Obj.coreInjLastHold k) (time96 stamp 0)

/-- The injection sample-and-holds of core k hold its entries: of each the voltage, and whether its comparator is tripped.
(DESIGN CHOICE: log 198.) -/
def Hub.injHold (h : Hub) (k stamp : Nat) (holds : List (Int × Bool)) : Hub :=
  let r := (h.injEntries k).foldl (fun (a : List InjEntry × Hub) i =>
    let e := a.1.length
    let x := a.2.holdInjected (k * 8 + i) (holds.getD e (0, false)).1 (holds.getD e (0, false)).2
    (a.1 ++ [{ x.1 with entry := e }], x.2)) ([], h)
  r.2.injTake k stamp r.1

/-- An injected hold deferred to this grid hold is taken with it, in the new ranges: it finds what the grid hold finds (R133). -/
def Hub.deferredHold (h : Hub) (i k : Nat) : Hub :=
  if (h.core k).defer ≠ some i then h else
  let h := h.modCore k (fun v => { v with defer := none })
  let es := h.injEntries k
  h.injTake k (h.injStamp (gridU i) 0) ((List.range es.length).map (fun e =>
    let v := h.ch (k * 8 + es.getD e 0)
    { input := es.getD e 0, entry := e, volts := v.volts, cm := v.cm, ovr := v.ovr, nbrSrc := v.nbrSrc }))

/-- At each grid instant every sample-and-hold of every FE die holds its channel (R120). -/
def Hub.gridHold (h : Hub) (r : HoldReadings) : Hub :=
  let i := h.time.nextGrid
  let h := h.waitFor 0 (gridU i)
  let h := (h.finishAll).placeHolds (gridU i)
  let h := h.forEach (List.range 96) (fun d h => h.senseOne i r.senses d)
  let v := h.switched r.volts
  let h := v.2.forEach (h.chList.filter (fun n => h.marked (chFe n))) (fun n h => h.holdOne i v.1 r.trips n)
  let h := h.forEach (h.feList.filter h.marked) (fun f h => h.modFe f (fun v => { v with
    sent := (if v.frame.words = [] then v.sent else v.sent ++ [v.frame]).reverse.take 3 |>.reverse
    frame := { idx := i, status := (vget h.red.arbs f).status } }))
  let h := h.forEach ((List.range 48).filter (fun k => h.feUp (k / 12) && h.marked (k / 12))) (fun k h => (h.coreFrame i k).deferredHold i k)
  let h := { h with time := { h.time with nextGrid := i + 1 } }
  h.xchkSample.refclkFrom (gridU i)

/-- A grid instant at which nothing is held: the cross-check samples, and REFCLK_OUT runs on. -/
def Hub.gridOnly (h : Hub) : Hub :=
  let i := h.time.nextGrid
  let h := h.waitFor 0 (gridU i)
  ({ h with time := { h.time with nextGrid := i + 1 } }).xchkSample.refclkFrom (gridU i)

/-- The grid hold, with what the environment shows at it. (DESIGN CHOICE: log 33.) -/
def execGridHold (r : HoldReadings) (s : State) : Host.Outcome State Fault Refusal :=
  onHubM (fun mb h => if mb.samples then h.gridHold r else if mb.up then h.gridOnly else h) s

/-- 100 ns before the next grid instant each AUTO channel decides the range of its next hold (R95). -/
def execAutoRangeDecision (s : State) : Host.Outcome State Fault Refusal :=
  onHubM (fun mb h =>
    if !mb.samples then h
    else ((h.waitFor 0 (gridU h.time.nextGrid - 2 * uSlot)).finishAll).autoRange) s

/-! ### CORE_SLOT_BOUNDARY (R134) -/

/-- What a slot converts next (R134). -/
inductive SlotChoice where
  | background
  | injected (e : InjEntry)
  | regular (input : Nat)
deriving DecidableEq, Repr

/-- The choice of R134 at slot boundary `s`, at instant `u`. -/
def chooseSlot (v : CoreSt) (s u : Nat) (suspended : Bool) : SlotChoice :=
  let cap := if v.guard then 1 else 2
  if v.guard && s = 9 then .background
  else
    match v.injQ with
    | e :: _ => if !suspended && v.injHold < u && v.injUsed < cap then .injected e
      else match v.regPending with
        | i :: _ => .regular i
        | [] => .background
    | [] =>
      match v.regPending with
      | i :: _ => .regular i
      | [] => .background

/-- A channel's regular or injected conversion of voltage `x` (R125), whose hold found the comparator `cm` and asks for OVR: its
code and raw word. -/
def Hub.channelWord (h : Hub) (k n i : Nat) (x : Int) (nbr cm ovr : Bool) : RawWord × Hub :=
  let v := h.ch n
  let q := h.quantise ((x : Rat) / (lsbOf v.range : Nat))
  let code := if cm then cmCode x else q.1
  ({ code := code, range := v.range, ovr := ovr || isClamp code, nbr := nbr, exc := v.exc
     swing := h.swingServes (k / 12) (k % 12) i, ratio := v.ratio, fault := v.fault }, q.2)

/-- The slot starts its conversion. `bg` is what the core's internal source shows, in codes / 256. -/
def Hub.startSlot (h : Hub) (k s u : Nat) (bg : Int) (c : SlotChoice) : Hub :=
  let v := h.core k
  let i := v.frame
  let base : Conv := { frame := i, slot := s, ends := u + uSlot, hold := u }
  match c with
  | .background =>
    let n := h.get (Obj.coreBgCount k)
    let p := if v.bgPos < n then v.bgPos else 0
    let e := h.bgEntry k p
    let q := h.quantise ((bg : Rat) / 256)
    let w : RawWord := { code := q.1, ovr := isClamp q.1, nbr := v.nbrNext, swing := h.swingServes (k / 12) (k % 12) i }
    q.2.modCore k (fun v => { v with
      cur := some { base with kind := .background, entry := p, source := e, word := w }
      bgPos := if p + 1 < n then p + 1 else 0
      bgDone := true, bgStarve := 0, nbrNext := false })
  | .injected e =>
    let n := k * 8 + e.input
    let w := h.channelWord k n i e.volts v.nbrNext e.cm e.ovr
    let hold := v.injHold
    w.2.modCore k (fun v => { v with
      cur := some { base with kind := .injected, input := e.input, entry := e.entry, hold := hold, word := w.1 }
      injQ := v.injQ.drop 1, injUsed := v.injUsed + 1, nbrNext := e.nbrSrc })
  | .regular inp =>
    let n := k * 8 + inp
    let w := h.channelWord k n i (h.ch n).volts v.nbrNext (h.ch n).cm (h.ch n).ovr
    let src := (h.ch n).nbrSrc
    w.2.modCore k (fun v => { v with
      cur := some { base with kind := .regular, input := inp, hold := gridU i, word := w.1 }
      regPending := v.regPending.drop 1, nbrNext := src })

/-- At a slot boundary a core's finished conversion is ready and it chooses the next. -/
def Hub.slotBoundary (h : Hub) (m : Mode) (k : Nat) (bg : Int) : Hub :=
  let v := h.core k
  if !h.feUp (k / 12) || v.slot ≥ 10 then h else
  let u := gridU v.frame + v.slot * uSlot
  let h := (h.waitFor 0 u).finishConv k
  let c := chooseSlot (h.core k) v.slot u (m = .calibrate)
  let h := h.startSlot k v.slot u bg c
  h.modCore k (fun v => { v with slot := v.slot + 1 })

/-- The next slot boundary of core k (f × 12 + c), with the reading of its internal source in codes / 256. -/
def execCoreSlotBoundary (k : Fin 48) (bg : Int) (s : State) : Host.Outcome State Fault Refusal :=
  onHubM (fun mb h => if mb.samples then h.slotBoundary mb.mode k bg else h) s

/-! ### Injected sequences (R132, R133, R137) -/

/-- The holds of an earlier start are still unconverted. (DESIGN CHOICE: log 171.) -/
def CoreSt.injBusy (v : CoreSt) : Bool :=
  !v.injQ.isEmpty || v.defer.isSome || (match v.cur with
    | some c => c.kind = .injected
    | none => false)

/-- A start is dropped and counted; the first drop is logged, and further ones only after 1 s without a drop (R133). -/
def Hub.injDrop (h : Hub) (k : Nat) : Hub :=
  let h := h.bump (Obj.coreInjDropped k)
  let now := h.time.ticks
  let log := match (h.core k).dropAt with
    | some t => decide (now ≥ t + tSec)
    | none => true
  let h := h.modCore k (fun v => { v with dropAt := some now })
  if log then h.log 0x0402 1 (srcFe (k / 12)) (k / 12 + k % 12 * 256 + h.get (Obj.coreInjDropped k) * 65536) else h

/-- Injected sequences run in this mode (R137). -/
def ModeBlock.injects (b : ModeBlock) : Bool := b.samples && b.mode ≠ .calibrate

/-- A source edge at instant `u` reaches core k: its hold is due INJ_DELAY × 12.5 ns later (R132). An edge is dropped while holds
already taken are unconverted; one that comes while an earlier start still waits out its INJ_DELAY makes a second hold due.
(DESIGN CHOICE: log 171.) -/
def Hub.injEdge (h : Hub) (k u : Nat) : Hub :=
  if (h.injEntries k).isEmpty then h
  else if (h.core k).injBusy then h.injDrop k
  else
    let d := u + h.get (Obj.coreInjDelay k) * 819200
    h.modCore k (fun v => { v with dues := v.dues ++ [d] })

/-- KIND, NUMBER and EDGE of a core's INJ_SOURCE (Table 4.9). -/
def Hub.injKind (h : Hub) (k : Nat) : Nat := field (h.get (Obj.coreInjSource k)) 0 4
def Hub.injNumber (h : Hub) (k : Nat) : Nat := field (h.get (Obj.coreInjSource k)) 4 5
def Hub.injEdges (h : Hub) (k : Nat) : Nat := field (h.get (Obj.coreInjSource k)) 9 2

/-- An edge of a source of kind `kind`, number `num` on FE die f (any die for a cue), waits at every core that takes it. -/
def Hub.sourceEdge (h : Hub) (kind num : Nat) (fe : Option Nat) (rising : Bool) (u : Nat) : Hub :=
  h.forEach (List.range 48) (fun k h =>
    let e := h.injEdges k
    let takes := h.injKind k = kind && h.injNumber k = num && (fe = none || fe = some (k / 12)) &&
      (kind = 1 || (if rising then e % 2 = 1 else e / 2 = 1))
    h.when takes (·.modCore k (fun v => { v with edges := v.edges ++ [u] })))

/-- A pattern engine, and the engine that holds a string. -/
def Hub.pat (h : Hub) (g : Nat) : PatSt := vget h.pats g
def Hub.strEngine (h : Hub) (s : Nat) : Option Nat := (List.range 4).find? (fun g => h.bit (Obj.engEngMask g) s)

/-- The duty of a string (R297). -/
def Hub.strDuty (h : Hub) (s : Nat) : Nat :=
  if h.get (Obj.flSource s) = 2 then
    match h.strEngine s with
    | some g => (h.pat g).levels.getD s 0
    | none => 0
  else h.get (Obj.flDuty s)

/-- A footlights string. -/
def Hub.str (h : Hub) (s : Nat) : FlSt := vget h.strings s
def Hub.modStr (h : Hub) (s : Nat) (f : FlSt → FlSt) : Hub := { h with strings := vupd h.strings s f }

/-- A count of the PWM counter, 12.5 ns, in 2⁻¹⁶ ns. -/
def uCount : Nat := 819200

/-- The PWM period of a string. -/
def Hub.pwmPeriod (h : Hub) (s : Nat) : Nat := 2 ^ h.get (Obj.flPwmBits s) * uCount

/-- The duty in force in the PWM period that holds the LOCAL instant `t` (R301). -/
def Hub.dutyAt (h : Hub) (s t : Nat) : Nat := if t ≥ (h.str s).wantAt then (h.str s).want else (h.str s).duty

/-- The duty in force in a string's present PWM period. -/
def Hub.dutyNow (h : Hub) (s : Nat) : Nat := h.dutyAt s (h.now 2)

/-- The on interval of a duty in counts (R300). -/
def pwmOn (duty bits : Nat) : Nat := duty * 2 ^ bits / 65536

/-- The start of the latest on interval that has begun by the LOCAL instant `t`, and its length (R300): it begins at count PWM_PHASE
of a period with the duty of that period, and may wrap into the next. (DEDUCED: log 159.) -/
def Hub.pwmSpan (h : Hub) (s t : Nat) : Nat × Nat :=
  let b := h.get (Obj.flPwmBits s)
  let o := (h.str s).pwmFrom
  let p := h.get (Obj.flPwmPhase s) * uCount
  if t < o + p then (o, if pwmOn (h.dutyAt s o) b = 2 ^ b then p else 0)
  else
    let st := o + p + (t - o - p) / h.pwmPeriod s * h.pwmPeriod s
    (st, pwmOn (h.dutyAt s (st - p)) b * uCount)

/-- The PWM counter stands in its on interval at the LOCAL instant `t` (R300). -/
def Hub.pwmInOn (h : Hub) (s t : Nat) : Bool :=
  let r := h.pwmSpan s t
  t < r.1 + r.2

/-- The PWM edges of a string after the LOCAL instant `a`, in order, through the five on intervals from the one at `a` on: where the
level changes, so none at N = 0 or N = 2^B (R300). (DEDUCED: log 159.) -/
def Hub.pwmEdges (h : Hub) (s a : Nat) : List (Nat × Bool) :=
  let o := (h.str s).pwmFrom + h.get (Obj.flPwmPhase s) * uCount
  let st := max o (h.pwmSpan s a).1
  let at_ := (List.range 5).flatMap (fun k =>
    let e := st + k * h.pwmPeriod s
    [e, e + (h.pwmSpan s e).2])
  (at_.filter (fun e => a < e && h.pwmInOn s e != h.pwmInOn s (e - 1))).map (fun e => (e, h.pwmInOn s e))

/-- The ARRAY instant of a LOCAL instant near now. -/
def Hub.arrayOf (h : Hub) (t : Nat) : Nat := h.now 0 + t - h.now 2

/-- A start-source edge reaches core k: the oldest edge of its cue or control output, or the next edge of its footlights string's
PWM, whose instant and polarity the string's counter fixes: EDGE takes it or not (R132, R311). (DEDUCED: log 159.) -/
def execInjSourceEdge (k : Fin 48) (_dt : Nat) (_f : Fin 512) (_rising : Bool) (s : State) : Host.Outcome State Fault Refusal :=
  onHubM (fun mb h =>
    if !mb.samples || !h.feUp (k / 12) then h
    else if h.injKind k = 3 then
      let e := h.injEdges k
      let str := k / 12 * 2 + h.injNumber k
      if !mb.drives || !h.flag (Obj.flEnable str) then h else
      match (h.pwmEdges str (max (h.core k).pwmAt (h.now 2 - 262144))).find? (fun x => if x.2 then e % 2 = 1 else e / 2 = 1) with
      | none => h
      | some x =>
        let h := h.waitFor 2 x.1
        let h := h.modCore k (fun v => { v with pwmAt := x.1 })
        if mb.injects then h.injEdge k (h.arrayOf x.1) else h
    else
      match (h.core k).edges with
      | [] => h
      | u :: us =>
        let h := h.waitFor 0 u
        let h := h.modCore k (fun v => { v with edges := us })
        if mb.injects then h.injEdge k u else h) s

/-- INJ_SOFT_START written 1: the edge is the first raw-frame boundary after the write (R132). -/
def Hub.applyInjSoftStart (h : Hub) (mb : ModeBlock) (k : Nat) : Hub := if mb.injects then h.injEdge k h.boundary else h

/-- The range in which channel n holds at the next grid instant, as it is decided or a confirmed commit with that cue point
clips it. -/
def Hub.comingRange (h : Hub) (n : Nat) : Nat :=
  let r := h.heldRange n
  if h.get Obj.commitState = 2 && uOfTime96 (h.get Obj.commitCue) = gridU h.time.nextGrid then h.staged.clipped n r else r

/-- An entry of core k's injected sequence changes its range at the next grid hold. -/
def Hub.injRangeChange (h : Hub) (k : Nat) : Bool :=
  (h.injEntries k).any (fun i => decide (h.comingRange (k * 8 + i) ≠ (h.ch (k * 8 + i)).range))

/-- The injected hold of core k falls due (R133): taken, deferred to the grid hold, or dropped. `holds` gives each of its
entries the voltage at that instant and whether its common-mode comparator is tripped, and `resid` the steering steps by which the
hold misses the nearest. (DESIGN CHOICE: log 198.) -/
def Hub.injectedHold (h : Hub) (k : Nat) (holds : List (Int × Bool)) (resid : Int) : Hub :=
  match (h.core k).dues with
  | [] => h
  | d :: ds =>
    let h := h.waitFor 0 d
    let h := h.modCore k (fun v => { v with dues := ds })
    if (h.core k).injBusy then h.injDrop k
    else
      let g := h.time.nextGrid
      if d + 2 * uSlot > gridU g && d < gridU g && h.injRangeChange k then
        (h.modCore k (fun v => { v with defer := some g })).bump (Obj.coreInjDeferred k)
      else h.injHold k (h.injStamp d resid) holds

/-- The injection sample-and-holds of core k take the injected hold; `resid` is 1 more than its steering steps.
(DESIGN CHOICE: log 33, 199.) -/
def execInjectedHold (k : Fin 48) (holds : List (Int × Bool)) (resid : Fin 3) (s : State) : Host.Outcome State Fault Refusal :=
  onHubM (fun mb h => if mb.injects then h.injectedHold k holds ((resid.val : Int) - 1) else h) s

/-! ### The hold-skew measurement (R123) -/

/-- One die's measurement in 0.1 ps: HOLD_SKEW, and HOLD_SKEW_LIMIT, which a skew within 20 ps for 10 s arms again.
(DESIGN CHOICE: log 44.) -/
def Hub.skewOne (h : Hub) (skews : List Int) (f : Nat) : Hub :=
  let w := clampInt (-32768) 32767 (skews.getD f 0)
  let h := h.putI 16 (Obj.holdSkew f) w
  let now := h.time.ticks
  let v := h.fe f
  let quiet := match v.skewQuiet with
    | some t => decide (now ≥ t + 10 * tSec)
    | none => false
  let beyond := decide (w.natAbs > 250)
  let logged := v.skewLogged && !quiet
  let h := h.modFe f (fun v => { v with
    skewLogged := logged || beyond
    skewQuiet := if w.natAbs > 200 then none else if v.skewQuiet.isSome then v.skewQuiet else some now
    skewAt := now })
  if beyond && !logged then h.log 0x0401 1 (srcFe f) (f + ofSigned 16 w * 65536) else h

/-- HOLD_TRIM moves at most one step toward the mean that HOLD_SKEW was measured against. -/
def Hub.trimOne (h : Hub) (f : Nat) : Hub :=
  let w := h.getI 16 (Obj.holdSkew f)
  let step : Int := if 128 * w > 5000 then -1 else if 128 * w < -5000 then 1 else 0
  h.putI 8 (Obj.holdTrim f) (clampInt (-128) 127 (h.getI 8 (Obj.holdTrim f) + step))

/-- The measurement of once per second, with each die's skew from the mean of the dies present in 0.1 ps.
(DESIGN CHOICE: log 44.) -/
def execHoldSkewMeasure (skews : List Int) (s : State) : Host.Outcome State Fault Refusal :=
  onHubM (fun mb h =>
    if !(mb.drives || (mb.mode = .safe && mb.samples)) then h else
    let last := (h.feList.map (fun f => (h.fe f).skewAt)).foldl max 0
    let h := h.waitTick (last + tSec)
    let h := h.forEach h.feList (fun f h => h.skewOne skews f)
    h.waitBoundary.forEach h.feList (fun f h => h.trimOne f)) s

/-- The sums of 256 stamps of the reference edge, one per die, against each die's own steered hold, in steps of 7.8125 ps: what
only the silicon knows. (DESIGN CHOICE: log 36.) -/
def Hub.skewStamps (h : Hub) : List (Nat × Int) × Hub :=
  h.feList.foldl (fun (a : List (Nat × Int) × Hub) f =>
    let d := a.2.drawInt
    (a.1 ++ [(f, d.1)], d.2)) ([], h)

/-- A full hold-skew calibration (R122): each die's skew is the mean of the stamps of the dies present less its own (a later hold
stamps the edge earlier). HOLD_TRIM moves by the whole steps nearest to it, which leaves the smallest skew that one step allows,
and HOLD_SKEW reports what was measured. (DESIGN CHOICE: log 36.) -/
def Hub.fullSkew (h : Hub) : Hub :=
  let r := h.skewStamps
  let n := r.1.length
  let all := sumInt (r.1.map (·.2))
  r.2.forEach r.1 (fun e h =>
    let skew : Rat := ((all : Rat) / n - e.2) / 256
    let q := h.ratNearest skew
    let w := q.2.ratOpen (skew * 78125 / 1000)
    (w.2.putI 8 (Obj.holdTrim e.1) (clampInt (-128) 127 (h.getI 8 (Obj.holdTrim e.1) - q.1))).putI 16 (Obj.holdSkew e.1)
      (clampInt (-32768) 32767 w.1))

end Sys2Proof.Machine
end

