-- ==== Sys2Proof/Machine/MirrorOps.lean ====
section
/-! DEFINITION. Writes of the mirror memory's items (R454, R458 to R463). -/
namespace Sys2Proof.Machine

/-- The writes of an item that are visible at tick `t` are taken over: a lost output leaves the value and sets LOST.
(DEDUCED: log 140.) -/
def MirItem.settle (m : MirItem) (t : Nat) : MirItem :=
  let due := m.pend.filter (fun p => p.at_ ≤ t)
  let m := { m with pend := m.pend.filter (fun p => !(p.at_ ≤ t)) }
  due.foldl (fun m p => if p.lost then { m with lost := true }
    else { m with instant := p.instant, word := p.word, gen := (m.gen + 1) % 65536, valid := true, lost := false
                  wrote := p.at_ }) m

/-- A write is put behind an item's earlier ones. -/
def MirItem.put (m : MirItem) (now : Nat) (p : MirPend) : MirItem := let m := m.settle now; { m with pend := m.pend ++ [p] }

/-- An item cleared at tick `t`. (DEDUCED: log 141.) -/
def MirItem.clear (t : Nat) : MirItem := { wrote := t }

/-- The hub with the mirror changed. -/
def Hub.modMir (h : Hub) (f : MirSt → MirSt) : Hub := { h with mir := f h.mir }

/-- The write of an output: 200 ns later, with LOST where no die has it, and up to 2 µs later than that where the Lead takes
it from the Understudy (R461). (DEDUCED: log 140.) -/
def Hub.mirPend (h : Hub) (r : OutRec) : MirPend × Hub :=
  let at_ := h.time.ticks + 50
  let own := if h.leadDie = 0 then r.lost0 else r.lost1
  let other := if h.leadDie = 0 then r.lost1 else r.lost0
  if !own then ({ at_ := at_, instant := r.instant, word := r.word }, h)
  else if other || !h.understudy then ({ at_ := at_, lost := true }, h)
  else
    let d := h.drawNat
    ({ at_ := at_ + d.1 % 501, instant := r.instant, word := r.word }, d.2)

/-- A local or diagnostic channel's item is written. -/
def Hub.mirrorOut (h : Hub) (n : Nat) (r : OutRec) : Hub :=
  let p := h.mirPend r
  p.2.modMir (fun v => { v with items := vupd v.items n (·.put h.time.ticks p.1) })

/-- Core k's injected entry e is written. -/
def Hub.mirrorInj (h : Hub) (k e : Nat) (r : OutRec) : Hub :=
  let p := h.mirPend r
  p.2.modMir (fun v => { v with inj := vupd v.inj (4 * k + e) (·.put h.time.ticks p.1) })

/-- The channels of the forwarded slots: those with UNPACK set whose entry is in use, in ascending index (R458). -/
def Hub.mirFwd (h : Hub) : List Nat :=
  (((List.range 3568).map (· + 528)).filter (fun n => h.get (Obj.chSrcHub n) ≠ 0xFFFF && h.flag (Obj.chUnpack n))).take 496

/-- A forwarded channel's item on hub die x is written from an accepted frame (R463). -/
def Hub.mirrorFwd (h : Hub) (x n : Nat) (r : OutRec) : Hub :=
  match h.mirFwd.idxOf? n with
  | none => h
  | some i =>
    let p : MirPend := { at_ := h.time.ticks + 50, instant := r.instant, word := r.word, lost := r.lost0 && r.lost1 }
    h.modMir (fun v => if x = 0 then { v with fwd0 := vupd v.fwd0 i (·.put h.time.ticks p) }
      else { v with fwd1 := vupd v.fwd1 i (·.put h.time.ticks p) })

/-- CB_NEWEST_SEQ: the newest record held, 0 while none is (R86). -/
def Hub.cbNewest (h : Hub) : Nat :=
  match h.cb.ring, h.cb.nvm with
  | r :: _, _ => r.seq
  | [], r :: _ => r.seq
  | [], [] => 0

/-- ECC records are logged up to 16 times a second per die (R476): whether this one is, and the ticks of the latest. -/
def logLimited (recent : List Nat) (now : Nat) : Bool × List Nat :=
  let l := recent.filter (fun t => now < t + tSec)
  if l.length < 16 then (true, now :: l) else (false, l)

/-- An uncorrectable green-room error at bank and line address `item` of hub die x is counted and logged (R469, R476). -/
def Hub.grError (h : Hub) (x item : Nat) : Hub :=
  let h := h.bump (Obj.hdGrEccUncorrected x)
  let l := logLimited (vget h.mir.grLogs x) h.time.ticks
  let h := h.modMir (fun v => { v with grLogs := vset v.grLogs x l.2 })
  if l.1 then h.log 0x0F02 2 (srcHd x) (srcHd x + item % 2 ^ 24 * 256) else h

/-- An uncorrectable error of memory die m in region `r` at byte address `a` is counted and logged (R473, R476). -/
def Hub.mdError (h : Hub) (m r a : Nat) : Hub :=
  let h := h.bump (Obj.hdMdEccUncorrected m)
  let l := logLimited (vget h.mir.mdLogs m) h.time.ticks
  let h := h.modMir (fun v => { v with mdLogs := vset v.mdLogs m l.2 })
  if l.1 then h.log 0x0F03 2 (srcMd m) (srcMd m + r * 256 + a / 8 * 2 ^ 32) else h

end Sys2Proof.Machine
end

