-- ==== Sys2Proof/Machine/Filter.lean ====
section
/-! DEFINITION. The filter and decimation chain, synchronising resets, the window averager and the detectors (R146 to R168,
R111 to R113, R136). -/
namespace Sys2Proof.Machine

/-! ### Settings (R152, R155, R158) -/

/-- CIC R of a preset. -/
def cicR (p : Nat) : Nat := presetRaw p / 2

/-- D − 3 in units of 1/131,072 raw sample (R155). -/
def delayNum (preset order phase : Nat) : Nat :=
  order * (cicR preset - 1) * 65536 + 62 * cicR preset * 65536 + 4 * cicR preset * phase

/-- ⌈D − 3⌉: the newest raw word of an output lies this many raw samples after the instant the output represents. -/
def newestOff (preset order phase : Nat) : Nat := ceilDiv (delayNum preset order phase) 131072

/-- GROUP_DELAY: D × 500 ns in 2⁻¹⁶ ns (R156). -/
def groupDelay (preset order phase : Nat) : Nat := (delayNum preset order phase + 3 * 131072) * 250

/-- The settling span S (R158). -/
def settlingSpan (preset order : Nat) : Nat := ceilDiv (order * (cicR preset - 1) + 1 + 62 * cicR preset) (2 * cicR preset)

/-- A context's raw samples per output, ⌈D − 3⌉ and S. -/
def ChainCtx.per (c : ChainCtx) : Nat := presetRaw c.preset
def ChainCtx.off (c : ChainCtx) : Nat := newestOff c.preset c.order c.phase
def ChainCtx.span (c : ChainCtx) : Nat := settlingSpan c.preset c.order

/-- The grid index of the newest raw word of output `k`. -/
def ChainCtx.newest (c : ChainCtx) (k : Nat) : Nat := k * c.per + c.off

/-! ### Stage 1 (R147, R171, R172) -/

/-- A coefficient as it was in force at the hold of grid index `i` (R171). -/
def Hub.termAt (h : Hub) (i k : Nat) : Nat :=
  if i < h.cal.priorTo then ((h.cal.prior.find? (fun e => e.1 = k)).map Prod.snd).getD (h.get k) else h.get k

/-- ΔT in 1/256 °C for the raw frame of grid index `i`; no TEMP output has been made yet: open. (DESIGN CHOICE: log 39.) -/
def Hub.deltaT (h : Hub) (k i : Nat) : Int × Hub :=
  match (h.core k).temps.find? (fun e => e.1 ≤ i) with
  | some e => (e.2 - toSigned 16 (h.termAt i (Obj.calcTCal k)), h)
  | none => h.drawInt

/-- (c − OFFSET(r)) × GAIN(r) × K, with the swing core's buffer terms and the temperature correction. -/
def Hub.stage1 (h : Hub) (n i : Nat) (w : RawWord) : Rat × Hub :=
  let k := chCore n
  let inp := chInput n
  let t := h.deltaT k i
  let dt : Rat := (t.1 : Rat) / 256
  let h := t.2
  let off : Rat := (toSigned 32 (h.termAt i (Obj.calcOffset k inp w.range)) + (if w.swing then toSigned 32 (h.termAt i (Obj.calcBufOffset k inp)) else 0) : Int)
  let gain : Rat := (h.termAt i (Obj.calcGain k inp w.range) : Rat) / (2 ^ 30 : Nat)
  let gain := if w.swing then gain * (h.termAt i (Obj.calcBufGain k inp) : Rat) / (2 ^ 30 : Nat) else gain
  let gain := gain * (1 + (h.getI 16 (Obj.calcTcGain k inp w.range) : Rat) * dt / 100000000)
  let off := off / 65536 + (h.getI 16 (Obj.calcTcOffset k inp) : Rat) * dt / 256
  (((w.code : Rat) - off) * gain * w.ratio, h)

/-- The shift of stage 1 for range r on scale s: 2^(6 + 2(s − r)). -/
def scaleShift (s r : Nat) : Nat := 4 ^ (3 + s - r)

/-! ### Stages 2 to 4 (R148 to R150) -/

/-- What a word of a history that began at `g` is worth on scale `s`; 0 before it. -/
def ChainWord.worth (w : ChainWord) (g s : Nat) : Rat := if w.idx < g then 0 else w.value * (scaleShift s w.range : Nat)

/-- The stage-1 values of the `n` raw indices from `j` down, newest first; 0 where the history, newest first, has no word. -/
def window (hist : List ChainWord) (g s : Nat) (j : Int) (n : Nat) : List Rat :=
  ((List.range n).foldl (fun (a : List ChainWord × List Rat) (i : Nat) =>
    let ws := a.1.dropWhile (fun w => decide ((w.idx : Int) > j - i))
    (ws, (match ws with
      | [] => 0
      | w :: _ => if (w.idx : Int) = j - i then w.worth g s else 0) :: a.2)) (hist, [])).2.reverse

/-- Two lists added place by place, the longer one's rest kept. -/
def addLists : List Nat → List Nat → List Nat
  | [], b => b
  | a, [] => a
  | x :: a, y :: b => (x + y) :: addLists a b

/-- The impulse response of one integrator and comb of length `r` after the response `l`. -/
def boxcar (l : List Nat) : Nat → List Nat
  | 0 => []
  | r + 1 => addLists l (0 :: boxcar l r)

/-- The impulse response of the CIC of order N and decimation R, times R^N (R148). -/
def cicWeights (r : Nat) : Nat → List Nat
  | 0 => [1]
  | n + 1 => boxcar (cicWeights r n) r

/-- The CIC over raw values, newest first, its DC gain normalised to 1 (R148). -/
def cic (r order : Nat) (values : List Rat) : Rat :=
  (List.zipWith (fun (w : Nat) (x : Rat) => (w : Rat) * x) (cicWeights r order) values).foldl (· + ·) 0 / ((r ^ order : Nat) : Rat)

/-- The first `n` outer taps of a setting in units of 2⁻³¹, which are open, and their sum: each an I32, and the 31 of them such that
the middle one is an I32 too. (DESIGN CHOICE: log 9.) -/
def firOuter (setting : Nat) : Nat → List Int × Int
  | 0 => ([], 0)
  | i + 1 =>
    let r := firOuter setting i
    let lo : Int := if i = 30 then 1 else 2 - 2 ^ 31
    let hi : Int := if i = 30 then 2 ^ 31 else 2 ^ 32
    let c := clampInt (max (-(2 ^ 31)) (lo - r.2)) (min (2 ^ 31 - 1) (hi - r.2)) (Config.firCoeff setting i)
    (r.1 ++ [c], r.2 + c)

/-- A setting's coefficient set, words 0 to 31, in units of 2⁻³¹ (R149, Table 5.9): the middle tap gives the 63 symmetric taps a DC
gain of 1. (DESIGN CHOICE: log 9.) -/
def firSet (setting : Nat) : List Int :=
  let r := firOuter setting 31
  r.1 ++ [2 ^ 31 - 2 * r.2]

/-- Tap i of the 63 symmetric taps of a coefficient set, in units of 1. (DESIGN CHOICE: log 9.) -/
def firTap (set : List Int) (i : Nat) : Rat := (set.getD (min i (62 - i)) 0 : Rat) / (2 ^ 31 : Nat)

/-- The compensated sequence over raw values, newest first (R149). (DESIGN CHOICE: log 9.) -/
def compensated (preset order : Nat) (values : List Rat) : Rat :=
  let r := cicR preset
  let set := firSet (preset * 3 + (order - 3))
  ((List.range 63).map (fun i => firTap set i * cic r order (values.drop (i * r)))).foldl (· + ·) 0

/-- The weights of the four-point cubic Lagrange interpolator (R150). (DESIGN CHOICE: log 38.) -/
def lagrange (mu : Rat) : Rat × Rat × Rat × Rat :=
  (-(mu * (mu - 1) * (mu - 2)) / 6, (mu + 1) * (mu - 1) * (mu - 2) / 2, -((mu + 1) * mu * (mu - 2)) / 2,
    (mu + 1) * mu * (mu - 1) / 6)

/-- Stages 2 to 4 for output `k` of a context. The position is k periods plus P and the half sample of odd orders, and μ counts
CIC output periods, as Table 5.2a's droop has it. At μ = 0 the compensated value passes unchanged; otherwise the values at offsets +1
and +2 reach past the newest raw word that R155 gives the output: the words held enter them as they are, and each later one, which
is not yet held when the output leaves, is open. (DESIGN CHOICE: log 38.) -/
def ChainCtx.value (c : ChainCtx) (h : Hub) (hist : List ChainWord) (k : Nat) : Rat × Hub :=
  let r := cicR c.preset
  let len := c.order * (r - 1) + 1 + 62 * r
  let whole : Nat := c.order * (r - 1) / 2 + 31 * r
  let frac : Rat := ((delayNum c.preset c.order c.phase : Nat) : Rat) / 131072 - (whole : Rat)
  let pos : Rat := frac / (r : Nat)
  let m := pos.floor
  let mu := pos - (m : Rat)
  let b : Int := k * c.per + m * (r : Nat) + whole
  if mu = 0 then (compensated c.preset c.order (window hist c.g c.scale b len), h)
  else
    let w := lagrange mu
    let later := (b + 2 * (r : Nat) - c.newest k).toNat
    let e := h.drawInts later
    let ws := e.1.map (fun (x : Int) => (x : Rat) / 65536) ++ window hist c.g c.scale (b + 2 * (r : Nat) - later) (len + 3 * r - later)
    let f (d : Nat) : Rat := compensated c.preset c.order (ws.drop (d * r))
    (w.1 * f 3 + w.2.1 * f 2 + w.2.2.1 * f 1 + w.2.2.2 * f 0, e.2)

/-! ### Stages 5 and 6 (R151, R160) -/

/-- The largest output value. -/
def outMax : Int := 8388607

/-- Rounding and limits of stage 5. -/
def stage5 (y : Rat) : Int := clampInt (-outMax) outMax (ratRoundAway y)

/-- Stage 5 has limited the value. -/
def stage5Clamped (y : Rat) : Bool := (ratRoundAway y).natAbs > 8388607

/-- An output word (Table 5.2b). -/
def outWord (value : Int) (rngchg swing nbr exc settling ovr : Bool) (range : Nat) : Nat :=
  ofSigned 24 value * 256 + b2n rngchg * 128 + b2n swing * 64 + b2n nbr * 32 + b2n exc * 16 + b2n settling * 8 +
    b2n ovr * 4 + range % 4

/-- VALUE and tag bits of an output word. -/
def outValue (w : Nat) : Int := toSigned 24 (w / 256)
def outTag (w i : Nat) : Bool := bitOf w i

/-- The words of a context's history that mark output `k`: those that first enter one of the S outputs up to it (R101, R160). -/
def ChainCtx.marks (c : ChainCtx) (hist : List ChainWord) (k : Nat) : List ChainWord :=
  hist.filter (fun w => w.idx ≥ c.g && w.idx ≤ c.newest k && w.idx + c.span * c.per > c.newest k)

/-- The range of the newest raw word of output `k`, open where the output has none. (DESIGN CHOICE: log 40.) -/
def ChainCtx.rangeOf (c : ChainCtx) (h : Hub) (hist : List ChainWord) (k : Nat) : Nat × Hub :=
  match hist.find? (fun w => w.idx = c.newest k) with
  | some w => (w.range, h)
  | none =>
    let d := h.drawNat
    (d.1 % 4, d.2)

/-- Output `k` of a context: the record, and whether stage 5 clamped it. -/
def ChainCtx.output (c : ChainCtx) (h : Hub) (hist : List ChainWord) (k : Nat) : (OutRec × Bool) × Hub :=
  let y := if (k : Int) < c.j0 then ((0 : Rat), h) else c.value h hist k
  let rg := c.rangeOf y.2 hist k
  let ms := c.marks hist k
  let clamped := stage5Clamped y.1
  let settling := decide ((k : Int) ≤ c.j0 + c.span - 1)
  let w := outWord (stage5 y.1) (ms.any (·.rngchg)) (ms.any (·.swing)) (ms.any (·.nbr)) (ms.any (·.exc)) settling
    (ms.any (·.ovr) || clamped) rg.1
  (({ instant := gridU (k * c.per), word := w, lost0 := ms.any (·.miss0), lost1 := ms.any (·.miss1) }, clamped), rg.2)

/-! ### Histories and resets (R157 to R159) -/

/-- A channel's chain. -/
def Hub.chain (h : Hub) (n : Nat) : ChainSt := vget h.chains n
def Hub.modChain (h : Hub) (n : Nat) (f : ChainSt → ChainSt) : Hub := { h with chains := vupd h.chains n f }

/-- The setting a channel's objects name. -/
def Hub.setting (h : Hub) (n g : Nat) : ChainCtx :=
  { preset := h.get (Obj.chFilterPreset n), order := h.get (Obj.chCicOrder n), phase := h.get (Obj.chPhaseDelay n)
    scale := h.get (Obj.chOutScale n), g := g, stream := h.get (Obj.chStream n) }

/-- K_last: the last output whose newest raw word was held before `g`. -/
def ChainCtx.kLast (c : ChainCtx) (g : Nat) : Int := ((g : Int) - 1 - c.off) / (c.per : Nat)

/-- J₀: the first output whose newest raw word is held at or after `g`. -/
def ChainCtx.jZero (c : ChainCtx) (g : Nat) : Int := -(((c.off : Int) - g) / (c.per : Nat))

/-- A reset at `g` with the new setting `c`: the histories that still have outputs to give, and the new one (R159). -/
def resetCtxs (old : List ChainCtx) (c : ChainCtx) (g : Nat) : List ChainCtx :=
  let j0 := c.jZero g
  match old.getLast? with
  | none => [{ c with next := j0.toNat, j0 := j0, after := j0 * (c.per : Nat) - 1 }]
  | some o =>
    let k := max (o.kLast g) ((o.next : Int) - 1)
    let t := max (k * (o.per : Nat)) o.after
    let jf := t / (c.per : Nat) + 1
    let o' := { o with last := some k }
    (old.dropLast ++ [o']).filter (fun x => match x.last with
      | some l => (x.next : Int) ≤ l
      | none => true) ++ [{ c with next := jf.toNat, j0 := j0, after := t }]

/-- A synchronising reset of one channel at grid index `g` (R157); `start` says that there is no old setting. -/
def Hub.resetChain (h : Hub) (g : Nat) (start : Bool) (n : Nat) : Hub :=
  let c := h.setting n g
  let h := h.modChain n (fun v => { v with ctxs := resetCtxs (if start then [] else v.ctxs) c g })
  ((h.bump (Obj.chResyncCount n)).bump Obj.resyncTotal).put (Obj.chLastResync n) (time96 (gridU g) 0)

/-- The FILTER_RESYNC of `g` and the cause is logged, once: channels that one more command resets there join the record that
stands (R168). (DEDUCED: log 172.) -/
def Hub.logResync (h : Hub) (g cause cnt low : Nat) : Hub :=
  let time := time96 (gridU g) 0
  let same (r : CbRecord) : Bool := r.code = 0x0501 && r.time = time && r.param / 65536 % 16 = cause
  let join (r : CbRecord) : CbRecord :=
    if same r then { r with param := r.param % 65536 + cnt + cause * 65536 + min low (r.param / 2 ^ 20) * 2 ^ 20 } else r
  if cause ≠ 4 || !h.cb.ring.any same then h.logAt time 0x0501 0 srcPkg (cnt + cause * 65536 + low * 2 ^ 20)
  else { h with cb := { h.cb with ring := h.cb.ring.map join, nvm := h.cb.nvm.map join } }

/-- Several channels are reset at one `g` for one cause (R157, R168). (DESIGN CHOICE: log 200.) -/
def Hub.resetChannels (h : Hub) (l : List Nat) (g cause : Nat) (start : Bool) : Hub :=
  let l := l.filter (fun n => !h.flag (Obj.chGated n))
  match l with
  | [] => h
  | n :: _ =>
    let h := h.forEach l (fun n h => h.resetChain g start n)
    h.logResync g cause l.length n

/-- EXC_SETTLE after an excitation change a channel with EXC_RESYNC is reset, with every other whose reset falls on the same
raw-frame boundary (R115, R168). -/
def execExcResync (n : Fin 384) (s : State) : Host.Outcome State Fault Refusal :=
  onHubM (fun mb h =>
    match (h.ch n).resyncAt with
    | none => h
    | some g =>
      if !mb.samples || !h.feUp (chFe n) then h else
      let h := h.waitFor 0 (gridU g)
      let l := h.chList.filter (fun m => (h.ch m).resyncAt = some g)
      (h.forEach l (fun m h => h.modCh m (fun v => { v with resyncAt := none }))).resetChannels l g 3 false) s

/-- Why a RESYNC_REQUEST is refused (Table 5.9), 0 when it is accepted. -/
def Hub.resyncRefusal (h : Hub) (mb : ModeBlock) (v : Nat) : Nat :=
  if v = 0xFFFF then (if mb.samples then 0 else Abort.wrongMode)
  else if v ≥ 384 then Abort.valueOutOfRange
  else if chFe v ≥ h.part.fe then Abort.noSuchObject
  else if h.die (chFe v) ≥ 4 then Abort.dieUnavailable
  else if mb.samples then 0 else Abort.wrongMode

/-- RESYNC_REQUEST in force at the next raw-frame boundary. -/
def Hub.applyResync (h : Hub) (v : Nat) : Hub :=
  h.resetChannels (if v = 0xFFFF then h.chList else [v]) h.time.nextGrid 4 false

/-- A stage-1 word enters a channel's history; `miss0`, `miss1`: the die has only a repeat. -/
def Hub.chainWord (h : Hub) (n i : Nat) (w : RawWord) (miss0 miss1 : Bool) : Hub :=
  let x := h.stage1 n i w
  x.2.modChain n (fun v => { v with
    hist := ({ idx := i, value := x.1, range := w.range, ovr := w.ovr, nbr := w.nbr, exc := w.exc, swing := w.swing
               rngchg := match v.lastRange with
                 | some r => decide (r ≠ w.range)
                 | none => false
               miss0 := miss0, miss1 := miss1 } :: v.hist).take 72000
    lastRange := some w.range })

/-! ### The window averager (R111, R113) -/

/-- A raw word of a gated channel: averaged when its hold lay in the window's averaging interval. (DESIGN CHOICE: log 196.) -/
def Hub.averageWord (h : Hub) (n i : Nat) (w : RawWord) (miss0 miss1 : Bool) : Hub :=
  match h.winHold n i with
  | none => h
  | some g =>
    let x := h.stage1 n i w
    let v := x.1 * (scaleShift (h.get (Obj.chOutScale n)) w.range : Nat)
    x.2.modCh n (fun c =>
      let a : AvgSt := if c.avg.win.t0 = g.t0 && c.avg.done.isNone then c.avg else { win := g }
      { c with avg := { a with
          sum := a.sum + v, cnt := a.cnt + 1, ovr := a.ovr || w.ovr, nbr := a.nbr || w.nbr, exc := a.exc || w.fault
          ranges := w.range :: a.ranges, miss0 := a.miss0 || miss0, miss1 := a.miss1 || miss1
          done := if i = g.last then some i else none } })

/-- The averaged output of a finished window: its record, and whether it was limited. (DESIGN CHOICE: log 196.) -/
def Hub.averageRec (h : Hub) (n : Nat) : OutRec × Bool :=
  let a := (h.ch n).avg
  let y := a.sum / (a.cnt : Nat)
  let r := a.ranges.headD 0
  let clamped := stage5Clamped y
  let w := outWord (stage5 y) (a.ranges.any (· ≠ r)) false a.nbr a.exc false (a.ovr || clamped) r
  let mid := (gridU a.win.first + gridU a.win.last) / 2
  ({ instant := mid, word := w, lost0 := a.miss0, lost1 := a.miss1 }, clamped)

/-! ### Injected records and diagnostic averages (R130, R136) -/

/-- The record of an injected conversion: its instant is the stamp of its hold, open where the frame that carried the stamp was
lost to both hub dies. (DESIGN CHOICE: log 173.) -/
def Hub.injectedRec (h : Hub) (i : Nat) (s : SideWord) (miss0 miss1 : Bool) : OutRec × Hub :=
  let n := s.chan
  let x := h.stage1 n i s.word
  let y := x.1 * (scaleShift (h.get (Obj.chOutScale n)) s.word.range : Nat)
  let w := s.word
  let d := if (h.core (n / 8)).stamps.contains s.hold then (s.hold, x.2) else x.2.drawNat
  ({ instant := d.1, lost0 := miss0, lost1 := miss1
     word := outWord (stage5 y) false w.swing w.nbr w.exc false (w.ovr || stage5Clamped y) w.range }, d.2)

/-- T of a diagnostic channel in 2⁻¹⁶ ns: preset 6 or 7 (R130). -/
def Hub.diagPeriod (h : Hub) (n : Nat) : Nat := presetRaw (h.get (Obj.chDiagPeriod n)) * uGrid

/-- Half a millisecond, the shorter period of a diagnostic channel (R130). -/
def diagHalf : Nat := presetRaw 6 * uGrid

/-- The period in force of diagnostic source q of core k where it ends at `e`. -/
def Hub.diagPeriodAt (h : Hub) (k q e : Nat) : Nat :=
  match (h.core k).diagWas.find? (fun x => x.1 = q) with
  | some x => if e ≤ x.2.2 then presetRaw x.2.1 * uGrid else h.diagPeriod (384 + k * 3 + q)
  | none => h.diagPeriod (384 + k * 3 + q)

/-- A commit at `u` has changed DIAG_PERIOD of channel n: periods that end up to then are the old ones. -/
def Hub.diagCommit (h old : Hub) (u n : Nat) : Hub :=
  let q := (n - 384) % 3
  if old.get (Obj.chDiagPeriod n) = h.get (Obj.chDiagPeriod n) then h
  else h.modCore ((n - 384) / 3) (fun v => { v with diagWas := (q, old.get (Obj.chDiagPeriod n), u) :: v.diagWas.filter (fun x => x.1 ≠ q) })

/-- Two halves of a millisecond as one period. -/
def DiagAcc.join (a b : DiagAcc) : DiagAcc :=
  { b with sum := a.sum + b.sum, cnt := a.cnt + b.cnt, first := a.first, swing := a.swing || b.swing
           miss0 := a.miss0 || b.miss0, miss1 := a.miss1 || b.miss1 }

/-- The oldest period of source q of core k that gives an output: half a millisecond, or where 1 ms is in force both halves
(R130). -/
def Hub.diagNext (h : Hub) (k q : Nat) : Option DiagAcc :=
  let l := ((h.core k).diag.filter (fun e => e.1 = q)).map (·.2)
  l.findSome? (fun a =>
    let t := h.diagPeriodAt k q a.fin
    if a.out || a.fin % t ≠ 0 then none
    else if t = diagHalf then some a
    else match l.find? (fun b => b.fin + diagHalf = a.fin) with
      | some b => some (b.join a)
      | none => some a)

/-- A background conversion enters its period's mean. -/
def Hub.diagWord (h : Hub) (s : SideWord) (miss0 miss1 : Bool) : Hub :=
  let n := s.chan
  let k := (n - 384) / 3
  let q := (n - 384) % 3
  let fin := (s.hold / diagHalf + 1) * diagHalf
  h.modCore k (fun v =>
    let a : DiagAcc := match v.diag.find? (fun e => e.1 = q && e.2.fin = fin) with
      | some e => e.2
      | none => { fin := fin, first := s.hold }
    let a := { a with sum := a.sum + s.word.code, cnt := a.cnt + 1, last := s.hold, swing := a.swing || s.word.swing
                      miss0 := a.miss0 || miss0, miss1 := a.miss1 || miss1 }
    { v with diag := v.diag.filter (fun e => !(e.1 = q && e.2.fin = fin)) ++ [(q, a)] })

/-- The output of a diagnostic period: 64 times the mean, limited, at the midpoint of its holds. -/
def diagRec (a : DiagAcc) : OutRec :=
  { instant := (a.first + a.last) / 2, lost0 := a.miss0, lost1 := a.miss1
    word := outWord (clampInt (-outMax) outMax (divRoundAway a.sum a.cnt * 64)) false a.swing false false false false 0 }

/-! ### Detectors (R162 to R164) -/

def Hub.det (h : Hub) (d : Nat) : DetSt := vget h.dets d
def Hub.modDet (h : Hub) (d : Nat) (f : DetSt → DetSt) : Hub := { h with dets := vupd h.dets d f }

/-- The latest output of a channel is put where blocks read it. -/
def putOut : List (Nat × OutRec) → Nat → OutRec → List (Nat × OutRec)
  | [], n, r => [(n, r)]
  | e :: es, n, r => if n < e.1 then (n, r) :: e :: es else if e.1 = n then (n, r) :: es else e :: putOut es n r

/-- An output reaches the detectors on its channel; each updates 200 ns later. `first` marks the first output of a new
history. -/
def Hub.feedDetectors (h : Hub) (n : Nat) (r : OutRec) (first : Bool) : Hub :=
  let due := h.now 0 + 200 * 65536
  h.forEach (List.range 64) (fun d h =>
    if h.get (Obj.detType d) ≠ 0 && h.get (Obj.detSource d) = n then
      h.modDet d (fun v => { v with inbox := v.inbox ++ [(due, r, first)] })
    else h)

/-- A detector's running state is discarded. -/
def DetSt.restart (v : DetSt) : DetSt := { ({} : DetSt) with inbox := v.inbox, gap := v.gap }

/-- The square root of a / b to the nearest integer, half away from zero. -/
def sqrtNearest (a b : Nat) : Nat :=
  let r := sqrtNat (a / b)
  if 4 * a ≥ (2 * r + 1) * (2 * r + 1) * b then r + 1 else r

/-- A result: RESULT_A, RESULT_B, the instant of the newest output and the first maximum, and SUSPECT.
(DESIGN CHOICE: log 43.) -/
def Hub.detResult (h : Hub) (d : Nat) (a b : Int) (newest maxAt : Nat) (suspect : Bool) : Hub :=
  let st := h.get (Obj.detStatus d)
  let h := (h.putI 32 (Obj.detResultA d) a).put (Obj.detResultTime d) (time96 newest 0)
  let h := if h.get (Obj.detType d) = 1 then (h.putI 32 (Obj.detResultB d) b).put (Obj.detMaxTime d) (time96 maxAt 0) else h
  (h.put (Obj.detStatus d) (setBit (setBit st 0 suspect) 1 true)).bump (Obj.detUpdates d)

/-- An output carries one of the tags that make a result SUSPECT (R164). -/
def suspectWord (w : Nat) : Bool := outTag w 2 || outTag w 5 || outTag w 4 || outTag w 3

/-- A block detector takes an output (R163). -/
def Hub.detBlock (h : Hub) (d : Nat) (r : OutRec) (len : Nat) : Hub :=
  let v := h.det d
  let x := outValue r.word
  let first := v.cnt = 0
  let v := { v with
    cnt := v.cnt + 1
    maxV := if first || x > v.maxV then x else v.maxV
    maxAt := if first || x > v.maxV then r.instant else v.maxAt
    minV := if first || x < v.minV then x else v.minV
    sumSq := v.sumSq + x.natAbs * x.natAbs
    suspect := v.suspect || suspectWord r.word || (v.gap && !first)
    gap := false }
  if v.cnt < len then h.modDet d (fun _ => v)
  else
    let a : Int := if h.get (Obj.detType d) = 1 then v.maxV else (sqrtNearest v.sumSq len : Nat)
    (h.modDet d (fun _ => v.restart)).detResult d a v.minV r.instant v.maxAt v.suspect

/-- y + (e − y) × 2^(−s) in 2⁻¹⁶, the rounding of the shift being open (R163). (DESIGN CHOICE: log 43.) -/
def Hub.detBlend (h : Hub) (y e s : Nat) : Nat × Hub :=
  let q := h.divOpen ((e : Int) - y) (2 ^ s)
  (((y : Int) + q.1).toNat, q.2)

/-- A running detector takes an output: RMS_EXP or ENVELOPE (R163, R164). (DESIGN CHOICE: log 43.) -/
def Hub.detRunning (h : Hub) (d : Nat) (r : OutRec) : Hub :=
  let v := h.det d
  let x := outValue r.word
  let rms := h.get (Obj.detType d) = 3
  let a := h.get (Obj.detParamA d)
  let b := h.get (Obj.detParamB d)
  let e := if rms then x.natAbs * x.natAbs * 65536 else x.natAbs * 65536
  let y := match v.run with
    | none => (e, h)
    | some y => if rms || e > y then h.detBlend y e a else h.detBlend y e b
  let h := y.2
  let bad := suspectWord r.word || v.gap
  let sus := bad || v.suspectLeft > 0
  let left := if bad then 2 ^ (if rms then a else b) else v.suspectLeft - 1
  let h := h.modDet d (fun v => { v with run := some y.1, suspectLeft := left, gap := false })
  let res : Nat := if rms then sqrtNearest y.1 65536 else (y.1 + 32768) / 65536
  h.detResult d res 0 r.instant 0 sus

/-- The outputs of a block detector's block (R163). -/
def Hub.detLength (h : Hub) (d : Nat) : Nat :=
  if h.get (Obj.detType d) = 1 then h.get (Obj.detParamA d) else 2 ^ h.get (Obj.detParamA d)

/-- A detector takes the next output of its source. -/
def Hub.detUpdate (h : Hub) (d : Nat) : Hub :=
  match (h.det d).inbox with
  | [] => h
  | (due, r, first) :: rest =>
    let h := h.waitFor 0 due
    let h := h.modDet d (fun v => { v with inbox := rest })
    let h := if first then (h.modDet d DetSt.restart).putBit (Obj.detStatus d) 2 true else h
    if r.lost0 && r.lost1 then h.modDet d (fun v => { v with gap := true })
    else
      match h.get (Obj.detType d) with
      | 1 => h.detBlock d r (h.detLength d)
      | 2 => h.detBlock d r (h.detLength d)
      | 3 => h.detRunning d r
      | 4 => h.detRunning d r
      | _ => h

end Sys2Proof.Machine
end

