-- ==== Sys2Proof/Machine/LaneOps.lean ====
section
/-! DEFINITION. Lane numbering, the message queue of a lane and what a received message passes first (R387, R388, R402,
R403). -/
namespace Sys2Proof.Machine

/-- The hub die of a lane. -/
def laneDie (l : Nat) : Nat := l / 8

/-- The lane is an uplink (R387). -/
def laneUp (l : Nat) : Bool := l % 8 < 4

/-- The pair of a lane: x × 4 + r (R388). -/
def lanePair (l : Nat) : Nat := l / 8 * 4 + l % 8 / 2

/-- The uplink number x × 4 + p of an uplink lane, and of a downlink the like number x × 4 + p. -/
def lanePort (l : Nat) : Nat := l / 8 * 4 + l % 4

/-- Downlink DNp of die x is lane x × 8 + 4 + p. -/
def dnLane (u : Nat) : Nat := u / 4 * 8 + 4 + u % 4

/-- The pair runs the Ethernet personality (R389). -/
def Hub.laneEth (h : Hub) (l : Nat) : Bool := laneUp l && h.get (Obj.pairPersonality (lanePair l)) = 1

/-- ACTIVE and native. -/
def Hub.laneNative (h : Hub) (l : Nat) : Bool := h.laneActive l && !h.laneEth l

/-- A native lane that sends traffic of its own: ACTIVE, and not returning the bits it receives (R411). -/
def Hub.laneTalks (h : Hub) (l : Nat) : Bool := h.laneNative l && !h.bit (Obj.laneStatus l) 8

/-- A hub die takes part in time transfer (Table 11.1); one that has relinquished sends neither TT_SYNC nor TT_FOLLOW. -/
def Hub.timeRole (h : Hub) (x : Nat) : Bool := h.role x = 2 || h.role x = 3 || h.role x = 4

/-- A lane's state beside its object. -/
def Hub.lane (h : Hub) (l : Nat) : LaneSt := vget h.lanes l

/-- The hub with a lane changed. -/
def Hub.modLane (h : Hub) (l : Nat) (f : LaneSt → LaneSt) : Hub := { h with lanes := vupd h.lanes l f }

/-- The hub with the time transfer of a port changed. -/
def Hub.modTt (h : Hub) (p : Nat) (f : TtPort → TtPort) : Hub :=
  { h with time := { h.time with ports := vupd h.time.ports p f } }

/-- The queue without its oldest HOROL message. (DEDUCED: log 131.) -/
def dropHorol : List LaneMsg → List LaneMsg
  | [] => []
  | x :: xs => if x.code = 0x20 then xs else x :: dropHorol xs

/-- A drop is counted, and logged at most once per lane per second (R403). -/
def Hub.msgDropped (h : Hub) (l code : Nat) : Hub :=
  let h := h.bump (Obj.laneMsgDropped l)
  let due := match (h.lane l).dropLog with
    | some t => decide (h.time.ticks ≥ t + tSec)
    | none => true
  if due then
    let now := h.time.ticks
    (h.modLane l (fun v => { v with dropLog := some now })).log 0x0D0A 1 srcPkg
      (l + code * 256 + h.get (Obj.laneMsgDropped l) * 65536)
  else h

/-- A message is queued on an ACTIVE native lane: up to 64 wait, and at a full queue the oldest waiting HOROL message is
dropped, or the arriving one when none is waiting (R403). -/
def Hub.sendMsg (h : Hub) (l code : Nat) (bytes : List Nat) : Hub :=
  if !h.laneTalks l then h else
  let q := (h.lane l).msgs
  if q.length < 64 then h.modLane l (fun v => { v with msgs := v.msgs ++ [⟨code, bytes⟩] })
  else if q.any (fun x => x.code = 0x20) then
    (h.modLane l (fun v => { v with msgs := dropHorol v.msgs ++ [⟨code, bytes⟩] })).msgDropped l 0x20
  else h.msgDropped l code

/-- A message on every ACTIVE native port of both hub dies but `except`. (DESIGN CHOICE: log 152.) -/
def Hub.floodMsg (h : Hub) (except : Option Nat) (code : Nat) (bytes : List Nat) : Hub :=
  h.forEach (List.range 16) (fun l h => if except = some l then h else h.sendMsg l code bytes)

/-- A received message: counted, discarded when its CRC fails, and otherwise handled (R402). Nothing is received on a lane
in the states that carry no messages. -/
def Hub.onMessage (h : Hub) (l : Nat) (crc : Bool) (f : Hub → Hub) : Hub :=
  let st := h.get (Obj.laneState l)
  if (st ≠ 5 && st ≠ 4) || h.laneEth l then h
  else if crc then f (h.bump (Obj.laneMsgRx l))
  else h.bump (Obj.laneMsgCrcErrors l)

/-- The hub with the server state changed. -/
def Hub.modSrv (h : Hub) (f : SrvSt → SrvSt) : Hub := { h with srv := f h.srv }

/-- A number accepted from an origin, newest first, among its latest 256 (R406). -/
def noteSeen : List (Nat × List Nat) → Nat → Nat → List (Nat × List Nat)
  | [], o, n => [(o, [n])]
  | e :: es, o, n => if e.1 = o then (o, (n :: e.2).take 256) :: es else e :: noteSeen es o n

/-- A HOROL message of this hub's own, on every ACTIVE native port of both hub dies (R406). (DEDUCED: log 78.) -/
def Hub.sendHorol (h : Hub) (dest : Nat) (pdu : List Nat) : Hub :=
  let n := (h.srv.tunnelNo + 1) % 65536
  let own := h.get Obj.hubIdActive
  let h := h.modSrv (fun v => { v with tunnelNo := n, seen := noteSeen v.seen own n })
  h.floodMsg none 0x20 (toBytes 2 dest ++ toBytes 2 own ++ toBytes 2 n ++ [pdu.length] ++ pdu)

/-- EVENT PDUs that wait for the tunnel leave for EVENT_TUNNEL_DEST (R443). (DEDUCED: log 77.) -/
def Hub.sendEvents (h : Hub) : Hub :=
  let l := h.srv.events
  (h.modSrv (fun v => { v with events := [] })).forEach l (fun p h => h.sendHorol (h.get Obj.eventTunnelDest) p)

end Sys2Proof.Machine
end

