-- ==== Sys2Proof/Machine/Capture.lean ====
section
/-! DEFINITION. Capture slots, their rows, gaps and marks, and the capture image (R249 to R259, R261). -/
namespace Sys2Proof.Machine

def Hub.slot (h : Hub) (s : Nat) : SlotSt := vget h.slots s
def Hub.modSlot (h : Hub) (s : Nat) (f : SlotSt → SlotSt) : Hub := { h with slots := vupd h.slots s f }

/-- The elements a mask names, of the first `n`. -/
def maskList (n m : Nat) : List Nat := (List.range n).filter (bitOf m)

/-- The order in which a slot's words stand: its channels, or its dies' channels. -/
def SlotSt.chans (v : SlotSt) : List Nat :=
  if v.kind = 0 then maskList 384 v.chMask else (maskList 4 v.dieMask).flatMap (fun f => (List.range 96).map (· + f * 96))

/-- The span of a row in 2⁻¹⁶ ns. -/
def SlotSt.period (v : SlotSt) : Nat := if v.kind = 0 then presetRaw v.preset * uGrid else uGrid

/-- CAPACITY (R251): `n` channels of a FILTERED slot, `d` dies of a RAW one. -/
def capCapacity (kind size n d : Nat) : Nat :=
  if kind = 0 then (size * 2 ^ 20 / (32 + 4096 * n) - 1) * 1024 else size * 2 ^ 20 / (416 * d)

/-- The channels and the dies of a slot that count in a budget: none of a FAILED FE die (R82, R368). -/
def Hub.slotChCount (h : Hub) (s : Nat) : Nat :=
  ((maskList 384 (h.get (Obj.slotChMask s))).filter (fun n => h.die (chFe n) < 4)).length
def Hub.slotDieCount (h : Hub) (s : Nat) : Nat :=
  ((maskList 4 (h.get (Obj.slotDieMask s))).filter (fun f => h.die f < 4)).length

/-- CAPACITY of a slot under the objects in force; the dies that have FAILED take no room. (DEDUCED: log 182.) -/
def Hub.slotCap (h : Hub) (s : Nat) : Nat :=
  capCapacity (h.get (Obj.slotKind s)) (h.get (Obj.slotSize s)) (h.slotChCount s) (max 1 (h.slotDieCount s))

/-- The preset of a slot's channels. -/
def Hub.slotPreset (h : Hub) (s : Nat) : Nat :=
  match maskList 384 (h.get (Obj.slotChMask s)) with
  | n :: _ => h.get (Obj.chFilterPreset n)
  | [] => 3

/-- What a slot writes, in bytes per second (R252). -/
def Hub.slotWriteRate (h : Hub) (s : Nat) : Rat :=
  let n := h.slotChCount s
  let d := h.slotDieCount s
  if h.get (Obj.slotKind s) = 1 then ((d * 416 * 2000000 : Nat) : Rat)
  else ((n * 4 * 2000000 * (32 + 4096 * n) : Nat) : Rat) / ((presetRaw (h.slotPreset s) * (4096 * n) : Nat) : Rat)

/-- The enabled slots. -/
def Hub.slotsOn (h : Hub) : List Nat := (List.range 16).filter (fun s => h.flag (Obj.slotEnable s))

/-- An empty ring that fills from `u` under the objects in force. (DEDUCED: log 94.) -/
def Hub.slotFill (h : Hub) (s u : Nat) : Hub :=
  let v : SlotSt := { kind := h.get (Obj.slotKind s), chMask := h.get (Obj.slotChMask s), dieMask := h.get (Obj.slotDieMask s),
                      preset := h.slotPreset s, cap := h.slotCap s, from_ := u
                      busyLog := (h.slot s).busyLog, gapLog := (h.slot s).gapLog }
  ((h.modSlot s (fun _ => v)).put (Obj.slotState s) 1).put (Obj.slotImageSize s) 0

/-- The rings of FILLING slots restart at the run start. (DEDUCED: log 94.) -/
def Hub.slotsStart (h : Hub) (u : Nat) : Hub :=
  h.forEach (List.range 16) (fun s h => if h.get (Obj.slotState s) = 1 then h.slotFill s u else h)

/-! ### Rows -/

/-- What a copy shows of one cell of a row: the cause of a gap there, and whether the peer's copy stands in.
(DEDUCED: log 208.) -/
def cellView (late missOwn missPeer dropOwn dropPeer peerOk : Bool) : Option Nat × Bool :=
  if late then (some 2, false)
  else if !missOwn && !dropOwn then (none, false)
  else if peerOk && !missPeer && !dropPeer then (none, true)
  else if dropOwn then (some 1, false)
  else if missPeer then (some 0, false)
  else (some 3, false)

/-- The view of bit `b` of a row from the copy of hub die `x`. (DEDUCED: log 208.) -/
def CapRow.view (r : CapRow) (x b : Nat) (peerOk simplex : Bool) : Option Nat × Bool :=
  let own := if x = 0 then r.miss0 else r.miss1
  let peer := if x = 0 then r.miss1 else r.miss0
  cellView r.late (bitOf own b) (simplex || r.alone || bitOf peer b) (if x = 0 then r.drop0 else r.drop1)
    (if x = 0 then r.drop1 else r.drop0) peerOk

/-- The bits of a row that a slot holds: the dies of a RAW slot, bit 0 of a FILTERED one. -/
def SlotSt.bits (v : SlotSt) : List Nat := if v.kind = 0 then [0] else maskList 4 v.dieMask

/-- The cause of a row's gap, if it is a gap row. -/
def SlotSt.rowGap (v : SlotSt) (x : Nat) (peerOk simplex : Bool) (r : CapRow) : Option Nat :=
  v.bits.findSome? (fun b => (r.view x b peerOk simplex).1)

/-- A gap of a capture is logged, at most once per slot per second (R255, R262). (DEDUCED: log 96.) -/
def Hub.logGap (h : Hub) (s n c : Nat) : Hub :=
  let now := h.time.ticks
  let due := match (h.slot s).gapLog with
    | some t => decide (now ≥ t + tSec)
    | none => true
  if due then (h.modSlot s (fun v => { v with gapLog := some now })).log 0x0804 1 srcPkg (s + c * 16 + n * 256) else h

/-- The cause of a row's gap in the Lead's copy. -/
def Hub.gapOf (h : Hub) (s : Nat) (r : CapRow) : Option Nat := (h.slot s).rowGap h.leadDie h.understudy h.part.simplex r

/-- The gap that the newest rows of a capture form is over, unless the next row goes on with its cause: it is logged.
(DEDUCED: log 96.) -/
def Hub.gapEnds (h : Hub) (s : Nat) (next : Option Nat) : Hub :=
  match (h.slot s).rows with
  | [] => h
  | r :: _ =>
    match h.gapOf s r with
    | none => h
    | some c =>
      if next = some c then h
      else h.logGap s ((h.slot s).rows.takeWhile (fun r => h.gapOf s r = some c)).length c

/-- A capture with a row before its trigger that came after the window was fixed: the oldest beyond PRE goes. -/
def SlotSt.lateRow (v : SlotSt) (r : CapRow) : SlotSt :=
  let pre := min (v.pre + 1) v.preMax
  { v with rows := (r :: v.rows).take pre, pre := pre, preShort := decide (pre < v.preMax) }

/-- A row is written: into the ring, or into the window until POST rows from the trigger stand. -/
def Hub.addRow (h : Hub) (s : Nat) (r : CapRow) : Hub :=
  let v := h.slot s
  match h.get (Obj.slotState s) with
  | 1 => h.modSlot s (fun _ => { v with rows := (r :: v.rows).take v.cap, lapped := v.lapped + (v.rows.length + 1 - v.cap) })
  | 2 =>
    if !v.fixed then h.modSlot s (fun _ => { v with rows := r :: v.rows })
    else if v.rows.length - v.pre ≥ v.post then h
    else
      let h := h.gapEnds s (h.gapOf s r)
      h.modSlot s (fun v => if r.inst < (v.trig.getD {}).time && v.rows.length = v.pre then v.lateRow r
        else { v with rows := r :: v.rows })
  | _ => h

/-- A slot takes rows at this instant. -/
def Hub.slotTakes (h : Hub) (s u : Nat) : Bool :=
  (h.get (Obj.slotState s) = 1 || h.get (Obj.slotState s) = 2) && decide (u ≥ (h.slot s).from_)

/-- The output words gathered for an instant become a row; a channel without an output there has none. (DEDUCED: log 95.) -/
def Hub.closePart (h : Hub) (s : Nat) : Hub :=
  let v := h.slot s
  match v.part with
  | none => h
  | some (u, os) =>
    let word (n : Nat) : Nat := match os.find? (fun e => e.1 = n) with
      | some e => e.2.word
      | none => 0x80000000
    let lost (f : OutRec → Bool) : Nat := b2n (os.any (fun e => f e.2))
    (h.modSlot s (fun v => { v with part := none })).addRow s
      { inst := u, words := v.chans.map word, miss0 := lost (·.lost0), miss1 := lost (·.lost1)
        drop0 := h.capFull0, drop1 := h.capFull1, alone := !h.understudy }

/-- An output of a channel reaches the FILTERED slots that name it. -/
def Hub.captureOutput (h : Hub) (n : Nat) (r : OutRec) : Hub :=
  h.forEach (List.range 16) (fun s h =>
    let v := h.slot s
    if v.kind = 0 && bitOf v.chMask n && n < 384 && h.slotTakes s r.instant then
      let h := match v.part with
        | some (u, _) => if u = r.instant then h else h.closePart s
        | none => h
      let os := match (h.slot s).part with
        | some (_, os) => os ++ [(n, r)]
        | none => [(n, r)]
      let h := h.modSlot s (fun v => { v with part := some (r.instant, os) })
      if os.length ≥ v.chans.length then h.closePart s else h
    else h)

/-- The 24 bits of a raw word (Table 4.1). -/
def RawWord.bits (w : RawWord) : Nat :=
  ofSigned 18 w.code * 64 + w.range % 4 * 16 + b2n w.ovr * 8 + b2n w.nbr * 4 + b2n w.exc * 2 + b2n w.swing

/-- The raw word of a die-local input in a frame. -/
def RawFrame.word (f : RawFrame) (j : Nat) : RawWord :=
  match f.words.find? (fun e => e.1 = j) with
  | some e => e.2
  | none => {}

/-- A grid period reaches the RAW slots: the frame of each FE die, and by hub die the FE dies whose frame is missed. -/
def Hub.captureRaw (h : Hub) (i : Nat) (frames : List RawFrame) (miss0 miss1 : Nat) : Hub :=
  h.forEach (List.range 16) (fun s h =>
    let v := h.slot s
    if v.kind = 1 && h.slotTakes s (gridU i) then
      let dies := maskList 4 v.dieMask
      h.addRow s { inst := gridU i, miss0 := miss0, miss1 := miss1, drop0 := h.capFull0, drop1 := h.capFull1, alone := !h.understudy
                   words := dies.flatMap (fun f => (List.range 96).map (fun j => ((frames.getD f {}).word j).bits)) }
    else h)

/-! ### Triggering (R254) -/

/-- The gap row that stands for the `j`-th row overwritten before `oldest`. -/
def SlotSt.lateJoin (v : SlotSt) (oldest j : Nat) : CapRow :=
  { inst := oldest - (j + 1) * v.period, late := true, words := v.chans.map (fun _ => 0) }

/-- The window of a triggered slot: PRE rows before `t` and the POST rows from it. Rows the ring has overwritten become
LATE_JOIN rows, and rows it never held make the capture short. -/
def Hub.fixWindow (h : Hub) (s t : Nat) : Hub :=
  let v := h.slot s
  let pre := h.get (Obj.slotPre s)
  let post := max 1 (h.get (Obj.slotPost s))
  let before := (v.rows.filter (fun r => r.inst < t)).take pre
  let after := (v.rows.filter (fun r => r.inst ≥ t)).reverse
  let oldest := match v.rows.getLast? with
    | some r => r.inst
    | none => t
  let lostPost := if oldest > t then min v.lapped ((oldest - t) / v.period) else 0
  let lostPre := min (pre - before.length) (v.lapped - lostPost)
  let late := ((List.range (lostPost + lostPre)).map (v.lateJoin oldest)).drop (lostPost - min post lostPost)
  h.modSlot s (fun v => { v with
    rows := ((after.take (post - min post lostPost)).reverse) ++ before ++ late, fixed := true, pre := before.length + lostPre, preMax := pre
    post := post, preShort := decide (before.length + lostPre < pre) })

/-- A fire or join: FILLING slots are triggered, COMPLETE and READING ones are busy, logged at most once per slot per second
(R253, R262). The masks of both are answered. -/
def Hub.slotsFire (h : Hub) (e : FireRec) : FireRec × Hub :=
  let now := h.time.ticks
  let trig := (List.range 16).filter (fun s => h.get (Obj.slotState s) = 1)
  let busy := (List.range 16).filter (fun s => h.get (Obj.slotState s) = 3 || h.get (Obj.slotState s) = 4)
  let e := { e with slots := sumNat (trig.map (2 ^ ·)), busy := sumNat (busy.map (2 ^ ·)) }
  let h := h.forEach trig (fun s h =>
    (h.modSlot s (fun v => { v with trig := some e, fixed := false })).put (Obj.slotState s) 2)
  (e, h.forEach busy (fun s h =>
    let due := match (h.slot s).busyLog with
      | some t => decide (now ≥ t + tSec)
      | none => true
    if due then (h.modSlot s (fun v => { v with busyLog := some now })).log 0x0805 1 srcPkg s else h))

/-- The event record of the slots a fire triggered is brought up to date. -/
def Hub.slotsEvent (h : Hub) (e : FireRec) : Hub :=
  h.forEach (maskList 16 e.slots) (fun s h => h.modSlot s (fun v =>
    match v.trig with
    | some o => if o.number = e.number then { v with trig := some e } else v
    | none => v))

/-- A mark is kept by every FILLING or TRIGGERED slot (R256). -/
def Hub.markSlots (h : Hub) (m : MarkRec) : Hub :=
  h.forEach (List.range 16) (fun s h =>
    if h.get (Obj.slotState s) = 1 || h.get (Obj.slotState s) = 2 then h.modSlot s (fun v => { v with marks := v.marks ++ [m] })
    else h)

/-! ### The image (R255, R257, R258) -/

/-- The gaps of a capture, oldest first: first row, number of rows, first instant, cause (R255). -/
def gapRuns : Nat → List (Option Nat × Nat) → List (Nat × Nat × Nat × Nat)
  | _, [] => []
  | i, (none, _) :: r => gapRuns (i + 1) r
  | i, (some c, u) :: r =>
    match gapRuns (i + 1) r with
    | (j, n, u', c') :: gs => if j = i + 1 && c' = c then (i, n + 1, u, c) :: gs else (i, 1, u, c) :: (j, n, u', c') :: gs
    | [] => [(i, 1, u, c)]

/-- The gaps as the copy of hub die `x` has them. (DEDUCED: log 96.) -/
def Hub.slotGaps (h : Hub) (s x : Nat) : List (Nat × Nat × Nat × Nat) :=
  let v := h.slot s
  gapRuns 0 (v.rows.reverse.map (fun r => (v.rowGap x h.understudy h.part.simplex r, r.inst)))

/-- The gaps that a window already holds whole are logged. -/
def Hub.windowGaps (h : Hub) (s : Nat) : Hub :=
  h.forEach ((h.slotGaps s h.leadDie).filter (fun g => g.1 + g.2.1 < (h.slot s).rows.length)) (fun g h => h.logGap s g.2.1 g.2.2.2)

/-- The trigger point of the fire is known: its slots fix their windows. -/
def Hub.slotsFix (h : Hub) (e : FireRec) : Hub :=
  h.forEach (maskList 16 e.slots) (fun s h =>
    if h.get (Obj.slotState s) = 2 && ((h.slot s).trig.getD {}).number = e.number then
      ((h.modSlot s (fun v => { v with trig := some e })).fixWindow s e.time).windowGaps s
    else h)

/-- The marks within the window (R256). -/
def SlotSt.windowMarks (v : SlotSt) : List MarkRec :=
  match v.rows.getLast?, v.rows.head? with
  | some a, some b => v.marks.filter (fun m => m.time ≥ a.inst && m.time < b.inst + v.period)
  | _, _ => []

/-- FIRST_TIME: the instant of the first row. -/
def SlotSt.first (v : SlotSt) : Nat :=
  match v.rows.getLast? with
  | some r => r.inst
  | none => v.from_

/-- TRIG_INDEX and TRIG_FRAC of a trigger at `t` in a capture that begins at `first` (R240). -/
def trigPoint (t first : Nat) : Int × Nat :=
  let d : Int := (t : Int) - first
  let i := d / (uGrid : Int)
  let r := (d - i * uGrid).toNat
  let f := (2 * r * 65536 + uGrid) / (2 * uGrid)
  if f = 65536 then (i + 1, 0) else (i, f)

/-- The length of an image: header, two tables and the rows with their headers. -/
def SlotSt.imageSize (v : SlotSt) : Nat :=
  let n := v.rows.length
  256 + 2048 + 2048 + (if v.kind = 0 then ceilDiv n 1024 * 32 + n * 4 * v.chans.length else n * 416 * v.bits.length)

/-- The capture header, without its CRC (Table 8.12). -/
def Hub.slotHeaderBytes (h : Hub) (s x : Nat) : List Nat :=
  let v := h.slot s
  let e := v.trig.getD {}
  let gaps := h.slotGaps s x
  let marks := v.windowMarks
  let sub := v.rows.any (fun r => v.bits.any (fun b => (r.view x b h.understudy h.part.simplex).2))
  let p := trigPoint e.time v.first
  let flags := b2n v.incomplete + b2n e.forced * 2 + b2n v.preShort * 4 + b2n (!gaps.isEmpty) * 8 +
    b2n (gaps.length > 64) * 16 + b2n sub * 32 + b2n e.final * 64 + b2n e.wireOnly * 128
  let body := toBytes 252 (pack [(16, 1), (8, s), (8, v.kind), (16, h.get Obj.hubIdActive), (8, srcHd x), (8, flags),
    (96, time96 v.first 0), (32, v.pre), (32, v.rows.length - v.pre), (32, ofSigned 32 p.1), (16, p.2), (8, e.cause),
    (8, e.source), (32, e.mask), (96, time96 e.time 0), (96, time96 e.eventTime 0), (16, e.eventHub), (8, e.state),
    (8, if v.kind = 0 then v.preset else v.dieMask), (16, v.chans.length), (16, satNat 65535 gaps.length),
    (8, satNat 255 marks.length), (56, 0), (64, v.imageSize), (384, if v.kind = 0 then v.chMask else 0), (928, 0)])
  body ++ toBytes 4 (crc32 body)

/-- A mark and a gap entry of 32 B (R257, Table 8.14). -/
def MarkRec.bytes (m : MarkRec) : List Nat :=
  toBytes 32 (pack [(96, time96 m.time 0), (8, m.state), (8, m.source), (32, m.mask)])
def gapBytes (period : Nat) (g : Nat × Nat × Nat × Nat) : List Nat :=
  toBytes 32 (pack [(32, g.1), (32, g.2.1), (96, time96 g.2.2.1 0), (64, g.2.1 * (period / 65536)), (8, g.2.2.2)])

/-- A table of 64 entries of 32 B, unused ones 0. -/
def table64 (l : List (List Nat)) : List Nat := ((l.take 64).flatten ++ List.replicate 2048 0).take 2048

/-- The words of a FILTERED row as a copy shows them. (DEDUCED: log 95.) -/
def SlotSt.rowWords (v : SlotSt) (x : Nat) (peerOk simplex : Bool) (r : CapRow) : List Nat :=
  if (v.rowGap x peerOk simplex r).isSome then v.chans.flatMap (fun _ => toBytes 4 0x80000000) else r.words.flatMap (toBytes 4)

/-- A block of FILTERED rows with its header. -/
def SlotSt.block (v : SlotSt) (x : Nat) (peerOk simplex : Bool) (rs : List CapRow) : List Nat :=
  let first := match rs with
    | r :: _ => r.inst
    | [] => 0
  let gap := rs.any (fun r => (v.rowGap x peerOk simplex r).isSome)
  let sub := rs.any (fun r => (r.view x 0 peerOk simplex).2)
  toBytes 32 (pack [(96, time96 first 0), (16, rs.length), (1, b2n gap), (1, b2n sub)]) ++
    rs.flatMap (v.rowWords x peerOk simplex)

/-- A RAW row: die headers and words (R250, Table 8.13). In a gap row GAP stands in every die header and LOST on every word
(R255); the raw bits under LOST are open. (DESIGN CHOICE: log 10.) -/
def SlotSt.rawRow (v : SlotSt) (x : Nat) (peerOk simplex : Bool) (r : CapRow) : List Nat :=
  let dies := v.bits
  let gap := (v.rowGap x peerOk simplex r).isSome
  (List.range dies.length).flatMap (fun j =>
    let f := dies.getD j 0
    let c := r.view x f peerOk simplex
    let own := bitOf (if x = 0 then r.miss0 else r.miss1) f
    let idx := r.inst / uGrid
    toBytes 32 (pack [(48, idx), (2, f), (1, b2n own), (1, b2n (c.2 && !gap)), (1, b2n gap)]) ++
      (List.range 96).flatMap (fun k =>
        toBytes 4 (if gap then Config.lostRaw idx (f * 96 + k) % 2 ^ 24 * 256 + 1
                   else r.words.getD (j * 96 + k) 0 * 256)))

/-- The capture image that hub die `x` builds (R257). -/
def Hub.slotImage (h : Hub) (s x : Nat) : List Nat :=
  let v := h.slot s
  let rows := v.rows.reverse
  let po := h.understudy
  let sx := h.part.simplex
  h.slotHeaderBytes s x ++ table64 (v.windowMarks.map MarkRec.bytes) ++ table64 ((h.slotGaps s x).map (gapBytes v.period)) ++
    (if v.kind = 0 then (chunks 1024 rows.length rows).flatMap (v.block x po sx) else rows.flatMap (v.rawRow x po sx))

/-! ### The states of a slot (Table 8.11) -/

/-- READOUT_START: uplink readout begins. -/
def Hub.applyReadoutStart (h : Hub) (s : Nat) : Hub :=
  let now := h.time.ticks
  (h.modSlot s (fun v => { v with sent := 0, frameNo := 0, readAt := now })).put (Obj.slotState s) 4

/-- A slot becomes COMPLETE; with AUTO_READOUT it goes on to READING (R258). (DEDUCED: log 96.) -/
def Hub.slotComplete (h : Hub) (s : Nat) (incomplete : Bool) : Hub :=
  let h := h.modSlot s (fun v => { v with incomplete := incomplete, part := none, sent := 0, frameNo := 0 })
  let n := (h.slot s).rows.length
  let h := (h.put (Obj.slotState s) 3).put (Obj.slotImageSize s) (h.slot s).imageSize
  let h := if incomplete then h.log 0x0803 1 srcPkg (s + n * 2 ^ 32) else h.log 0x0802 0 srcPkg (s + n * 2 ^ 32)
  let h := h.gapEnds s none
  if h.flag (Obj.slotAutoReadout s) then h.applyReadoutStart s else h

/-- The POST rows of a triggered slot have been written. -/
def Hub.slotDone (h : Hub) (s : Nat) : Bool :=
  let v := h.slot s
  h.get (Obj.slotState s) = 2 && v.fixed && decide (v.rows.length - v.pre ≥ v.post)

/-- A TRIGGERED slot closes INCOMPLETE with its rows before `u` (Table 8.11). -/
def Hub.slotClose (h : Hub) (s u : Nat) : Hub :=
  if h.get (Obj.slotState s) ≠ 2 then h else
  let h := if (h.slot s).fixed then h else (h.fixWindow s ((h.slot s).trig.getD {}).time).windowGaps s
  let h := h.modSlot s (fun v =>
    let rows := v.rows.filter (fun r => r.inst < u)
    { v with rows := rows, pre := min v.pre rows.length })
  h.slotComplete s true

/-- RELEASE: the ring is emptied and fills again. -/
def Hub.applyRelease (h : Hub) (s : Nat) : Hub := h.slotFill s h.boundary

/-- The capture objects that a commit recomputes. (DESIGN CHOICE: log 71.) -/
def Hub.capFigures (h : Hub) : Hub :=
  let on := h.slotsOn
  let h := h.put Obj.capAreaFree (3840 - sumNat (on.map (fun s => h.get (Obj.slotSize s))))
  let h := h.forEach (List.range 16) (fun s h => h.put (Obj.slotCapacity s) (h.slotCap s))
  let r := h.ratOpen (on.foldl (fun a s => a + h.slotWriteRate s) (0 : Rat) / 1000)
  r.2.put Obj.capWriteRate r.1.toNat

/-- The objects of a slot that a commit may change. -/
def slotKeys (s : Nat) : List Nat :=
  [Obj.slotEnable s, Obj.slotKind s, Obj.slotChMask s, Obj.slotDieMask s, Obj.slotSize s, Obj.slotPre s, Obj.slotPost s,
   Obj.slotAutoReadout s]

/-- A commit changes the slot. -/
def Hub.slotChanged (h old : Hub) (s : Nat) : Bool := (slotKeys s).any (fun k => h.get k ≠ old.get k)

/-- A slot after a commit at `u`; a new preset of a FILLING slot's channels empties its ring as well. (DEDUCED: log 155.) -/
def Hub.slotCommit (h old : Hub) (u s : Nat) : Hub :=
  if !h.slotChanged old s then
    h.when (h.get (Obj.slotState s) = 1 && h.get (Obj.slotKind s) = 0 && h.slotPreset s ≠ old.slotPreset s) (·.slotFill s u)
  else if !h.flag (Obj.slotEnable s) then
    if h.get (Obj.slotState s) = 0 then h
    else ((h.modSlot s (fun v => { busyLog := v.busyLog, gapLog := v.gapLog })).put (Obj.slotState s) 0).put (Obj.slotImageSize s) 0
  else match h.get (Obj.slotState s) with
    | 0 => h.slotFill s u
    | 1 => h.slotFill s u
    | 2 => h.slotClose s u
    | _ => h

/-- A commit would change a slot that is COMPLETE or READING (Table 8.11). -/
def Hub.slotsBusy (h old : Hub) : Bool :=
  (List.range 16).any (fun s => h.slotChanged old s && (old.get (Obj.slotState s) = 3 || old.get (Obj.slotState s) = 4))

/-- A channel is local on a present FE die, not gated and not diagnostic. -/
def Hub.capturable (h : Hub) (n : Nat) : Bool := chFe n < h.part.fe && !h.flag (Obj.chGated n)

/-- A slot captures what R250 does not allow. -/
def Hub.slotSourceBad (h : Hub) (s : Nat) : Bool :=
  if h.get (Obj.slotKind s) = 0 then
    let l := maskList 384 (h.get (Obj.slotChMask s))
    l.isEmpty || l.any (fun n => !h.capturable n || h.get (Obj.chFilterPreset n) ≠ h.slotPreset s)
  else
    let l := maskList 8 (h.get (Obj.slotDieMask s))
    l.isEmpty || l.any (fun f => f ≥ h.part.fe)

/-- DATA and HEADER are not readable before the capture is COMPLETE, and neither RELEASE nor READOUT_START is accepted
elsewhere than in COMPLETE (R253). -/
def Hub.slotReadable (h : Hub) (s : Nat) : Bool := h.get (Obj.slotState s) = 3 || h.get (Obj.slotState s) = 4
def Hub.slotWriteRefusal (h : Hub) (s : Nat) : Nat := if h.get (Obj.slotState s) = 3 then 0 else Abort.captureNotReady

/-- Bytes of DATA from READ_OFFSET, which advances by the length returned (R258). -/
def Hub.readSlotData (h : Hub) (s n : Nat) : List Nat × Hub :=
  let off := h.get (Obj.slotReadOffset s)
  let l := ((h.slotImage s h.leadDie).drop off).take n
  (l, h.put (Obj.slotReadOffset s) (off + l.length))

end Sys2Proof.Machine
end

