-- ==== Sys2Proof/Machine/LaneBlocks.lean ====
section
/-! DEFINITION. What leaves a transmitter: the 64b/66b blocks of a native lane, the messages and frames they carry, and the
datagram of an Ethernet lane (R400 to R402, R413). -/
namespace Sys2Proof.Machine

/-! ### Blocks (R400, R401) -/

/-- The self-synchronising scrambler x⁵⁸ + x³⁹ + 1 over `n` bits of `d`, the lowest first: the scrambled bits, and the latest 58 of
them, the newest lowest. (PRESUMED: log 190.) -/
def scramble : Nat → Nat → Nat → Nat × Nat
  | 0, _, s => (0, s)
  | n + 1, d, s =>
    let b := (d + s / 2 ^ 38 + s / 2 ^ 57) % 2
    let r := scramble n (d / 2) ((2 * s + b) % 2 ^ 58)
    (b + 2 * r.1, r.2)

/-- A block of eight bytes leaves native lane l under a sync header. (DEDUCED: log 137.) -/
def Hub.sendBlock (h : Hub) (l sync : Nat) (b : List Nat) : Hub :=
  let r := scramble 64 (ofBytes b) (h.lane l).scram
  (h.modLane l (fun v => { v with scram := r.2 })).emit (.block l sync r.1)

/-- A control block: its type and seven bytes, the rest 0x00 (Table 13.6). -/
def Hub.sendControl (h : Hub) (l type : Nat) (b : List Nat) : Hub := h.sendBlock l 2 (type :: (b ++ List.replicate (7 - b.length) 0))

/-- A packet ends aborted: by the aborted-packet mark on a native lane, by an Error character on an Ethernet lane (R413). -/
def Hub.sendAbortMark (h : Hub) (l : Nat) : Hub := if h.laneEth l then h.emit (.ethError (lanePort l)) else h.sendControl l 0xD2 []

/-- The words of a frame that the next block carries, the last of them by the block that ends it (R401). -/
def Hub.sendWords (h : Hub) (l : Nat) (words : List Nat) : Hub :=
  match words with
  | [] => h.sendControl l 0x87 []
  | [w] => h.sendControl l 0xB4 (toBytes 4 w)
  | a :: b :: _ => h.sendBlock l 1 (toBytes 4 a ++ toBytes 4 b)

/-! ### Messages (R402) -/

/-- The body blocks of a message. -/
def LaneMsg.bodies (m : LaneMsg) : Nat := ceilDiv (m.bytes.length - 3) 7

/-- One bit of CRC-16 with polynomial 0x1021. -/
def crc16Step (c : Nat) : Nat := if c ≥ 0x8000 then (2 * c ^^^ 0x1021) % 65536 else 2 * c

/-- CRC-16 over bytes, initial value 0xFFFF (Table 13.4). (PRESUMED: log 190.) -/
def crc16 (b : List Nat) : Nat :=
  b.foldl (fun c x => crc16Step (crc16Step (crc16Step (crc16Step (crc16Step (crc16Step (crc16Step (crc16Step (c ^^^ x * 256))))))))) 0xFFFF

/-- The payload bytes of a message: what its type gives, 0x00 up to the CRC, and the CRC over type, block count and both. -/
def LaneMsg.payload (m : LaneMsg) : List Nat :=
  let b := m.bytes ++ List.replicate (3 + 7 * m.bodies - m.bytes.length) 0
  b ++ toBytes 2 (crc16 ([m.code, m.bodies] ++ b))

/-- Block `i` of a message: its head, then its body blocks. -/
def Hub.sendMsgBlock (h : Hub) (l : Nat) (m : LaneMsg) (i : Nat) : Hub :=
  if i = 0 then h.sendControl l 0x55 ([m.code, m.bodies] ++ m.payload.take 5)
  else h.sendControl l 0x66 ((m.payload.drop (5 + 7 * (i - 1))).take 7)

/-- A message leaves lane l at once, all its blocks. -/
def Hub.sendNow (h : Hub) (l code : Nat) (bytes : List Nat) : Hub :=
  let m : LaneMsg := ⟨code, bytes⟩
  (h.emit (.lane l code bytes)).forEach (List.range (m.bodies + 1)) (fun i h => h.sendMsgBlock l m i)

/-- The rest of the message in progress on a lane. -/
def Hub.finishMsg (h : Hub) (l : Nat) : Hub :=
  match (h.lane l).msgNow with
  | none => h
  | some (m, left) =>
    let h := h.forEach (List.range left) (fun i h => h.sendMsgBlock l m (m.bodies + 1 - left + i))
    h.modLane l (fun v => { v with
      msgNow := none, blocks := v.blocks + left
      horolAt := if m.code = 0x20 then ((List.range left).map (fun i => v.blocks + left - i) ++ v.horolAt).take 16 else v.horolAt })

/-- A TT_SYNC or TT_DELAY that is due leaves at the first block boundary with no message in progress, before all that waits (R403). -/
def Hub.sendTimed (h : Hub) (l code : Nat) (bytes : List Nat) : Hub :=
  ((h.finishMsg l).modLane l (fun v => { v with blocks := v.blocks + 1 })).sendNow l code bytes

/-! ### Training words (R394) -/

/-- The training word of a native lane (Table 13.4). -/
def Hub.trainWord (h : Hub) (l : Nat) : Nat :=
  let v := h.lane l
  let w := 0x7E81 + h.get (Obj.laneRate l) * 2 ^ 16 + v.ffeReq * 2 ^ 20 + h.get (Obj.laneFfeTx l) * 2 ^ 24 + b2n v.rxReady * 2 ^ 28 +
    h.get (Obj.laneFom l) * 2 ^ 32
  w + crc16 (toBytes 6 w) * 2 ^ 48

/-- A native lane in TRAIN sends this training word from now on. (DEDUCED: log 136.) -/
def Hub.sendTrain (h : Hub) (l : Nat) : Hub := if h.laneEth l then h else h.emit (.training l (h.trainWord l))

/-! ### Datagrams (R413) -/

/-- An address object of `n` bytes holds them in network order (R419): the address as a number. (DEDUCED: log 135.) -/
def netValue (n v : Nat) : Nat := ofBytes (toBytes n v).reverse

/-- `n` bytes of a number, most significant first. -/
def beBytes (n v : Nat) : List Nat := (toBytes n v).reverse

/-- The Internet checksum of a byte string: the complement of the ones' complement sum of its 16-bit words. -/
def inetSum (b : List Nat) : Nat :=
  let s := sumNat ((chunks 2 b.length b).map (fun w => w.getD 0 0 * 256 + w.getD 1 0))
  let s := s / 65536 + s % 65536
  65535 - (s / 65536 + s % 65536)

/-- The UDP datagram of a packet's bytes, its checksum taken over the pseudo header `pseudo`. -/
def udpDatagram (src dest : Nat) (pseudo payload : List Nat) : List Nat :=
  let ports := beBytes 2 src ++ beBytes 2 dest ++ beBytes 2 (8 + payload.length)
  let c := inetSum (pseudo ++ ports ++ [0, 0] ++ payload)
  ports ++ beBytes 2 (if c = 0 then 65535 else c) ++ payload

/-- The IP packet of port u that carries a packet of a class (R413). The address objects hold network byte order (R419). -/
def Hub.ipPacket (h : Hub) (u cls : Nat) (payload : List Nat) : List Nat :=
  let udp (pseudo : List Nat) : List Nat := udpDatagram (h.get (Obj.ethSrcUdpPort u)) (h.get (Obj.ethDestUdpPort u)) pseudo payload
  let n := 8 + payload.length
  let hops := h.get (Obj.ethHopLimit u)
  let tos := 8 * cls * 4
  if h.get (Obj.ethIpVersion u) = 4 then
    let ends := toBytes 4 (h.get (Obj.ethIpv4Address u)) ++ toBytes 4 (h.get (Obj.ethDestIpv4 u))
    let head (c : Nat) : List Nat := [0x45, tos] ++ beBytes 2 (20 + n) ++ [0, 0, 0x40, 0, hops, 17] ++ beBytes 2 c ++ ends
    head (inetSum (head 0)) ++ udp (ends ++ [0, 17] ++ beBytes 2 n)
  else
    let ends := toBytes 16 (h.get (Obj.ethIpv6Address u)) ++ toBytes 16 (h.get (Obj.ethDestIpv6 u))
    [0x60 + tos / 16, tos % 16 * 16, 0, 0] ++ beBytes 2 n ++ [17, hops] ++ ends ++ udp (ends ++ beBytes 4 n ++ [0, 0, 0, 17])

/-- The Ethernet frame of a packet on port u: addresses, EtherType, the IP packet and the FCS. -/
def Hub.datagramBytes (h : Hub) (u cls : Nat) (payload : List Nat) : List Nat :=
  let dest := if h.get (Obj.ethDestMac u) ≠ 0 then h.get (Obj.ethDestMac u) else h.get (Obj.ethResolvedMac u)
  let type := if h.get (Obj.ethIpVersion u) = 4 then [0x08, 0x00] else [0x86, 0xDD]
  let b := toBytes 6 dest ++ toBytes 6 (h.get (Obj.ethMacAddress u)) ++ type ++ h.ipPacket u cls payload
  b ++ toBytes 4 (crc32 b)

end Sys2Proof.Machine
end

