-- ==== Sys2Proof/Machine/Windows.lean ====
section
/-! DEFINITION. Sequence numbers modulo 2⁴⁸ and the duplicate-discard windows (R335, R336, R353, R354, R363). -/
namespace Sys2Proof.Machine

/-- a − b modulo 2⁴⁸ (R353). -/
def seqDiff (a b : Nat) : Nat := (a % 2 ^ 48 + 2 ^ 48 - b % 2 ^ 48) % 2 ^ 48

/-- Number a lies after b. -/
def seqAfter (a b : Nat) : Bool := 1 ≤ seqDiff a b && seqDiff a b ≤ 2 ^ 47 - 1

/-- Number a lies in the range from `lo` to `hi`. -/
def seqIn (a lo hi : Nat) : Bool := seqDiff a lo ≤ seqDiff hi lo

/-- What the order of R335 says of a frame. `late` is R363's discard. -/
inductive DupVerdict where
  | accept | stale | duplicate | diverge | late
deriving DecidableEq, Repr

/-- A number lies at or below the window of the highest number `high`. -/
def seqStale (seq high : Nat) : Bool := !seqAfter (seq + 1024) high

/-- The order of R335 for a number and a check word. -/
def DupWin.verdict (w : DupWin) (seq check : Nat) : DupVerdict :=
  if seqStale seq w.high then .stale
  else if seqAfter seq w.high then .accept
  else match w.seen.find? (fun e => e.1 = seq % 2 ^ 48) with
    | some e => if e.2 = check then .duplicate else .diverge
    | none => if w.marked.any (fun m => seqIn seq m.1 m.2) then .late else .accept

/-- The window moved up to a new highest number. -/
def DupWin.raise (w : DupWin) (high : Nat) : DupWin :=
  { w with
    high := high % 2 ^ 48, seen := w.seen.filter (fun e => !seqStale e.1 high)
    marked := w.marked.filter (fun m => !seqStale m.2 high) }

/-- The window after a number has been accepted. -/
def DupWin.take (w : DupWin) (seq check : Nat) : DupWin :=
  let w := if seqAfter seq w.high then w.raise seq else w
  { w with seen := (seq % 2 ^ 48, check) :: w.seen }

/-- A number has been accepted as data. -/
def DupWin.has (w : DupWin) (seq : Nat) : Bool := w.seen.any (fun e => e.1 = seq % 2 ^ 48)

/-- The window after a gap record has marked a range as received. -/
def DupWin.mark (w : DupWin) (lo hi : Nat) : DupWin :=
  let w := if seqAfter hi w.high then w.raise hi else w
  { w with marked := (lo % 2 ^ 48, hi % 2 ^ 48) :: w.marked }

/-- The window of hub die x for a key. -/
def Hub.win (h : Hub) (x hub stream : Nat) (gap : Bool) : Option DupWin :=
  h.wins.find? (fun w => w.die = x && w.hub = hub && w.stream = stream && w.gap = gap)

/-- The hub with a window put in place. -/
def Hub.setWin (h : Hub) (w : DupWin) : Hub :=
  { h with wins := h.wins.filter (fun o => !(o.die = w.die && o.hub = w.hub && o.stream = w.stream && o.gap = w.gap)) ++ [w] }

/-- Hub die x has accepted a number as data. -/
def Hub.seenNum (h : Hub) (x hub stream seq : Nat) : Bool :=
  match h.win x hub stream false with
  | some w => w.has seq
  | none => false

/-- A gap record covers numbers that die x has accepted as data. -/
def Hub.superseded (h : Hub) (x hub stream lo hi : Nat) : Bool :=
  match h.win x hub stream false with
  | some w => w.seen.any (fun e => seqIn e.1 lo hi)
  | none => false

/-- A gap record's numbers count as received in the frame window of die x. (DEDUCED: log 119.) -/
def Hub.markWin (h : Hub) (x hub stream lo hi : Nat) : Hub :=
  match h.win x hub stream false with
  | some w => h.setWin (w.mark lo hi)
  | none => h.setWin { die := x, hub := hub, stream := stream, high := hi % 2 ^ 48, marked := [(lo % 2 ^ 48, hi % 2 ^ 48)] }

/-- A diverging copy is counted, kept in LAST_DIVERGE and logged at most once per second (R336, R342). (DEDUCED: log 122.) -/
def Hub.diverge (h : Hub) (hub stream seq first check : Nat) : Hub :=
  let h := (h.bump Obj.divergeCount).put Obj.lastDiverge
    (pack [(96, h.nowWord 0), (16, hub), (8, stream), (48, seq), (32, first), (32, check)])
  let now := h.time.ticks
  let due := match h.divergeLog with
    | some t => decide (now ≥ t + tSec)
    | none => true
  if due then ({ h with divergeLog := some now }).log 0x0B05 2 srcPkg (hub + stream % 64 * 65536 + seq % 2 ^ 42 * 2 ^ 22) else h

/-- R335 on hub die x for a frame or gap record of a key: whether it is accepted. START clears a window that would find the
frame stale (R354). -/
def Hub.dedup (h : Hub) (x hub stream : Nat) (gap start : Bool) (seq check : Nat) : Bool × Hub :=
  match h.win x hub stream gap with
  | none => (true, h.setWin { die := x, hub := hub, stream := stream, gap := gap, high := seq % 2 ^ 48, seen := [(seq % 2 ^ 48, check)] })
  | some w =>
    match w.verdict seq check with
    | .accept => (true, h.setWin (w.take seq check))
    | .stale =>
      if start then (true, h.setWin { w with high := seq % 2 ^ 48, seen := [(seq % 2 ^ 48, check)], marked := [] })
      else (false, h.bump Obj.staleCount)
    | .duplicate => (false, h.bump Obj.dedupDiscarded)
    | .late => (false, h.bump Obj.lateAfterGap)
    | .diverge => (false, h.diverge hub stream seq ((w.seen.find? (fun e => e.1 = seq % 2 ^ 48)).getD (0, 0)).2 check)

end Sys2Proof.Machine
end

