-- ==== Sys2Proof/Machine/Queues.lean ====
section
/-! DEFINITION. Packets, the two output queues, what the dies lose and the gap records that stand in its place (R355, R359 to
R362, R377 to R381). -/
namespace Sys2Proof.Machine

def Hub.stream (h : Hub) (q : Nat) : StreamSt := vget h.streams q
def Hub.modStream (h : Hub) (q : Nat) (f : StreamSt → StreamSt) : Hub := { h with streams := vupd h.streams q f }
def Hub.queue (h : Hub) (x : Nat) : QueueSt := vget h.queues x
def Hub.modQueue (h : Hub) (x : Nat) (f : QueueSt → QueueSt) : Hub := { h with queues := vupd h.queues x f }
def Hub.fwd (h : Hub) (j : Nat) : FwdSt := vget h.fwds j
def Hub.modFwd (h : Hub) (j : Nat) (f : FwdSt → FwdSt) : Hub := { h with fwds := vupd h.fwds j f }

/-- The enabled entry for a key. -/
def Hub.entryOf (h : Hub) (hub stream : Nat) : Option Nat :=
  (List.range 128).find? (fun j => h.flag (Obj.fwdEnable j) && h.get (Obj.fwdSrcHub j) = hub && h.get (Obj.fwdSrcStream j) = stream)

/-! ### Ports (R379, R387, R416) -/

/-- The lane is ACTIVE below its configured rate. (DEDUCED: log 125.) -/
def Hub.rateLow (h : Hub) (l : Nat) : Bool :=
  h.laneActive l && !h.laneEth l && (h.lane l).div ≠ h.get (Obj.laneRateDiv l)

/-- The own address of the port's IP version is set, and the destination. -/
def Hub.srcSet (h : Hub) (u : Nat) : Bool := h.get (if h.get (Obj.ethIpVersion u) = 4 then Obj.ethIpv4Address u else Obj.ethIpv6Address u) ≠ 0
def Hub.destSet (h : Hub) (u : Nat) : Bool := h.get (if h.get (Obj.ethIpVersion u) = 4 then Obj.ethDestIpv4 u else Obj.ethDestIpv6 u) ≠ 0
def Hub.addrSet (h : Hub) (u : Nat) : Bool := h.srcSet u && h.destSet u

/-- The port is usable: ACTIVE at its configured rate and not looping back for the far end (R411), and under ETHERNET free of faults,
with its address set and either DEST_MAC not 0 or the destination set and resolved (R416). -/
def Hub.portUsable (h : Hub) (u : Nat) : Bool :=
  let l := upPort u
  h.laneActive l && (if h.laneEth l then
      (vget h.eths u).faultAt.isNone && h.srcSet u && (h.get (Obj.ethDestMac u) ≠ 0 || (h.destSet u && (vget h.eths u).resolvedAt.isSome))
    else !h.rateLow l && !h.bit (Obj.laneStatus l) 8)

/-- STATUS of a port: USABLE and RATE_LOW. -/
def Hub.portStatus (h : Hub) (u : Nat) : Nat := b2n (h.portUsable u) + b2n (h.rateLow (upPort u)) * 2

/-- UPLINK of a stream or entry: the primary port and the alternate, if one is enabled. (DEDUCED: log 126.) -/
def uplinkPrim (w : Nat) : Nat := w % 4
/-- The alternate port that an UPLINK names. (DEDUCED: log 126.) -/
def uplinkAlt (w : Nat) : Option Nat := if bitOf w 2 then some (field w 3 2) else none

/-- The port is in L1 at its configured rate: a packet for it wakes the lane and waits for the exit (R409). -/
def Hub.portWakes (h : Hub) (u : Nat) : Bool :=
  let l := upPort u
  h.get (Obj.laneState l) = 6 && (h.lane l).div = h.get (Obj.laneRateDiv l)

/-- The port of hub die x to which a packet goes now: the primary port, or the alternate, when it is usable (R379); failing
both, a port in L1, whose exit the packet waits for (R409). -/
def Hub.portOf (h : Hub) (x : Nat) (p : Packet) : Option Nat :=
  let ports := p.prim :: p.alt.toList
  match ports.find? (fun a => h.portUsable (x * 4 + a)) with
  | some a => some a
  | none => ports.find? (fun a => h.portWakes (x * 4 + a))

/-- STATUS of a stream (Table 12.13): ON_ALTERNATE while a die that sends puts the packets of a running stream on the alternate
port, DISCARDING while it finds no port for them. (DEDUCED: log 161.) -/
def Hub.streamStatus (h : Hub) (q : Nat) : Nat :=
  let w := h.get (Obj.stUplink q)
  let p : Packet := { prim := uplinkPrim w, alt := uplinkAlt w }
  let ports := ((List.range 2).filter (fun x => h.role x = 2 || h.role x = 3)).map (fun x => h.portOf x p)
  let on := h.bit (Obj.stStatus q) 0
  setBit (setBit (h.get (Obj.stStatus q)) 1 (on && ports.any (fun o => o.isSome && o ≠ some p.prim))) 2 (on && ports.contains none)

/-! ### Words (R355, R377, R400) -/

/-- The number of ones among the lowest `n` bits. -/
def ones : Nat → Nat → Nat
  | 0, _ => 0
  | n + 1, w => w % 2 + ones n (w / 2)

/-- A stored word: data, END and even parity over both (Table 12.11). -/
def storedWord (data : Nat) (last : Bool) : Nat :=
  let w := data % 2 ^ 32 + b2n last * 2 ^ 32
  w + ones 33 w % 2 * 2 ^ 33

/-- A stored word passes its parity. -/
def parityOk (w : Nat) : Bool := ones 34 w % 2 = 0

/-- 32-bit words of a byte string. -/
def wordsOf (b : List Nat) : List Nat := (chunks 4 b.length b).map ofBytes

/-- The stored words of a packet whose bytes are given, its check word appended (R355). -/
def packetWords (b : List Nat) : List Nat :=
  (wordsOf b).map (fun w => storedWord w false) ++ [storedWord (crc32 b) true]

/-- The header of a frame whose body has `n` bytes (Table 12.4). -/
def frameHeader (type flags hub stream quality seq first count channels preset n : Nat) : List Nat :=
  toBytes 32 (pack [(8, type), (8, flags), (16, hub), (8, stream), (3, quality), (5, 0), (48, seq), (96, first), (16, count),
    (16, channels), (8, preset), (8, 0), (16, (36 + n) / 4)])

/-! ### The queue -/

/-- The hub die sends frames (Table 11.1). (DEDUCED: log 114.) -/
def Hub.transmits (h : Hub) (x : Nat) : Bool := h.role x = 2 || h.role x = 3

/-- The dies that send. (DEDUCED: log 114.) -/
def Hub.senders (h : Hub) : List Nat := (List.range 2).filter h.transmits

/-- Data bytes stored in a queue, the rest of the packets being sent included. -/
def Hub.queueBytes (h : Hub) (x : Nat) : Nat :=
  4 * (sumNat ((h.queue x).packets.map (fun p => p.words.length)) +
    sumNat ((List.range 4).map (fun p => match (h.lane (x * 8 + p)).frameNow with
      | some (_, w) => w.length
      | none => 0)))

/-- Packets waiting for port p of die x in class c, and their bytes. -/
def Hub.waiting (h : Hub) (x p c : Nat) : List Packet :=
  (h.queue x).packets.filter (fun k => k.cls = c && h.portOf x k = some p)

/-- A number of hub die x is lost, to be reported to its peer. Gap records leave no gap behind, and capture frames belong to no
stream (R348). The hub's own causes concern its own streams, the forwarding ones frames that break their declaration (R361, R365). -/
def Hub.lose (h : Hub) (x cause : Nat) (p : Packet) : Hub :=
  let own := p.hub = h.get Obj.hubIdActive && (p.type = 1 || p.type = 2)
  if p.type ≠ 3 && (own || cause ≥ 6) then { h with lost := h.lost ++ [{ die := x, cause := cause, packet := p }] } else h

/-- A packet that no port can take is discarded and counted (R379); a gap record waits for a port (R362).
(DESIGN CHOICE: log 204.) -/
def Hub.discardPacket (h : Hub) (x : Nat) (p : Packet) : Hub :=
  (h.bump (Obj.pqFramesDiscarded (x * 4 + p.prim % 4))).lose x 2 p

/-- GAPS_PENDING of a die: gap records without a port. -/
def Hub.gapsWaiting (h : Hub) (x : Nat) : Nat :=
  ((h.queue x).packets.filter (fun p => p.type = 3 && (h.portOf x p).isNone)).length

/-- Packets that no port can take leave the queue. -/
def Hub.sweepQueue (h : Hub) (x : Nat) : Hub :=
  let dead := (h.queue x).packets.filter (fun p => p.type ≠ 3 && (h.portOf x p).isNone)
  let h := h.modQueue x (fun q => { q with packets := q.packets.filter (fun p => p.type = 3 || (h.portOf x p).isSome) })
  let h := h.forEach dead (fun p h => h.discardPacket x p)
  h.put (Obj.gapsPending x) (h.gapsWaiting x)

/-- Both queues after a port has changed. -/
def Hub.sweepQueues (h : Hub) : Hub := (h.sweepQueue 0).sweepQueue 1

/-- The data bytes of 262,144 stored words (R377). -/
def queueSize : Nat := 4 * 262144

/-- A whole packet is stored in a die's queue. One that finds no room in the 262,144 stored words is discarded as if it found no port;
a gap record always stays. (DEDUCED: log 114; DESIGN CHOICE: log 204.) -/
def Hub.enqueue (h : Hub) (x : Nat) (p : Packet) : Hub :=
  if !h.transmits x then h
  else if p.type ≠ 3 && h.queueBytes x + 4 * p.words.length > queueSize then h.discardPacket x p else
  let h := h.modQueue x (fun q => { q with packets := q.packets ++ [p] })
  let n := h.queueBytes x
  let h := if n > h.get (Obj.queuePeak x) then h.put (Obj.queuePeak x) n else h
  h.sweepQueue x

/-- The oldest waiting packet of the highest class for a port (R378). -/
def Hub.nextPacket (h : Hub) (x p : Nat) : Option Packet :=
  ([7, 6, 5, 4, 3, 2, 1, 0].findSome? (fun c => (h.waiting x p c).head?))

/-- A packet leaves the queue for its lane. -/
def Hub.takePacket (h : Hub) (x : Nat) (p : Packet) : Hub := h.modQueue x (fun q => { q with packets := q.packets.erase p })

/-! ### Gap records (R360 to R362) -/

/-- The body of a gap record (Table 12.6). -/
def GapRec.body (g : GapRec) (issuer : Nat) : List Nat :=
  toBytes 32 (pack [(48, g.last), (8, g.cause), (2, g.kind), (4, g.fe), (2, 0), (64, g.span), (16, issuer)])

/-- A gap record as a packet. -/
def Hub.gapPacket (h : Hub) (g : GapRec) : Packet :=
  let body := g.body (h.get Obj.hubIdActive)
  let b := frameHeader 3 0 g.hub g.stream (h.quality 0) g.seq (time96 g.start 0) 0 0 0xFF 32 ++ body
  { hub := g.hub, stream := g.stream, seq := g.seq, last := g.last, type := 3, prim := g.prim, alt := g.alt, cls := g.cls
    cause := g.cause, start := g.start, span := some g.span, words := packetWords b }

/-- A stream's own number of gap records, or its entry's, is counted and logged at most once per second (R386). -/
def Hub.countGap (h : Hub) (g : GapRec) : Hub :=
  let now := h.time.ticks
  let due (t : Option Nat) : Bool := match t with
    | some t => decide (now ≥ t + tSec)
    | none => true
  let n := satNat (2 ^ 32 - 1) ((g.last + 2 ^ 48 - g.seq) % 2 ^ 48 + 1)
  let logIt (h : Hub) : Hub := h.logAt (time96 g.start 0) 0x0C01 1 srcPkg (g.hub + g.stream * 65536 + g.cause * 2 ^ 24 + n * 2 ^ 32)
  if g.hub = h.get Obj.hubIdActive && g.stream < 64 then
    let h := h.bump (Obj.stGaps g.stream)
    if due (h.stream g.stream).gapLog then logIt (h.modStream g.stream (fun s => { s with gapLog := some now })) else h
  else
    match h.entryOf g.hub g.stream with
    | some j =>
      let h := h.when (g.cause ≥ 4) (·.bump (Obj.fwdGapsIssued j))
      if due (h.fwd j).gapLog then logIt (h.modFwd j (fun s => { s with gapLog := some now })) else h
    | none => h

/-- FE_MASK of a gap record as it is stored. -/
def Packet.feMask (p : Packet) : Nat := field (p.words.getD 9 0) 26 4

/-- Two packets of gap records are merged: adjacent numbers of one key and cause (R362). -/
def Packet.adjacent (a b : Packet) : Bool :=
  a.type = 3 && b.type = 3 && a.hub = b.hub && a.stream = b.stream && a.cause = b.cause && (a.last + 1) % 2 ^ 48 = b.seq

/-- The first pair of adjacent gap records of a queue becomes one. -/
def Hub.mergeGaps (h : Hub) (x : Nat) : Hub :=
  let l := (h.queue x).packets.filter (fun p => p.type = 3)
  match l.findSome? (fun a => (l.find? (fun b => a.adjacent b)).map (fun b => (a, b))) with
  | none => h
  | some (a, b) =>
    let span := a.span.getD 0 + b.span.getD 0
    let g : GapRec := { hub := a.hub, stream := a.stream, seq := a.seq, last := b.last, cause := a.cause
                        kind := if a.cause = 5 then 2 else if a.cause = 0 then 1 else 0, fe := a.feMask ||| b.feMask
                        start := a.start, span := span, prim := a.prim, alt := a.alt, cls := a.cls }
    let m := h.gapPacket g
    let h := h.modQueue x (fun q => { q with packets := (q.packets.erase b).map (fun p => if p = a then m else p) })
    h.log 0x0C02 1 srcPkg (a.hub + a.stream * 65536)

/-- A gap record is queued on one die. -/
def Hub.queueGap (h : Hub) (x : Nat) (g : GapRec) : Hub :=
  let h := h.enqueue x (h.gapPacket g)
  let h := if h.gapsWaiting x > 256 then h.mergeGaps x else h
  h.put (Obj.gapsPending x) (h.gapsWaiting x)

/-- A gap record is issued on every die that sends; the numbers of a forwarded stream count as received from then on. -/
def Hub.issueGap (h : Hub) (g : GapRec) : Hub :=
  let h := if g.hub = h.get Obj.hubIdActive || g.kind = 1 then h
    else (h.markWin 0 g.hub g.stream g.seq g.last).markWin 1 g.hub g.stream g.seq g.last
  (h.countGap g).forEach h.senders (fun x h => h.queueGap x g)

/-- Whether hub die x still holds a packet, waiting or in flight. (DEDUCED: log 117.) -/
def Hub.holds (h : Hub) (x : Nat) (p : Packet) : Bool :=
  let same (k : Packet) : Bool := k.type = p.type && k.hub = p.hub && k.stream = p.stream && k.seq = p.seq
  (h.queue x).packets.any same || (List.range 4).any (fun l => match (h.lane (x * 8 + l)).frameNow with
    | some (k, _) => same k
    | none => false)

/-- Whether hub die x has lost a packet's number, or never had it where the stream is forwarded. (DEDUCED: log 117.) -/
def Hub.hasLost (h : Hub) (x : Nat) (p : Packet) : Bool :=
  (p.hub ≠ h.get Obj.hubIdActive && !h.seenNum x p.hub p.stream p.seq) || h.lost.any (fun r => r.die = x && r.packet.hub = p.hub && r.packet.stream = p.stream && r.packet.seq = p.seq)

/-- Successive numbers of one key and cause go into one record. -/
def addGap (gs : List GapRec) (g : GapRec) : List GapRec :=
  match gs.getLast? with
  | some o =>
    if o.hub = g.hub && o.stream = g.stream && o.cause = g.cause && o.kind = g.kind && (o.last + 1) % 2 ^ 48 = g.seq then
      gs.dropLast ++ [{ o with last := g.last, span := (g.start - o.start) / 65536 + g.span, fe := o.fe ||| g.fe }]
    else gs ++ [g]
  | none => [g]

/-- The first sample after a lost packet, in 2⁻¹⁶ ns, where it is known: that of the frame with the next number, or of the open
records of the hub's own stream. (DESIGN CHOICE: log 115.) -/
def Hub.sampleAfter (h : Hub) (p : Packet) : Option Nat :=
  let next := (p.last + 1) % 2 ^ 48
  if p.hub = h.get Obj.hubIdActive && p.stream < 64 then
    match (h.stream p.stream).heads.find? (fun e => e.1 = next) with
    | some e => some e.2
    | none => if h.get (Obj.stNextSeq p.stream) = next then (h.stream p.stream).recs.head?.map (·.out.instant) else none
  else match h.entryOf p.hub p.stream with
    | some j => ((h.fwd j).heads.find? (fun e => e.1 = next)).map (·.2)
    | none => none

/-- The dies exchange what they have lost. A number that every sending die has lost goes into a gap record; one that another
die has sent, or still sends, does not. A RECORD stream's span is open while the sample after the gap is not yet known.
(DESIGN CHOICE: log 115; DEDUCED: log 117.) -/
def Hub.exchangeLost (h : Hub) : Hub :=
  let dies := h.senders
  let firsts := h.lost.filter (fun r => match h.lost.find? (fun o => o.packet.hub = r.packet.hub &&
      o.packet.stream = r.packet.stream && o.packet.seq = r.packet.seq) with
    | some o => o.die = r.die
    | none => false)
  let gone (r : LostRec) : Bool := dies.all (fun x => h.hasLost x r.packet)
  let keep (r : LostRec) : Bool := !gone r && dies.any (fun x => x ≠ r.die && !h.hasLost x r.packet && h.holds x r.packet)
  let h' := { h with lost := h.lost.filter keep }
  let causeOf (p : Packet) : Nat := (h.lost.filter (fun r => r.packet.hub = p.hub && r.packet.stream = p.stream &&
    r.packet.seq = p.seq)).foldl (fun a r => max a r.cause) 0
  h'.forEach (firsts.filter gone) (fun r h =>
    let sp := match r.packet.span, h.sampleAfter r.packet with
      | some n, _ => (n, h)
      | none, some u => ((u - r.packet.start) / 65536, h)
      | none, none => h.drawNat
    let p := r.packet
    let g : GapRec := { hub := p.hub, stream := p.stream, seq := p.seq, last := p.seq, cause := causeOf p, kind := 0
                        start := p.start, span := sp.1, prim := p.prim, alt := p.alt, cls := p.cls }
    { sp.2 with gaps := addGap sp.2.gaps g })

/-! ### Flush and poison (R380, R381) -/

/-- Packets of a die that are being sent. -/
def Hub.inFlight (h : Hub) (x : Nat) : List (Nat × Packet) :=
  (List.range 4).filterMap (fun p => match (h.lane (x * 8 + p)).frameNow with
    | some (k, _) => some (x * 8 + p, k)
    | none => none)

/-- The queue of die x is emptied; ports in mid-packet end their frames with the aborted-packet mark. `why` is 0 for the host,
1 for R325. -/
def Hub.flushQueue (h : Hub) (x why : Nat) : Hub :=
  let ps := (h.queue x).packets
  let fl := h.inFlight x
  let h := h.modQueue x (fun q => { q with packets := [] })
  let h := h.forEach fl (fun e h => ((h.modLane e.1 (fun v => { v with frameNow := none })).bump (Obj.abortedPackets x)).sendAbortMark e.1)
  let h := h.forEach (ps ++ fl.map (·.2)) (fun p h => h.lose x 1 p)
  (h.put (Obj.gapsPending x) 0).log 0x0C05 2 (srcHd x) (srcHd x + why * 256 + (ps.length + fl.length) * 2 ^ 32)

end Sys2Proof.Machine
end

