-- ==== Sys2Proof/Machine/Streams.lean ====
section
/-! DEFINITION. The hub's own streams: rows and records, the frames they close into, and what a loss leaves in them (R348 to
R352, R355 to R358, R47, R48). -/
namespace Sys2Proof.Machine

/-- Numbers of streams are counted modulo 2⁴⁸ (R353). -/
def seqMod (n : Nat) : Nat := n % 2 ^ 48

/-- The stream runs, or outputs that belong to it are still to leave (R349). -/
def Hub.streamRuns (h : Hub) (q : Nat) : Bool := h.bit (Obj.stStatus q) 0 || (h.stream q).ends.isSome

/-- Outputs of instant `t` no longer belong to a stream that a commit has disabled. -/
def StreamSt.past (v : StreamSt) (t : Nat) : Bool :=
  match v.ends with
  | some u => u ≤ t
  | none => false

/-- The span of one row of a ROW stream in 2⁻¹⁶ ns. -/
def Hub.rowSpan (h : Hub) (q : Nat) : Nat := presetRaw (h.get (Obj.stPreset q)) * uGrid

/-- The span of a frame of a ROW stream (R350). -/
def Hub.frameSpan (h : Hub) (q : Nat) : Nat := h.get (Obj.stFrameSamples q) * h.rowSpan q

/-- The history that gives the output of an instant, and the stream that output goes to (R349). -/
def ChainCtx.streamAt (c : ChainCtx) (t : Nat) : Nat :=
  match c.moves.find? (fun e => t < e.2) with
  | some e => e.1
  | none => c.stream
def Hub.streamOf (h : Hub) (n t : Nat) : Nat :=
  let cs := (h.chain n).ctxs
  let covers (c : ChainCtx) : Bool := match c.last with
    | some l => (t / (c.per * uGrid) : Nat) ≤ l
    | none => true
  match cs.find? covers with
  | some c => c.streamAt t
  | none => 0xFF

/-- The channels whose outputs at an instant go to stream q. -/
def Hub.rowMembers (h : Hub) (q t : Nat) : List Nat :=
  (List.range 384).filter (fun n => !h.flag (Obj.chGated n) && h.feUp (chFe n) && h.streamOf n t = q)

/-! ### Loss (R47, R48) -/

/-- Hub die x lacks an output. -/
def OutRec.lost (r : OutRec) (x : Nat) : Bool := if x = 0 then r.lost0 else r.lost1

/-- Every sending die lacks an output. -/
def Hub.lostAll (h : Hub) (r : OutRec) : Bool := h.senders.all r.lost

/-- Hub die x can send a frame of these outputs: it lacks none but those that every sender lacks. (DEDUCED: log 113.) -/
def Hub.canSend (h : Hub) (os : List OutRec) (x : Nat) : Bool := os.all (fun r => !r.lost x || h.lostAll r)

/-- The word a frame carries for an output. Where no die can send the frame as it is, what either lacks is lost.
(DEDUCED: log 113.) -/
def Hub.frameWord (h : Hub) (os : List OutRec) (r : OutRec) : Nat :=
  if h.senders.any (h.canSend os) then (if h.lostAll r then 0x80000000 else r.word)
  else if h.senders.any r.lost then 0x80000000 else r.word

/-- The FE dies of channels whose words a frame lost. -/
def feBits (l : List (Nat × Bool)) : Nat :=
  sumNat ((List.range 4).map (fun f => if l.any (fun e => e.2 && e.1 = f) then 2 ^ f else 0))

/-- The FE die of a local or diagnostic channel. -/
def chDie (n : Nat) : Nat := if n < 384 then n / 96 else (n - 384) / 36

/-! ### Closing a frame -/

/-- A frame of stream q goes to the queues: every die that can send it does, one that cannot has lost its number.
(DEDUCED: log 113.) -/
def Hub.sendFrame (h : Hub) (q : Nat) (os : List OutRec) (p : Packet) : Hub :=
  let able := h.senders.filter (h.canSend os)
  let send := if able.isEmpty then h.senders else able
  let h := ((h.put (Obj.stNextSeq q) (seqMod (p.seq + 1))).bump (Obj.stFrames q)).modStream q (fun s => { s with start := false })
  h.forEach (List.range 2) (fun x h =>
    if send.contains x then h.enqueue x p
    else if h.transmits x then { h with lost := h.lost ++ [{ die := x, cause := 0, packet := p }] } else h)

/-- The missed raw frames behind a loss, from the first to past the last, as the FE dies' latest runs show them (Table 12.7).
(DEDUCED: log 116.) -/
def Hub.lossRun (h : Hub) (l : PartialLoss) : Nat × Nat :=
  (List.range 4).foldl (fun r f =>
    let v := vget h.fes f
    if bitOf l.fe f && (r.1 = r.2 || v.lostFrom ≤ r.2) && 0 < v.lostCount then
      (if r.1 = r.2 then v.lostFrom else min r.1 v.lostFrom, max r.2 (v.lostFrom + v.lostCount))
    else r) (l.from_, l.to_)

/-- The loss of words that is over becomes a gap record to issue (Table 12.7, cause 0). -/
def Hub.endPartial (h : Hub) (q : Nat) : Hub :=
  match (h.stream q).partial_ with
  | none => h
  | some l =>
    let record := h.get (Obj.stKind q) = 1
    let r := h.lossRun l
    let w := h.get (Obj.stUplink q)
    let g : GapRec := { hub := h.get Obj.hubIdActive, stream := q, seq := l.first, last := l.last, cause := 0, kind := 1, fe := l.fe
                        start := if record then gridU r.1 else l.start
                        span := if record then 500 * (r.2 - r.1) else l.count * h.rowSpan q / 65536
                        prim := uplinkPrim w, alt := uplinkAlt w, cls := h.get (Obj.stPriority q) }
    let h := { h with gaps := h.gaps ++ [g] }
    (h.modStream q (fun s => { s with partial_ := none })).putBit (Obj.stStatus q) 3 false

/-- A closed frame continues, begins or ends a loss; a loss that lasts is recorded once per ARRAY second (R361). `lost` counts
the output instants with lost words, `first` is the first of them. -/
def Hub.notePartial (h : Hub) (q seq lost first fe : Nat) : Hub :=
  if lost = 0 then h.endPartial q else
  let sec := h.now 0 / uSec
  let h := match (h.stream q).partial_ with
    | some l => if l.second ≠ sec then h.endPartial q else h
    | none => h
  let l : PartialLoss := match (h.stream q).partial_ with
    | some l => { l with last := seq, count := l.count + lost, fe := l.fe ||| fe }
    | none => { first := seq, last := seq, start := first, count := lost, fe := fe, second := sec }
  let r := h.lossRun l
  let l := { l with from_ := r.1, to_ := r.2 }
  (h.modStream q (fun s => { s with partial_ := some l })).putBit (Obj.stStatus q) 3 true

/-- Channel indices of a ROW body, padded to a multiple of 4 B (R356). -/
def chanList (cs : List Nat) : List Nat :=
  cs.flatMap (toBytes 2) ++ (if cs.length % 2 = 1 then [0xFF, 0xFF] else [])

/-- The open ROW frame of q closes with the rows it holds. -/
def Hub.closeRow (h : Hub) (q : Nat) (short hold : Bool) : Hub :=
  let v := h.stream q
  match v.done with
  | [] => h
  | (t0, _) :: _ =>
    let outs := v.done.map (fun r => r.2.map (·.2))
    let all := outs.flatten
    let word (r : OutRec) : Nat := h.frameWord all r
    let lostRows := v.done.filter (fun r => r.2.any (fun e => word e.2 = 0x80000000))
    let fe := feBits (v.done.flatMap (fun r => r.2.map (fun e => (chDie e.1, decide (word e.2 = 0x80000000)))))
    let body := chanList v.chans ++ outs.flatMap (fun r => r.flatMap (fun o => toBytes 4 (word o)))
    let seq := h.get (Obj.stNextSeq q)
    let flags := b2n v.start + b2n short * 2 + b2n (!lostRows.isEmpty) * 4 + b2n hold * 8
    let hub := h.get Obj.hubIdActive
    let hd := frameHeader 1 flags hub q (h.quality 0) seq (time96 t0 0) v.done.length v.chans.length (h.get (Obj.stPreset q)) body.length
    let w := h.get (Obj.stUplink q)
    let p : Packet := { hub := hub, stream := q, seq := seq, last := seq, type := 1, prim := uplinkPrim w, alt := uplinkAlt w
                        cls := h.get (Obj.stPriority q), start := t0
                        span := some (v.done.length * h.rowSpan q / 65536), words := packetWords (hd ++ body) }
    let h := (h.modStream q (fun s => { s with done := [], chans := [], heads := ((seq, t0) :: s.heads).take 64 })).sendFrame q all p
    h.notePartial q seq lostRows.length ((lostRows.headD (0, [])).1) fe

/-- FRAME_SAMPLES of a RECORD stream. -/
def Hub.recordMax (h : Hub) (q : Nat) : Nat := max 1 (h.get (Obj.stFrameSamples q))

/-- The open RECORD frame of q closes with the records it holds, FRAME_SAMPLES of them at most; those that left together with the
last of them and come after it are the next frame's. (DEDUCED: log 116.) -/
def Hub.closeRecords (h : Hub) (q : Nat) (hold : Bool) : Hub :=
  let v := h.stream q
  let recs := v.recs.take (h.recordMax q)
  match recs with
  | [] => h
  | r0 :: _ =>
    let all := recs.map (·.out)
    let word (r : OutRec) : Nat := h.frameWord all r
    let lost := recs.filter (fun r => word r.out = 0x80000000)
    let fe := feBits (recs.map (fun r => (chDie r.chan, decide (word r.out = 0x80000000))))
    let body := recs.flatMap (fun r =>
      toBytes 20 (pack [(96, time96 r.out.instant 0), (12, r.chan), (2, r.kind), (18, 0), (32, word r.out)]))
    let seq := h.get (Obj.stNextSeq q)
    let flags := b2n v.start + b2n (!lost.isEmpty) * 4 + b2n hold * 8
    let hub := h.get Obj.hubIdActive
    let hd := frameHeader 2 flags hub q (h.quality 0) seq (time96 r0.out.instant 0) recs.length 0 0xFF body.length
    let w := h.get (Obj.stUplink q)
    let p : Packet := { hub := hub, stream := q, seq := seq, last := seq, type := 2, prim := uplinkPrim w, alt := uplinkAlt w
                        cls := h.get (Obj.stPriority q), start := v.lastTime, words := packetWords (hd ++ body) }
    let lastT := (recs.getLast?.getD r0).out.instant
    let h := (h.modStream q (fun s => { s with
      recs := s.recs.drop recs.length, lastTime := lastT, heads := ((seq, r0.out.instant) :: s.heads).take 64 })).sendFrame q all p
    h.notePartial q seq lost.length ((lost.head?.getD r0).out.instant) fe

/-- Every record that q holds goes into frames. -/
def Hub.closeAllRecords (h : Hub) (q : Nat) (hold : Bool) : Hub :=
  h.forEach (List.range ((h.stream q).recs.length / h.recordMax q + 1)) (fun _ h => h.closeRecords q hold)

/-- Frames that hold FRAME_SAMPLES records close once all that left with the last of them is there (R351).
(DEDUCED: log 116.) -/
def Hub.recordsFull (h : Hub) (q : Nat) : Hub :=
  match (h.stream q).recs[h.recordMax q - 1]? with
  | some r => if r.left < h.now 0 then h.closeRecords q false else h
  | none => h

/-- The RECORD frames that are full, of all streams. -/
def Hub.recordsDue (h : Hub) : Hub := h.forEach (List.range 64) (fun q h => h.recordsFull q)

/-! ### Rows and records -/

/-- The first row of q has every member's word: it joins the open frame, which closes at its boundary or where the channel
list changes (R350). -/
def Hub.rowComplete (h : Hub) (q t : Nat) (os : List (Nat × OutRec)) : Hub :=
  let span := h.rowSpan q
  let cs := os.map (·.1)
  let h := h.modStream q (fun s => { s with done := s.done ++ [(t, os)], chans := cs })
  let next := t + span
  if h.frameSpan q = 0 || next % h.frameSpan q = 0 then h.closeRow q false false
  else if h.rowMembers q next ≠ cs then h.closeRow q true false else h

/-- Outputs of a row in ascending channel order. -/
def putWord : List (Nat × OutRec) → Nat → OutRec → List (Nat × OutRec)
  | [], n, r => [(n, r)]
  | e :: es, n, r => if n < e.1 then (n, r) :: e :: es else e :: putWord es n r

/-- An output of a non-gated channel goes to its ROW stream. `g` is the grid index at which its history began. -/
def Hub.rowOutput (h : Hub) (mb : ModeBlock) (q n g : Nat) (r : OutRec) : Hub :=
  let v := h.stream q
  if !mb.streams || q > 63 || !h.streamRuns q || v.past r.instant || r.instant < v.fromInst || h.now 0 < v.fromLeave ||
      g < v.fromG then h else
  let t := r.instant
  let os := match v.rows.find? (fun e => e.1 = t) with
    | some e => putWord e.2 n r
    | none => [(n, r)]
  if os.map (·.1) = h.rowMembers q t then
    (h.modStream q (fun s => { s with rows := s.rows.filter (fun e => e.1 > t) })).rowComplete q t os
  else h.modStream q (fun s => { s with rows := s.rows.filter (fun e => e.1 ≠ t) ++ [(t, os)] })

/-- Records that leave together stand by TIME and then by channel (R351). -/
def putRecord : List RecordSt → RecordSt → List RecordSt
  | [], r => [r]
  | e :: es, r =>
    if e.left = r.left && (r.out.instant < e.out.instant || (r.out.instant = e.out.instant && r.chan < e.chan)) then r :: e :: es
    else e :: putRecord es r

/-- The stream to which the record of an instant goes: the one that the STREAM or REC_STREAM of key `k` named then (R349). -/
def Hub.recordStream (h : Hub) (k t : Nat) : Nat :=
  match h.recMoves.reverse.find? (fun e => e.1 = k && t < e.2.2) with
  | some e => e.2.1
  | none => h.get k

/-- A stream of records that a commit at `u` has changed; what changed more than 4 s before is no longer asked for. -/
def Hub.moveRecords (h old : Hub) (u k : Nat) : Hub :=
  if old.get k = h.get k then h
  else { h with recMoves := (k, old.get k, u) :: h.recMoves.filter (fun e => u < e.2.2 + 4 * uSec) }

/-- A record leaves for its RECORD stream; a frame that holds FRAME_SAMPLES records of earlier instants has closed before it. -/
def Hub.recordOutput (h : Hub) (mb : ModeBlock) (q n kind : Nat) (r : OutRec) : Hub :=
  let v := h.stream q
  if !mb.streams || q > 63 || !h.streamRuns q || v.past r.instant || r.instant < v.fromInst || h.now 0 < v.fromLeave then h else
  let now := h.now 0
  (h.recordsFull q).modStream q (fun s => { s with recs := putRecord s.recs { chan := n, kind := kind, out := r, left := now } })

/-- MAX_AGE after its first record left a RECORD frame closes (R351). -/
def execRecordFrameMaxAge (q : Fin 64) (s : State) : Host.Outcome State Fault Refusal :=
  onHubM (fun mb h =>
    match (h.stream q).recs with
    | [] => h
    | r :: _ => if mb.streams then (h.waitFor 0 (r.left + h.get (Obj.stMaxAge q) * uUs)).closeRecords q false else h) s

/-! ### Starting and stopping (R352, R60, R61, R66) -/

/-- A stream starts at `u`: its number, START, and what belongs to it. -/
def Hub.streamStart (h : Hub) (q u inst g : Nat) : Hub :=
  ((h.modStream q (fun s => { s with
    rows := [], done := [], chans := [], recs := [], start := true, fromInst := inst, fromLeave := 0, fromG := g
    partial_ := none, lastTime := u, ends := none })).put (Obj.stNextSeq q) (seqMod (u / (10 * uUs)))).put (Obj.stStatus q) 1

/-- Every enabled stream starts at the run cue `u`; outputs of the histories that begin there belong to it (R60, R352). -/
def Hub.streamsStart (h : Hub) (u : Nat) : Hub :=
  h.forEach (List.range 64) (fun q h => if h.flag (Obj.stEnable q) then h.streamStart q u 0 (u / uGrid) else h)

/-- The open frame of a stream closes; rows that lack words are not sent. (DEDUCED: log 116.) -/
def Hub.streamClose (h : Hub) (q : Nat) (hold : Bool) : Hub :=
  (((h.closeRow q true hold).closeAllRecords q hold).endPartial q).modStream q (fun s => { s with rows := [] })

/-- Every stream closes its open frame and stops (R66, Table 2.2). -/
def Hub.streamsStop (h : Hub) : Hub :=
  h.forEach (List.range 64) (fun q h =>
    if h.streamRuns q then ((h.streamClose q false).modStream q (fun s => { s with ends := none })).put (Obj.stStatus q) 0 else h)

/-- HOLD: every stream closes its frame and keeps its count (R61, R350). (DEDUCED: log 116.) -/
def Hub.streamsHold (h : Hub) : Hub :=
  h.forEach (List.range 64) (fun q h => if h.streamRuns q then h.streamClose q true else h)

/-- Streams resume after HOLD with the first row whose output leaves at or after `u`. -/
def Hub.streamsResume (h : Hub) (u : Nat) : Hub :=
  h.forEach (List.range 64) (fun q h => if h.streamRuns q then h.modStream q (fun s => { s with fromLeave := u }) else h)

/-- A channel whose STREAM a commit has changed without a reset moves at the cue point (R349). (DEDUCED: log 148.) -/
def Hub.moveStream (h old : Hub) (u n : Nat) : Hub :=
  let a := old.get (Obj.chStream n)
  let b := h.get (Obj.chStream n)
  if a = b then h else
  h.modChain n (fun v => { v with ctxs := match v.ctxs.getLast? with
    | some c =>
      if c.stream = b then v.ctxs else v.ctxs.dropLast ++ [{ c with
        stream := b, moves := c.moves.filter (fun e => u < e.2 + 4 * uSec) ++ [(a, u)] }]
    | none => v.ctxs })

/-- A stream after a commit at `u` in a mode that transmits: enabled, disabled or altered (R352). What it has still to carry of
instants before `u` belongs to a disabled stream all the same (R349). -/
def Hub.streamCommit (h old : Hub) (mb : ModeBlock) (u q : Nat) : Hub :=
  let was := old.flag (Obj.stEnable q)
  let on := h.flag (Obj.stEnable q)
  if was && !on then if h.streamRuns q then (h.modStream q (fun s => { s with ends := some u })).put (Obj.stStatus q) 0 else h
  else if !was && on then if mb.streams || mb.mode = .hold then h.streamStart q u u 0 else h
  else h

/-- A stream whose layout a commit changes closes its open frame under the old one. -/
def Hub.streamLayout (h new : Hub) (q : Nat) : Hub :=
  if h.streamRuns q && [Obj.stKind q, Obj.stPreset q, Obj.stFrameSamples q].any (fun k => h.get k ≠ new.get k)
  then h.streamClose q false else h

end Sys2Proof.Machine
end

