-- ==== Sys2Proof/Machine/Forward.lean ====
section
/-! DEFINITION. Frames received from below: checks, duplicate discard, forwarding, policing, gaps in forwarded streams and
unpacked channels (R363 to R367, R387, R401). -/
namespace Sys2Proof.Machine

/-- The number whose 32-bit words are given, the first lowest. -/
def wordsNat (l : List Nat) : Nat := l.foldr (fun w n => w % 2 ^ 32 + 2 ^ 32 * n) 0

/-- The header fields of a received packet that its handling uses (Table 12.4). -/
structure RxHead where
  type : Nat
  flags : Nat
  hub : Nat
  stream : Nat
  seq : Nat
  first : Nat
  count : Nat
  chans : Nat
  preset : Nat
  length : Nat
deriving DecidableEq, Repr

/-- The header of a packet. -/
def rxHead (words : List Nat) : RxHead :=
  let n := wordsNat (words.take 8)
  { type := field n 0 8, flags := field n 8 8, hub := field n 16 16, stream := field n 32 8, seq := field n 48 48
    first := field n 96 96, count := field n 192 16, chans := field n 208 16, preset := field n 224 8, length := field n 240 16 }

/-- Length and check word are right, in this order (R401). -/
def rxOk (words : List Nat) : Bool :=
  words.length ≥ 9 && (rxHead words).length = words.length &&
    words.getLast? = some (crc32 (words.dropLast.flatMap (toBytes 4)))

/-- A packet without an entry is discarded, and logged once per key per 60 s (R365). (DEDUCED: log 118.) -/
def Hub.undeclaredRx (h : Hub) (l hub stream : Nat) : Hub :=
  let h := h.bump Obj.fwdUndeclared
  let now := h.time.ticks
  match h.undeclared.find? (fun e => e.1 = hub && e.2.1 = stream) with
  | some e =>
    if now < e.2.2 + 60 * tSec then h
    else ({ h with undeclared := h.undeclared.map (fun (o : Nat × Nat × Nat) => if o.1 = hub && o.2.1 = stream then (hub, stream, now) else o) }).log
      0x0C03 1 srcPkg (hub + stream * 65536 + lanePort l * 2 ^ 24)
  | none => ({ h with undeclared := h.undeclared ++ [(hub, stream, now)] }).log
      0x0C03 1 srcPkg (hub + stream * 65536 + lanePort l * 2 ^ 24)

/-- The body of a packet as a number of bytes. -/
def rxBody (words : List Nat) : List Nat := (words.drop 8).dropLast.flatMap (toBytes 4)

/-- A record of a RECORD body: TIME, CHANNEL and WORD (Table 12.5). -/
def rxRecords (hd : RxHead) (words : List Nat) : List (Nat × Nat × Nat) :=
  ((chunks 20 hd.count (rxBody words)).take hd.count).map (fun b =>
    let n := ofBytes b
    (field n 0 96, field n 96 12, field n 128 32))

/-- The rows of a ROW body: each word's channel, instant in 2⁻¹⁶ ns and value (R356). -/
def rxRows (hd : RxHead) (words : List Nat) : List (Nat × Nat × Nat) :=
  let body := rxBody words
  let pad := ceilDiv (2 * hd.chans) 4 * 4
  let cs := ((chunks 2 (pad / 2) (body.take pad)).take hd.chans).map ofBytes
  let ws := (chunks 4 (hd.count * hd.chans) (body.drop pad)).map ofBytes
  (List.range hd.count).flatMap (fun r => (List.range hd.chans).map (fun i =>
    (cs.getD i 0, uOfTime96 hd.first + r * presetRaw hd.preset * uGrid, ws.getD (r * hd.chans + i) 0)))

/-- The instant after the last sample of a frame: the next row, or the TIME of the last record (R360). -/
def rxEnd (hd : RxHead) (words : List Nat) : Nat :=
  if hd.type = 1 then uOfTime96 hd.first + hd.count * presetRaw hd.preset * uGrid
  else if hd.type = 2 then match (rxRecords hd words).getLast? with
    | some r => uOfTime96 r.1
    | none => uOfTime96 hd.first
  else uOfTime96 hd.first

/-- The ports and class of an entry on a packet, its words as stored. (DEDUCED: log 120.) -/
def Hub.fwdPacket (h : Hub) (j : Nat) (hd : RxHead) (words : List Nat) (last cause start : Nat) (span : Option Nat) : Packet :=
  let w := h.get (Obj.fwdUplink j)
  { hub := hd.hub, stream := hd.stream, seq := hd.seq, last := last, type := hd.type, prim := uplinkPrim w, alt := uplinkAlt w
    cls := h.get (Obj.fwdPriority j), cause := cause, start := start, span := span
    words := words.dropLast.map (fun w => storedWord w false) ++ [storedWord (words.getLastD 0) true] }

/-! ### Policing (R365) -/

/-- The budget of hub die x after its fill. -/
def Hub.budget (h : Hub) (j x : Nat) : Nat :=
  let v := h.fwd j
  let b := if x = 0 then v.budget0 else v.budget1
  let t := if x = 0 then v.at0 else v.at1
  min 1000000000 (b + h.get (Obj.fwdFrameRate j) * (h.time.ticks - t))

/-- The budget is set. -/
def Hub.setBudget (h : Hub) (j x b : Nat) : Hub :=
  let now := h.time.ticks
  h.modFwd j (fun v => if x = 0 then { v with budget0 := b, at0 := now } else { v with budget1 := b, at1 := now })

/-! ### Open numbers (R366) -/

/-- A range of numbers less those from `c.lo` to `c.hi`: what is left on either side ends or begins at the samples of what has come
between. -/
def cutRange (c r : NumRange) : List NumRange :=
  let right := if seqIn c.hi r.lo r.hi && c.hi ≠ r.hi then [{ r with lo := (c.hi + 1) % 2 ^ 48, start := c.fin }] else []
  if seqIn c.lo r.lo r.hi then (if c.lo = r.lo then [] else [{ r with hi := (c.lo + 2 ^ 48 - 1) % 2 ^ 48, fin := c.start }]) ++ right
  else if seqIn r.lo c.lo c.hi then right else [r]

/-- Numbers have been accepted, or a gap record covers them: they are open no longer. -/
def OpenRange.close (o : OpenRange) (c : NumRange) : OpenRange := { o with nums := o.nums.flatMap (cutRange c) }

/-- The OPEN_NUMBERS bit of an entry follows its open ranges; ranges with nothing left go. -/
def Hub.tidyOpens (h : Hub) (j : Nat) : Hub :=
  let h := h.modFwd j (fun v => { v with opens := v.opens.filter (fun o => !o.nums.isEmpty) })
  h.putBit (Obj.fwdStatus j) 1 (!(h.fwd j).opens.isEmpty)

/-- The numbers between H and a number that comes next become open. -/
def Hub.skipped (h : Hub) (j next first : Nat) (start : Bool) : List OpenRange :=
  let v := h.fwd j
  let from_ := (h.get (Obj.fwdH j) + 1) % 2 ^ 48
  let r : NumRange := { lo := from_, hi := (next + 2 ^ 48 - 1) % 2 ^ 48, start := v.lastEnd, fin := first }
  if seqAfter next from_ then
    [{ nums := [r], whole := r, due := h.time.ticks + h.get (Obj.fwdFwdTimeout j) * tMs, cause := if start then 5 else 4 }]
  else []

/-- An entry accepts a number: what it skips becomes open, H rises. A START that begins anew below H leaves what is open open. -/
def Hub.fwdAccept (h : Hub) (j : Nat) (hd : RxHead) (endAt : Nat) : Hub :=
  let hi := h.get (Obj.fwdH j)
  let start := bitOf hd.flags 0
  let first := uOfTime96 hd.first
  if !(h.fwd j).known then (h.modFwd j (fun v => { v with known := true, lastEnd := first })).put (Obj.fwdH j) hd.seq
  else if seqAfter hd.seq hi then
    let gap := h.skipped j hd.seq first start
    ((h.modFwd j (fun v => { v with opens := v.opens ++ gap })).put (Obj.fwdH j) hd.seq).tidyOpens j
  else if start && seqStale hd.seq hi then (h.modFwd j (fun v => { v with lastEnd := first })).put (Obj.fwdH j) hd.seq
  else
    let c : NumRange := { lo := hd.seq, hi := hd.seq, start := first, fin := endAt }
    (h.modFwd j (fun v => { v with opens := v.opens.map (·.close c) })).tidyOpens j

/-- The gap records of an open range: what is left of it, or after a START all of it in one OPEN record (R366). -/
def Hub.openGaps (h : Hub) (j : Nat) (o : OpenRange) : List GapRec :=
  let w := h.get (Obj.fwdUplink j)
  let ranges := if o.cause = 5 then [o.whole] else o.nums
  ranges.map (fun r => { hub := h.get (Obj.fwdSrcHub j), stream := h.get (Obj.fwdSrcStream j), seq := r.lo, last := r.hi,
                         cause := o.cause, kind := if o.cause = 5 then 2 else 0, start := r.start, span := (r.fin - r.start) / 65536,
                         prim := uplinkPrim w, alt := uplinkAlt w, cls := h.get (Obj.fwdPriority j) })

/-- Forwarded descriptors of an entry that are unpacked, with their source channel. (DEDUCED: log 121.) -/
def Hub.unpacked (h : Hub) (j hub : Nat) : List (Nat × Nat) :=
  ((List.range 3568).map (· + 528)).filterMap (fun n =>
    if h.get (Obj.chSrcHub n) = hub && h.get (Obj.chFwdEntry n) = j && h.flag (Obj.chUnpack n)
    then some (n, h.get (Obj.chSrcChannel n)) else none)

/-- A gap record has replaced forwarded outputs of an entry: the detectors on its unpacked channels miss them (R164). -/
def Hub.lostForward (h : Hub) (j at_ : Nat) : Hub :=
  let due := h.now 0
  let chans := (h.unpacked j (h.get (Obj.fwdSrcHub j))).map (·.1)
  h.forEach (List.range 64) (fun d h =>
    if h.get (Obj.detType d) ≠ 0 && chans.contains (h.get (Obj.detSource d)) then
      h.modDet d (fun v => { v with inbox := v.inbox ++ [(due, { instant := at_, word := 0x80000000, lost0 := true, lost1 := true }, false)] })
    else h)

/-- After the dies have exchanged their lost ranges the gap records are issued (R362); those of forwarded streams replace outputs that
detectors wait for (R164). -/
def execGapRecordIssue (s : State) : Host.Outcome State Fault Refusal :=
  onHubM (fun mb h =>
    if !mb.up then h else
    let h := h.exchangeLost
    let gs := h.gaps
    ({ h with gaps := [] }).forEach gs (fun g h =>
      let h := h.issueGap g
      match h.entryOf g.hub g.stream with
      | some j => if g.cause ≥ 4 then h.lostForward j g.start else h
      | none => h)) s

/-- Open numbers have stayed unaccepted for FWD_TIMEOUT: their gap records are issued. -/
def execFwdTimeout (j : Fin 128) (s : State) : Host.Outcome State Fault Refusal :=
  onHubM (fun mb h =>
    if !mb.up then h else
    match (h.fwd j).opens with
    | [] => h
    | o :: rest =>
      let h := h.waitTick o.due
      let gs := h.openGaps j o
      ((h.modFwd j (fun v => { v with opens := rest })).forEach gs (fun g h => (h.issueGap g).lostForward j g.start)).tidyOpens j) s

/-- An entry has received nothing for FWD_TIMEOUT: SILENT, once. -/
def execFwdStreamSilent (j : Fin 128) (s : State) : Host.Outcome State Fault Refusal :=
  onHubM (fun mb h =>
    if !mb.up || !h.flag (Obj.fwdEnable j) || h.bit (Obj.fwdStatus j) 0 then h else
    let h := h.waitTick ((h.fwd j).lastRx + h.get (Obj.fwdFwdTimeout j) * tMs)
    (h.putBit (Obj.fwdStatus j) 0 true).log 0x0C04 1 srcPkg (j + h.get (Obj.fwdSrcHub j) * 65536)) s

/-! ### Unpacked channels (R367) -/

/-- A forwarded sample reaches the detectors, its arrival being the update instant. (DEDUCED: log 121.) -/
def Hub.forwardedSample (h : Hub) (n : Nat) (r : OutRec) : Hub :=
  let due := h.now 0
  let h := { h with outs := putOut h.outs n r }
  h.forEach (List.range 64) (fun d h =>
    if h.get (Obj.detType d) ≠ 0 && h.get (Obj.detSource d) = n then
      h.modDet d (fun v => { v with inbox := v.inbox ++ [(due, r, false)] })
    else h)

/-- The samples of an accepted frame. (DEDUCED: log 121.) -/
def Hub.unpackFrame (h : Hub) (j : Nat) (hd : RxHead) (words : List Nat) : Hub :=
  let chans := h.unpacked j hd.hub
  if chans.isEmpty || hd.type > 2 then h else
  let samples : List (Nat × Nat × Nat) := if hd.type = 1 then rxRows hd words
    else (rxRecords hd words).map (fun r => (r.2.1, uOfTime96 r.1, r.2.2))
  h.forEach samples (fun s h =>
    h.forEach (chans.filter (fun c => c.2 = s.1)) (fun c h =>
      let lost := decide (s.2.2 = 0x80000000)
      h.forwardedSample c.1 { instant := s.2.1, word := s.2.2, lost0 := lost, lost1 := lost }))

/-- The samples of a frame that hub die x accepts reach the items of its mirror memory (R463). -/
def Hub.mirrorFrame (h : Hub) (x j : Nat) (hd : RxHead) (words : List Nat) : Hub :=
  let chans := h.unpacked j hd.hub
  if chans.isEmpty || hd.type > 2 then h else
  let samples : List (Nat × Nat × Nat) := if hd.type = 1 then rxRows hd words
    else (rxRecords hd words).map (fun r => (r.2.1, uOfTime96 r.1, r.2.2))
  h.forEach samples (fun s h =>
    h.forEach (chans.filter (fun c => c.2 = s.1)) (fun c h =>
      let lost := decide (s.2.2 = 0x80000000)
      h.mirrorFwd x c.1 { instant := s.2.1, word := s.2.2, lost0 := lost, lost1 := lost }))

/-! ### Reception -/

/-- A frame of a declared stream on hub die x. (DEDUCED: log 120.) -/
def Hub.forwardFrame (h : Hub) (x j : Nat) (hd : RxHead) (words : List Nat) : Hub :=
  let now := h.time.ticks
  let h := (h.modFwd j (fun v => { v with lastRx := now })).putBit (Obj.fwdStatus j) 0 false
  let other := h.seenNum (peerOf x) hd.hub hd.stream hd.seq
  let r := h.dedup x hd.hub hd.stream false (bitOf hd.flags 0) hd.seq (words.getLastD 0)
  let h := r.2
  if !r.1 then h else
  let endAt := rxEnd hd words
  let first := uOfTime96 hd.first
  let from_ := if (h.fwd j).known && seqAfter hd.seq (h.get (Obj.fwdH j)) && hd.type ≠ 4 then (h.fwd j).lastEnd else first
  let h := h.fwdAccept j hd endAt
  let p := h.fwdPacket j hd words hd.seq 0 from_ (if hd.type = 2 then none else some ((endAt - from_) / 65536))
  if 4 * words.length > h.get (Obj.fwdMaxFrameBytes j) then (h.bump (Obj.fwdDiscarded j)).lose x 6 p
  else
    let b := h.budget j x
    if b < tSec then ((h.setBudget j x b).bump (Obj.fwdDiscarded j)).lose x 7 p
    else
      let h := h.modFwd j (fun v => { v with
        lastEnd := if hd.seq = h.get (Obj.fwdH j) then endAt else v.lastEnd, heads := ((hd.seq, first) :: v.heads).take 64 })
      let h := h.mirrorFrame x j hd words
      let taken := other && !h.lost.any (fun r => r.die ≠ x && r.packet.hub = hd.hub && r.packet.stream = hd.stream && r.packet.seq = hd.seq)
      let h := if taken then h else h.unpackFrame j hd words
      ((h.setBudget j x (b - tSec)).bump (Obj.fwdForwarded j)).enqueue x p

/-- Every number from `lo` to `hi` has been accepted as data. -/
def Hub.allSeen (h : Hub) (x hub stream lo hi : Nat) : Bool :=
  let n := (hi + 2 ^ 48 - lo) % 2 ^ 48 + 1
  n ≤ 1024 && (List.range n).all (fun i => h.seenNum x hub stream ((lo + i) % 2 ^ 48))

/-- A gap record of a declared stream on hub die x (R363). (DEDUCED: log 119.) -/
def Hub.forwardGap (h : Hub) (x j : Nat) (hd : RxHead) (words : List Nat) : Hub :=
  let now := h.time.ticks
  let h := (h.modFwd j (fun v => { v with lastRx := now })).putBit (Obj.fwdStatus j) 0 false
  let other := h.seenNum (peerOf x) hd.hub hd.stream hd.seq
  let r := h.dedup x hd.hub hd.stream true false hd.seq (words.getLastD 0)
  let h := r.2
  if !r.1 then h else
  let n := wordsNat ((words.drop 8).take 8)
  let last := field n 0 48
  let kind := field n 56 2
  let first := uOfTime96 hd.first
  let endAt := first + field n 64 64 * 65536
  let had := h.allSeen x hd.hub hd.stream hd.seq last
  let h := if kind = 1 then h else
    let h := if h.superseded x hd.hub hd.stream hd.seq last then h.bump Obj.gapSuperseded else h
    let h := h.markWin x hd.hub hd.stream hd.seq last
    let hi := h.get (Obj.fwdH j)
    let known := (h.fwd j).known
    let gap := if known && seqAfter hd.seq hi then h.skipped j hd.seq first false else []
    let h := if !known || seqAfter last hi then
        (h.modFwd j (fun v => { v with known := true, lastEnd := endAt })).put (Obj.fwdH j) last else h
    (h.modFwd j (fun v => { v with opens := v.opens.map (·.close { lo := hd.seq, hi := last, start := first, fin := endAt }) ++ gap })).tidyOpens j
  let h := if kind = 1 || other || had then h else h.lostForward j first
  h.enqueue x (h.fwdPacket j hd words last (field n 48 8) first (some (field n 64 64)))

/-- A packet arrives whole on a native lane. (DEDUCED: log 118.) -/
def Hub.packetRx (h : Hub) (mb : ModeBlock) (l : Nat) (words : List Nat) (aborted : Bool) : Hub :=
  if !mb.up || !h.laneNative l then h
  else if aborted then h.bump (Obj.laneAbortsRx l)
  else if !rxOk words then h.bump (Obj.laneFrameCheckErrors l)
  else
    let h := h.bump (Obj.laneFramesRx l)
    if laneUp l then h.bump (Obj.laneUplinkRxDiscarded l)
    else
      let hd := rxHead words
      match h.entryOf hd.hub hd.stream with
      | none => h.undeclaredRx l hd.hub hd.stream
      | some j => if hd.type = 3 then h.forwardGap (laneDie l) j hd words else h.forwardFrame (laneDie l) j hd words

/-- A frame is received, or ends by the aborted-packet mark. (DEDUCED: log 118.) -/
def execFrameRx (l : Fin 16) (dt : Nat) (words : List Nat) (aborted : Bool) (s : State) : Host.Outcome State Fault Refusal :=
  onHubM (fun mb h => (h.waitTicks dt).packetRx mb l words aborted) s

/-- A gap record is received. -/
def execGapRecordRx (l : Fin 16) (dt : Nat) (words : List Nat) (s : State) : Host.Outcome State Fault Refusal :=
  onHubM (fun mb h => (h.waitTicks dt).packetRx mb l words false) s

/-- A forward entry after a commit: one newly enabled, or with a new key, begins anew but for the log of its gaps, which R386 limits
by time alone. -/
def Hub.fwdCommit (h old : Hub) (j : Nat) : Hub :=
  let now := h.time.ticks
  let key := [Obj.fwdSrcHub j, Obj.fwdSrcStream j].any (fun k => h.get k ≠ old.get k)
  if h.flag (Obj.fwdEnable j) && (!old.flag (Obj.fwdEnable j) || key) then
    ((h.modFwd j (fun v => { at0 := now, at1 := now, lastRx := now, gapLog := v.gapLog })).put (Obj.fwdStatus j) 0).put (Obj.fwdH j) 0
  else h

end Sys2Proof.Machine
end

