-- ==== Sys2Proof/Machine/TimeTransfer.lean ====
section
/-! DEFINITION. Native time transfer: the three messages, the offset of an exchange, its failure and the choice of the
uplink (R211 to R215). -/
namespace Sys2Proof.Machine

/-- The next master instant of TT_SYNC on downlink x × 4 + p after now: k × 125 ms + (4x + p) × 1 ms, or
k × 15.625 ms + (4x + p) × 0.5 ms while the slave reports ACQUIRING or UNSET (Table 7.6). (DESIGN CHOICE: log 83.) -/
def Hub.ttInstant (h : Hub) (u : Nat) : Nat :=
  let fast := (vget h.time.ports (dnLane u)).slaveState ≥ 3
  let per := if fast then 15625 * uUs else 125 * uMs
  let off := if fast then u * (500 * uUs) else u * uMs
  let now := h.now 0
  if now < off then off else off + ((now - off) / per + 1) * per

/-- TT_SYNC leaves a master port: stamped t1 at its first block boundary at or after its instant. -/
def execTtSyncSend (u : Fin 8) (dt : Nat) (f : Fin 512) (s : State) : Host.Outcome State Fault Refusal :=
  onHub (fun _ h =>
    let l := dnLane u
    if !h.laneTalks l || !h.timeRole (laneDie l) then h else
    let h := (h.waitFor 0 (h.ttInstant u)).waitTicks dt
    let seq := ((vget h.time.ports l).seq + 1) % 65536
    let t := h.edgeStamp 0 f
    let d : Int := (h.edgeStamp 1 f : Int) - t
    (h.modTt l (fun p => { p with seq := seq, t1 := some t, t4 := none, siteAt := d, left := false })).sendTimed l 0x01 (toBytes 2 seq)) s

/-- TT_SYNC reaches a slave port: stamped t2. -/
def execTtSyncReceive (u : Fin 8) (dt : Nat) (f : Fin 512) (seq : Fin 65536) (crc : Bool) (s : State) :
    Host.Outcome State Fault Refusal :=
  onHub (fun _ h =>
    let l := upPort u
    let h := h.waitTicks dt
    if !h.laneNative l then h else
    h.onMessage l crc (fun h =>
      let t := h.edgeStamp 0 f
      h.modTt l (fun p => { p with seq := seq, t2 := some t, t3 := none, t1 := none, t4 := none, left := false }))) s

/-- TT_DELAY leaves a slave port at the first block boundary at least 100 µs after t2: stamped t3, it carries the slave's
ARRAY state. -/
def execTtDelaySend (u : Fin 8) (dt : Nat) (f : Fin 512) (s : State) : Host.Outcome State Fault Refusal :=
  onHub (fun _ h =>
    let l := upPort u
    match (vget h.time.ports l).t2 with
    | none => h
    | some t2 =>
      if !h.laneTalks l || !(h.timeRole (laneDie l) || h.role (laneDie l) = 5) || (vget h.time.ports l).t3.isSome then h else
      let h := (h.waitFor 0 (t2 + 100 * uUs)).waitTicks dt
      let t := h.edgeStamp 0 f
      (h.modTt l (fun p => { p with t3 := some t })).sendTimed l 0x02
        (toBytes 2 (vget h.time.ports l).seq ++ [h.get (Obj.tbState 0)])) s

/-- TT_DELAY reaches a master port: stamped t4 when it answers the port's TT_SYNC. -/
def execTtDelayReceive (u : Fin 8) (dt : Nat) (f : Fin 512) (seq : Fin 65536) (slaveState : Fin 6) (crc : Bool) (s : State) :
    Host.Outcome State Fault Refusal :=
  onHub (fun _ h =>
    let l := dnLane u
    let h := h.waitTicks dt
    if !h.laneNative l then h else
    h.onMessage l crc (fun h =>
      let t := h.edgeStamp 0 f
      h.modTt l (fun p =>
        { p with slaveState := slaveState, t4 := if p.t1.isSome && p.seq = seq then some t else p.t4 }))) s

/-- The hub's level: 1 at a root, the master's level plus 1 below (R215). -/
def Hub.level (h : Hub) : Nat :=
  if h.uplinkSource 0 then
    match h.sourcePort 0 with
    | some u => h.get (Obj.portPeerLevel (upPort u)) + 1
    | none => 1
  else 1

/-- TT_FOLLOW leaves a master port within 1 ms after t4, with the content of Table 7.6. -/
def execTtFollowSend (u : Fin 8) (s : State) : Host.Outcome State Fault Refusal :=
  onHub (fun _ h =>
    let l := dnLane u
    let p := vget h.time.ports l
    if !h.timeRole (laneDie l) then h else
    match p.t1, p.t4 with
    | some t1, some t4 =>
      let bytes := toBytes 2 p.seq ++ toBytes 12 (time96 t1 0) ++ toBytes 12 (time96 t4 0) ++ toBytes 6 (h.incr 0) ++
        toBytes 8 (ofSigned 64 p.siteAt) ++ [h.quality 0 + h.quality 1 * 8] ++ [h.level] ++
        toBytes 2 (h.get Obj.hubIdActive)
      (h.sendMsg l 0x03 bytes).modTt l (fun p => { p with t1 := none, t4 := none })
    | _, _ => h) s

/-- The uplinks that offer base `b` a better quality than the selected one, each with the tick since which it does so without a break
(R215). -/
def Hub.noteBetter (h : Hub) (b : Nat) : Hub :=
  match (h.servo b).port with
  | some u =>
    let q (v : Nat) : Nat := h.get (Obj.portPeerQuality (upPort v))
    let now := h.time.ticks
    h.modServo b (fun s => { s with
      better := ((List.range 8).filter (fun v => h.eligible v && decide (q v < q u))).map (fun v =>
        (v, ((s.better.find? (fun e => e.1 = v)).map (·.2)).getD now)) })
  | none => h

/-- An exchange has failed: it is counted, and logged at a port's first failure and afterwards at most once per 60 s
(R213). -/
def Hub.ttFail (h : Hub) (l cause : Nat) : Hub :=
  let h := h.bump (Obj.portExchangesFailed l)
  let now := h.time.ticks
  let due := match (vget h.time.ports l).lastLog with
    | some t => decide (now ≥ t + 60 * tSec)
    | none => true
  let h := h.modTt l (fun p =>
    { p with t2 := none, t3 := none, lastValid := false, failedInRow := p.failedInRow + 1
             lastLog := if due then some now else p.lastLog })
  let h := (h.noteBetter 0).noteBetter 1
  if due then h.log 0x0706 1 srcPkg (l + cause * 16 + h.get (Obj.portExchangesFailed l) * 65536) else h

/-- The lane of a port leaves ACTIVE: an exchange in progress there has failed (R213). -/
def Hub.ttLeft (h : Hub) (l : Nat) : Hub :=
  let h := if (vget h.time.ports l).t2.isSome then h.ttFail l 2 else h
  ((h.modTt l (fun p => { p with t1 := none, t4 := none, left := true })).noteBetter 0).noteBetter 1

/-- The offset and the link delay of an exchange (R212), in units of 2⁻¹⁷ ns / 1000. -/
def ttTheta2 (t1 t2 t3 t4 txM rxM txS rxS asym : Int) : Int × Int :=
  let u (t ps : Int) : Int := t * 1000 + ps * 65536
  let a := u t2 (-rxS) - u t1 txM
  let b := u t4 (-rxM) - u t3 txS
  (a - b - asym * 65536, a + b)

/-- LINK_DELAY differs from the mean of the last 16 valid values by more than 100 ps, with at least 8 valid exchanges held
(R213). -/
def ttOutlier (p : TtPort) (delay : Int) : Bool :=
  p.valid ≥ 8 && p.delays.length > 0 &&
    ((delay * p.delays.length - sumInt p.delays).natAbs * 1000 > 100 * 65536 * p.delays.length)

/-- A valid exchange of uplink `u`: the port's objects, and a measurement for each base whose source it is while it is eligible. SITE
follows the master's SITE as the master's ARRAY plus the SITE − ARRAY of TT_FOLLOW (R216). -/
def Hub.ttValid (h : Hub) (u : Nat) (theta delay : Int) (m : TtFollow) : Hub :=
  let l := upPort u
  let h := ((h.putI 64 (Obj.portLinkDelay l) delay).putI 64 (Obj.portOffset l) theta).bump (Obj.portExchanges l)
  let h := h.modTt l (fun p => { p with
    delays := (delay :: p.delays).take 16, valid := p.valid + 1, lastValid := true, failedInRow := 0
    masterIncr := m.increment, masterSiteMinusArray := m.siteMinusArray, siteQuality := m.siteQuality
    t2 := none, t3 := none })
  let h := if h.uplinkSource 0 && h.sourcePort 0 = some u && h.eligible u then
    h.modServo 0 (fun v => { v with meas := some theta }) else h
  if h.uplinkSource 1 && h.sourcePort 1 = some u && h.eligible u then
    let own := h.siteMinusArray
    h.modServo 1 (fun v => { v with meas := some (own + theta - m.siteMinusArray) }) else h

/-- The best eligible uplink: best master's ARRAY quality, then lowest level, then lowest number (R215). -/
def Hub.bestUplink (h : Hub) : Option Nat :=
  (List.range 8).foldl (fun best u =>
    if !h.eligible u then best else
    match best with
    | none => some u
    | some v =>
      let q := h.get (Obj.portPeerQuality (upPort u))
      let r := h.get (Obj.portPeerQuality (upPort v))
      let lq := h.get (Obj.portPeerLevel (upPort u))
      let lr := h.get (Obj.portPeerLevel (upPort v))
      if q < r || (q = r && lq < lr) then some u else some v) none

/-- A change of the selected uplink is logged as TIME_SOURCE_CHANGE with its ports as x × 8 + q (R215, R230); a first selection
names the port twice. (DESIGN CHOICE: log 186.) -/
def Hub.selectUplink (h : Hub) (b : Nat) (old new : Nat) : Hub :=
  ((h.modServo b (fun s => { s with port := some new, better := [] })).refreshQuality b).log 0x0704 0 srcPkg
    (b + h.get (Obj.tbSource b) * 16 + upPort old * 256 + upPort new * 65536 + b2n (h.flag Obj.refclkInValid) * 2 ^ 24)

/-- An exchange has been checked: the first eligible uplink is selected, and the others that offer a better quality are noted
(R215). -/
def Hub.watchUplinks (h : Hub) (b : Nat) : Hub :=
  if h.get (Obj.tbSource b) ≠ 1 then h else
  match (h.servo b).port, h.bestUplink with
  | none, some v => h.selectUplink b v v
  | _, _ => h.noteBetter b

/-- QUALITY of both bases follows what the upstream hub reports (R205). -/
def Hub.refreshBoth (h : Hub) : Hub := (h.refreshQuality 0).refreshQuality 1

/-- TT_FOLLOW reaches a slave port: the exchange is checked, and θ and LINK_DELAY follow from its four stamps (R212,
R213). A master at level 4 or more is logged once for the port (R215). (DESIGN CHOICE: log 82.) -/
def execTtFollowReceive (u : Fin 8) (dt : Nat) (m : TtFollow) (crc : Bool) (s : State) : Host.Outcome State Fault Refusal :=
  onHub (fun _ h =>
    let l := upPort u
    let h := h.waitTicks dt
    if !h.laneNative l then h else
    h.onMessage l crc (fun h => Hub.refreshBoth <|
      let h := (((h.put (Obj.portPeerLevel l) m.level).put (Obj.portPeerQuality l) m.arrayQuality).put
        (Obj.portPeerHubId l) m.hub)
      let h := if m.level ≥ 4 && !(vget h.time.ports l).levelLogged then
          (h.modTt l (fun p => { p with levelLogged := true })).log 0x0709 2 srcPkg (l + m.level * 256)
        else h
      let p := vget h.time.ports l
      match p.t2, p.t3 with
      | some t2, some t3 =>
        if h.now 0 > t3 + 10 * uMs then h.ttFail l 0
        else if m.seq ≠ p.seq then h.ttFail l 1
        else if p.left then h.ttFail l 2
        else
          let r := ttTheta2 m.t1 t2 t3 m.t4 m.masterTx m.masterRx (h.get (Obj.portTxLatency l)) (h.get (Obj.portRxLatency l))
            (h.getI 32 (Obj.portLinkAsym l))
          let a := h.divOpen r.1 2000
          let d := a.2.divOpen r.2 2000
          let h := d.2
          if ttOutlier p d.1 then h.ttFail l 3
          else ((h.ttValid u a.1 d.1 m).watchUplinks 0).watchUplinks 1
      | _, _ => h)) s

/-- No TT_FOLLOW within 10 ms after t3 (R213). -/
def execTtExchangeFailed (u : Fin 8) (s : State) : Host.Outcome State Fault Refusal :=
  onHub (fun _ h =>
    let l := upPort u
    match (vget h.time.ports l).t3 with
    | some t3 => (h.waitFor 0 (t3 + 10 * uMs)).ttFail l 0
    | none => h) s

/-- The intervals of 125 ms over which a port's frequency ratio is averaged: SERVO_TC of the base that follows the port, ARRAY's
where none does. (DESIGN CHOICE: log 187.) -/
def Hub.ratioSpan (h : Hub) (u : Nat) : Nat :=
  let b := if h.uplinkSource 1 && h.sourcePort 1 = some u && !(h.uplinkSource 0 && h.sourcePort 0 = some u) then 1 else 0
  8 * h.get (Obj.tbServoTc b)

/-- The ratio ρ − 1 of the master's crystal to the own, in 10⁻¹², measured over 125 ms; FREQ_RATIO is its mean over SERVO_TC
(R214). -/
def execFreqRatioMeasure (u : Fin 8) (ratio : Int) (s : State) : Host.Outcome State Fault Refusal :=
  onHub (fun _ h =>
    let l := upPort u
    if !h.laneNative l then h else
    let n := h.ratioSpan u
    let h := (h.waitTicks (125 * tMs)).modTt l (fun p => { p with ratios := (ratio :: p.ratios).take n })
    let r := (vget h.time.ports l).ratios
    let m := h.divOpen (sumInt r) r.length
    m.2.putI 32 (Obj.portFreqRatio l) m.1) s

/-- UPLINK_AUTO of ARRAY (0) or SITE (1) changes its selection: the selected port is no longer eligible, or another has
offered a better quality for 10 s without a break (R215). -/
def execUplinkSourceReselect (b : Fin 2) (s : State) : Host.Outcome State Fault Refusal :=
  onHub (fun m h =>
    if !servoRuns m || h.get (Obj.tbSource b) ≠ 1 then h else
    let old := (h.servo b).port
    let lost := match old with
      | some u => !h.eligible u
      | none => true
    let h := h.noteBetter b
    let since := (h.servo b).better.map (·.2)
    let h := match since with
      | [] => h
      | t :: ts => if lost then h else h.waitTick (ts.foldl min t + 10 * tSec)
    let due := lost || !since.isEmpty
    match h.bestUplink with
    | some v => if due && old ≠ some v then h.selectUplink b (old.getD v) v else h
    | none => h) s

end Sys2Proof.Machine
end

