-- ==== Sys2Proof/Machine/Ptp.lean ====
section
/-! DEFINITION. The PTP client on the uplink that a base with SOURCE PTP names (R210, R415). -/
namespace Sys2Proof.Machine

/-- The uplink the client runs on: SOURCE_PORT of the base whose SOURCE is PTP. (DEDUCED: log 87.) -/
def Hub.ptpPort (h : Hub) : Option Nat :=
  if h.get (Obj.tbSource 0) = 4 then some (h.get (Obj.tbSourcePort 0))
  else if h.get (Obj.tbSource 1) = 4 then some (h.get (Obj.tbSourcePort 1)) else none

/-- The base that the client disciplines first, and whose stamps it takes. -/
def Hub.ptpBase (h : Hub) : Nat := if h.get (Obj.tbSource 0) = 4 then 0 else 1

/-- The hub with the client changed. -/
def Hub.modPtp (h : Hub) (f : PtpSt → PtpSt) : Hub := { h with time := { h.time with ptp := f h.time.ptp } }

/-- PTP_STATE by the port (Table 13.10): DISABLED when no base names it, FAULTY while the port is not an ACTIVE Ethernet
lane, otherwise the state reached, LISTENING at first. -/
def Hub.ptpRefresh (h : Hub) : Hub :=
  let st := match h.ptpPort with
    | none => 5
    | some u => if !h.laneActive (upPort u) || !h.laneEth (upPort u) then 4
        else if h.get Obj.ptpState ≥ 4 || h.get Obj.ptpState = 0 then 1 else h.get Obj.ptpState
  h.put Obj.ptpState st

/-- The client takes messages: its port is ACTIVE. -/
def Hub.ptpOn (h : Hub) : Bool := let h := h.ptpRefresh; h.get Obj.ptpState < 4

/-- A message the subset accepts: version 2 and the client's domain. -/
def ptpAccepts (h : Hub) (version domain : Nat) : Bool := version = 2 && domain = h.get Obj.ptpDomain

/-- clockIdentity, with portNumber 1 behind it: the port's identity (Table 13.10). -/
def Hub.portIdentity (h : Hub) (u : Nat) : Nat :=
  let mac := netValue 6 (h.get (Obj.ethMacAddress u))
  (mac / 2 ^ 24 * 2 ^ 40 + 0xFFFE * 2 ^ 24 + mac % 2 ^ 24) * 2 ^ 16 + 1

/-- A PTP message on the client's port: one whose FCS fails is counted as such, one that `ok` or the subset turns away as discarded, any
other as accepted (R414, Table 13.15). -/
def Hub.onPtp (h : Hub) (version domain : Nat) (badFcs ok : Bool) (f : Hub → Hub) : Hub :=
  let h := h.ptpRefresh
  match h.ptpPort with
  | none => h
  | some u =>
    if !h.ptpOn then h
    else if badFcs then h.bump (Obj.ethRxFcsErrors u)
    else if ok && ptpAccepts h version domain then f (h.bump (Obj.ethRxPtp u))
    else h.bump (Obj.ethRxDiscarded u)

/-- The rank of an Announce in the standard's data-set comparison, smaller being better: priority1, class, accuracy,
variance, priority2, grandmaster, steps, sender. -/
def announceRank (a : PtpAnnounce) : Nat :=
  [a.clockClass, a.accuracy, a.variance, a.priority2, a.gm, a.steps, a.sender].foldl
    (fun acc x => acc * 2 ^ 80 + x) a.priority1

/-- Four announce intervals in ticks. -/
def announceWindow (log : Int) : Nat := if log ≥ 0 then 4 * tSec * 2 ^ log.toNat else 4 * tSec / 2 ^ (-log).toNat

/-- The foreign masters after an Announce: a known one counts it when it follows within 4 announce intervals, a new one is
added while fewer than 8 are held. -/
def foreignMasters (l : List PtpMaster) (a : PtpAnnounce) (now : Nat) : List PtpMaster :=
  let mk (n : Nat) : PtpMaster := { identity := a.sender, quality := announceRank a, announces := n, timescale := a.timescale,
                                    utc := a.utc, steps := a.steps, lastTick := now, gm := a.gm }
  if l.any (fun m => m.identity = a.sender) then
    l.map (fun m => if m.identity = a.sender then
      mk (if now ≤ m.lastTick + announceWindow a.logInterval then m.announces + 1 else 1) else m)
  else if l.length < 8 then l ++ [mk 1] else l

/-- The best of the qualified foreign masters. -/
def bestMaster (l : List PtpMaster) : Option PtpMaster :=
  l.foldl (fun best m =>
    if m.announces < 2 then best else
    match best with
    | none => some m
    | some b => if m.quality < b.quality then some m else some b) none

/-- The client follows master `m`: UNCALIBRATED until its first offset; UTC_OFFSET is taken, and a master whose
ptpTimescale is FALSE makes the source invalid (R210). -/
def Hub.ptpFollow (h : Hub) (m : PtpMaster) : Hub :=
  let new := h.time.ptp.sel ≠ some m.identity
  let h := h.put Obj.gmIdentity m.gm
  let h := if h.get (Obj.tbSource 0) = 4 || h.get (Obj.tbSource 1) = 4 then h.putI 16 Obj.utcOffset m.utc else h
  let h := if new then (h.modPtp (fun p => { p with sel := some m.identity, syncT1 := none, syncT2 := none, reqT3 := none })).put
      Obj.ptpState 2 else h
  let wrong := !m.timescale
  let logIt := wrong && !h.time.ptp.wrongScale
  let h := h.modPtp (fun p => { p with wrongScale := wrong })
  if logIt then
    let h := h.log 0x070B 2 srcPkg m.gm
    let h := if h.get (Obj.tbSource 0) = 4 then h.putBit (Obj.tbStatus 0) 0 false else h
    if h.get (Obj.tbSource 1) = 4 then h.putBit (Obj.tbStatus 1) 0 false else h
  else h

/-- An Announce is received: it qualifies foreign masters for selection; one with stepsRemoved of 255 or more is discarded. -/
def execPtpAnnounce (dt : Nat) (a : PtpAnnounce) (s : State) : Host.Outcome State Fault Refusal :=
  onHub (fun _ h =>
    let h := h.waitTicks dt
    h.onPtp a.version a.domain a.badFcs (a.steps < 255) (fun h =>
      let now := h.time.ticks
      let h := h.modPtp (fun p => { p with masters := foreignMasters p.masters a now, announceTick := now })
      match bestMaster h.time.ptp.masters with
      | some m => h.ptpFollow m
      | none => h)) s

/-- A received start in lane 4 of its block adds 32 UI, 3.103 ns (Table 13.10). -/
def lane4Shift (b : Bool) : Nat := if b then 203360 else 0

/-- A Sync of the selected master is received and stamped t2; a one-step Sync gives t1 as well. -/
def execPtpSync (dt : Nat) (f : Fin 512) (lane4 twoStep : Bool) (p : PtpHead) (s : State) :
    Host.Outcome State Fault Refusal :=
  onHub (fun _ h =>
    let h := h.waitTicks dt
    h.onPtp p.version p.domain p.badFcs true (fun h =>
      match h.ptpPort with
      | some u =>
        if h.time.ptp.sel ≠ some p.sender then h else
        let t2 := (h.edgeStamp h.ptpBase f + lane4Shift lane4 : Int) - uOfPs (h.get (Obj.portRxLatency (upPort u)))
        let t1 : Option Int := if twoStep then none else some (p.time + p.correction)
        h.modPtp (fun c => { c with
          syncSeq := p.seq, syncT2 := some t2, syncT1 := t1, syncCorr := p.correction, twoStep := twoStep })
      | none => h)) s

/-- A Follow_Up of a two-step Sync gives its t1. -/
def execPtpFollowUp (dt : Nat) (p : PtpHead) (s : State) : Host.Outcome State Fault Refusal :=
  onHub (fun _ h =>
    (h.waitTicks dt).onPtp p.version p.domain p.badFcs true (fun h =>
      let c := h.time.ptp
      if c.sel = some p.sender && c.twoStep && c.syncSeq = p.seq && c.syncT2.isSome then
        h.modPtp (fun c => { c with syncT1 := some (p.time + p.correction + c.syncCorr) })
      else h)) s

/-- The Delay_Req interval elapses and a Delay_Req leaves, stamped t3: `dt` after the latest, at most twice
2^LOG_DELAY_REQ_INTERVAL s. (PRESUMED: log 209.) -/
def execPtpDelayReqSend (dt : Nat) (f : Fin 512) (s : State) : Host.Outcome State Fault Refusal :=
  onHub (fun _ h =>
    let h := h.ptpRefresh
    match h.ptpPort with
    | some u =>
      if !h.ptpOn || h.time.ptp.syncT1.isNone then h else
      let h := h.waitTick (h.time.ptp.reqAt + min dt (2 * tSec * 2 ^ h.get Obj.logDelayReqInterval))
      let now := h.time.ticks
      let seq := (h.time.ptp.reqSeq + 1) % 65536
      let t3 := (h.edgeStamp h.ptpBase f : Int) + uOfPs (h.get (Obj.portTxLatency (upPort u)))
      (h.modPtp (fun c => { c with reqSeq := seq, reqT3 := some t3, reqAt := now })).emit (.eth u 4 (h.portIdentity u * 65536 + seq))
    | none => h) s

/-- offsetFromMaster and the mean path delay, in 2⁻¹⁷ ns. -/
def ptpOffset2 (t1 t2 t3 t4 : Int) : Int × Int := ((t2 - t1) - (t4 - t3), (t2 - t1) + (t4 - t3))

/-- A base whose SOURCE is PTP receives a measurement; SITE, where ARRAY has the same source, beside ARRAY's.
(DESIGN CHOICE: log 82.) -/
def Hub.ptpMeasure (h : Hub) (theta : Int) : Hub :=
  let h := if h.get (Obj.tbSource 0) = 4 then h.modServo 0 (fun v => { v with meas := some theta }) else h
  if h.get (Obj.tbSource 1) = 4 then
    let own := if h.get (Obj.tbSource 0) = 4 then h.siteMinusArray else 0
    h.modServo 1 (fun v => { v with meas := some (theta + own) }) else h

/-- The Delay_Resp that answers the port's Delay_Req: offsetFromMaster is computed and, corrected by PTP_DELAY_ASYMMETRY,
is θ (R210). -/
def execPtpDelayResp (dt : Nat) (p : PtpHead) (requester : Nat) (s : State) : Host.Outcome State Fault Refusal :=
  onHub (fun _ h =>
    (h.waitTicks dt).onPtp p.version p.domain p.badFcs true (fun h =>
      let c := h.time.ptp
      match c.syncT1, c.syncT2, c.reqT3 with
      | some t1, some t2, some t3 =>
        if (h.ptpPort.map h.portIdentity) ≠ some requester || c.sel ≠ some p.sender || c.reqSeq ≠ p.seq then h else
        let r := ptpOffset2 t1 t2 t3 (p.time - p.correction)
        let o := h.divOpen r.1 2
        let d := o.2.divOpen r.2 2
        let h := (d.2.putI 64 Obj.offsetFromMaster o.1).putI 64 Obj.meanPathDelay d.1
        let h := h.modPtp (fun c => { c with reqT3 := none })
        if c.wrongScale then h
        else (h.put Obj.ptpState 3).ptpMeasure (o.1 - uOfPs (h.getI 32 Obj.ptpDelayAsymmetry))
      | _, _, _ => h)) s

/-- announceReceiptTimeout expires: the client returns to LISTENING. -/
def execPtpAnnounceTimeout (dt : Nat) (s : State) : Host.Outcome State Fault Refusal :=
  onHub (fun _ h =>
    let h := (h.waitTicks dt).ptpRefresh
    if h.ptpOn then
      (h.modPtp (fun c => { c with masters := [], sel := none, syncT1 := none, syncT2 := none, reqT3 := none })).put Obj.ptpState 1
    else h) s

end Sys2Proof.Machine
end

