-- ==== Sys2Proof/Machine/Lanes.lean ====
section
/-! DEFINITION. The serial lanes: states and transitions, training, the exchange, the eye monitor, low-power states,
loopbacks and what a transmitter sends next (R387 to R411). -/
namespace Sys2Proof.Machine

/-! ### Lane states (Tables 13.2, 13.3) -/

/-- The rate code of a lane whose divider is `d` (Table 13.1). -/
def Hub.rateCode (h : Hub) (l d : Nat) : Nat :=
  if h.laneEth l then 8
  else h.get (Obj.pairBase (lanePair l)) + (if d = 1 then 6 else if d = 2 then 4 else if d = 4 then 2 else 0)

/-- The configured divider: 1 under ETHERNET (R389). -/
def Hub.confDiv (h : Hub) (l : Nat) : Nat := if h.laneEth l then 1 else h.get (Obj.laneRateDiv l)

/-- The hub with the Ethernet state of a port changed. -/
def Hub.modEth (h : Hub) (u : Nat) (f : EthSt → EthSt) : Hub := { h with eths := vupd h.eths u f }

/-- The hub sends an Ethernet message on a port. (DEDUCED: log 130.) -/
def Hub.ethSend (h : Hub) (u kind n : Nat) : Hub := h.emit (.eth u kind n)

/-- An Ethernet lane without block lock sends Local Fault from now on (R416). (DEDUCED: log 130.) -/
def Hub.localFault (h : Hub) (l : Nat) : Hub := if h.laneEth l then h.ethSend (lanePort l) 6 1 else h

/-- The uplink number of a lane is an Ethernet port. -/
def Hub.ethBit (h : Hub) (l i : Nat) (b : Bool) : Hub := if h.laneEth l then h.putBit (Obj.ethEthStatus (lanePort l)) i b else h

/-- A lane enters a state now. -/
def Hub.laneTo (h : Hub) (l st : Nat) : Hub :=
  let now := h.time.ticks
  (h.put (Obj.laneState l) st).modLane l (fun v => { v with since := now })

/-- Bit lock and block lock are lost, and what was received is no longer seen where `all`. -/
def Hub.laneUnlock (h : Hub) (l : Nat) (all : Bool) : Hub :=
  let h := ((h.putBit (Obj.laneStatus l) 4 false).ethBit l 0 false).when all (·.ethBit l 1 false)
  if all then h.put (Obj.laneStatus l) (h.get (Obj.laneStatus l) / 4 % 2 * 4 + h.get (Obj.laneStatus l) / 64 % 2 * 64) else h

/-- The packet in progress on a lane ends there, and its number is lost (R379). (DEDUCED: log 131.) -/
def Hub.cutFrame (h : Hub) (l : Nat) : Hub :=
  match (h.lane l).frameNow with
  | none => h
  | some (p, _) => (h.modLane l (fun v => { v with frameNow := none })).lose (laneDie l) 2 p

/-- A lane leaves ACTIVE other than to a low-power state: LINK_DOWNS counts, LANE_DOWN is logged where the transition has a
cause, the exchange in progress fails (R213), what waited on the lane is gone, and a stay of 10 s has ended the series of
failures (R398). (DEDUCED: log 131.) -/
def Hub.laneLeave (h : Hub) (l : Nat) (cause : Option Nat) : Hub :=
  if !h.laneActive l then h else
  let now := h.time.ticks
  let long := decide (now ≥ (h.lane l).since + 10 * tSec)
  let h := h.cutFrame l
  let h := (h.bump (Obj.laneLinkDowns l)).modLane l (fun v =>
    { v with retries := if long then 0 else v.retries
             msgs := [], msgNow := none, lpSent := none, lpRetry := none, lpAck := none })
  let h := (h.ttLeft l).putBit (Obj.laneStatus l) 5 false
  let h := match cause with
    | some c => h.log 0x0D02 1 srcPkg (l + c * 16)
    | none => h
  h.putBit (Obj.laneStatus l) 7 false

/-- A lane enters DETECT: receiver-detect steps begin (R393). (DEDUCED: log 127.) -/
def Hub.toDetect (h : Hub) (l : Nat) : Hub :=
  let now := h.time.ticks
  let h := ((h.laneTo l 1).laneUnlock l true).put (Obj.laneRate l) 0xFF
  (((h.putBit (Obj.laneStatus l) 8 false).modLane l (fun v => { v with detectAt := now, loopKind := 0 })).localFault l).sweepQueues.ptpRefresh

/-- A lane enters OFF: its objects show no rate and no signal (R391). (DEDUCED: log 127.) -/
def Hub.toOff (h : Hub) (l : Nat) : Hub :=
  let h := (((h.laneLeave l (some 5)).laneTo l 0).laneUnlock l true).put (Obj.laneRate l) 0xFF
  ((h.put (Obj.laneStatus l) 0).modLane l (fun v => { v with loopKind := 0, halfLogged := false })).sweepQueues.ptpRefresh

/-- A lane leaves OFF: the configured rate, no failures yet. (DEDUCED: log 129.) -/
def Hub.laneStart (h : Hub) (l : Nat) : Hub :=
  let d := h.confDiv l
  ((h.modLane l (fun v => { v with div := d, retries := 0 })).putB (Obj.pairPllLocked (lanePair l)) true).toDetect l

/-- A lane begins TRAIN at its present divider. `fresh` starts the count of failed locks anew. (DEDUCED: log 127.) -/
def Hub.toTrain (h : Hub) (l : Nat) (fresh : Bool) : Hub :=
  let h := (h.laneTo l 2).modLane l (fun v =>
    { v with rxReady := false, peerReady := 0, bestFom := 0, ffeReq := 15, stored := false, lockFails := if fresh then 0 else v.lockFails })
  let h := if h.laneEth l then h.put (Obj.laneFfeTx l) (h.get (Obj.ethTxPreset (lanePort l))) else h
  let h := ((h.laneUnlock l false).putBit (Obj.laneStatus l) 3 false).put (Obj.laneRate l) (h.rateCode l (h.lane l).div)
  ((h.sendTrain l).localFault l).sweepQueues.ptpRefresh

/-- A lane enters LOCK. -/
def Hub.toLock (h : Hub) (l : Nat) : Hub := (h.laneTo l 3).localFault l

/-- A loopback begins on a lane: both counts begin anew (R410). (DESIGN CHOICE: log 133.) -/
def Hub.toLoop (h : Hub) (l kind : Nat) : Hub :=
  let now := h.time.ticks
  let h := ((h.laneLeave l (some 4)).laneTo l 8).modLane l (fun v => { v with loopKind := kind, loopFrom := now })
  (h.put (Obj.laneLoopBits l) 0).put (Obj.laneLoopErrors l) 0

/-- A lane enters DOWN: FAIL_COUNT and LAST_FAIL, and LANE_FAIL at the first failure and then at most once per 60 s (R398);
a PLL fault logs its own event. (DEDUCED: log 129.) -/
def Hub.toDown (h : Hub) (l fail hub : Nat) : Hub :=
  let now := h.time.ticks
  let code := h.rateCode l (h.lane l).div
  let due := fail ≠ 7 && (match (h.lane l).failLog with
    | some t => decide (now ≥ t + 60 * tSec)
    | none => true)
  let h := ((h.laneTo l 9).bump (Obj.laneFailCount l)).put (Obj.laneLastFail l) fail
  let h := (h.modLane l (fun v => { v with retries := v.retries + 1, failLog := if due then some now else v.failLog }))
  let h := if due then h.log 0x0D03 1 srcPkg (l + fail * 16 + code * 256 + (h.lane l).bestFom * 65536 + hub * 2 ^ 24) else h
  (h.laneUnlock l true).sweepQueues.ptpRefresh

/-- The rate of a code in units of 2.5 Mb/s. -/
def rateOf (c : Nat) : Nat := [500, 625, 1000, 1250, 2000, 2500, 4000, 5000, 4125].getD c 0

/-- A native lane becomes ACTIVE after the exchange (Table 13.3). (DEDUCED: log 125, 130.) -/
def Hub.nativeUp (h : Hub) (l : Nat) : Hub :=
  let now := h.time.ticks
  let h := (h.laneTo l 5).put (Obj.laneActiveSince l) h.stamp
  let h := h.modLane l (fun v => { v with halfLogged := false, eyeAt := now, eyeLowRun := 0 })
  let low := h.rateLow l
  let h := ((h.putBit (Obj.laneStatus l) 2 false).putBit (Obj.laneStatus l) 5 low).modTt l (fun p =>
    { p with delays := [], ratios := [], valid := 0, t1 := none, t2 := none, t3 := none, t4 := none })
  let code := h.rateCode l (h.lane l).div
  let h := h.log 0x0D01 0 srcPkg (l + code * 16 + h.get (Obj.laneFom l) * 256 + h.get (Obj.lanePeerHubId l) * 65536)
  let h := if low && laneUp l then
      let r := h.divOpen (rateOf code) 4
      r.2.log 0x0C07 1 srcPkg (lanePort l + r.1.toNat * 65536)
    else h
  h.sweepQueues

/-- An Ethernet lane becomes ACTIVE: its address is announced, PTP group membership reported, and resolution begins
(R414). (DEDUCED: log 130.) -/
def Hub.ethUp (h : Hub) (l : Nat) : Hub :=
  let now := h.time.ticks
  let u := lanePort l
  let h := ((h.laneTo l 5).put (Obj.laneActiveSince l) h.stamp).putBit (Obj.laneStatus l) 2 false
  let h := h.modLane l (fun v => { v with halfLogged := false, eyeAt := now, eyeLowRun := 0 })
  let h := h.modEth u (fun e => { e with requests := 0, requestAt := now, memberAt := now })
  let v4 := h.get (Obj.ethIpVersion u) = 4
  let own := h.get (if v4 then Obj.ethIpv4Address u else Obj.ethIpv6Address u)
  let h := if own = 0 then h else h.ethSend u (if v4 then 1 else 2) own
  (h.ethSend u 5 0).sweepQueues.ptpRefresh

/-! ### Configuration and power (R389, R391) -/

/-- The lane may run: enabled, its die up, outside CURTAIN-DOWN and BOOT. -/
def Hub.laneMay (h : Hub) (mb : ModeBlock) (l : Nat) : Bool :=
  mb.up && h.flag (Obj.laneEnable l) && h.die (4 + laneDie l) = 3

/-- A lane after a write of its ENABLE. -/
def Hub.laneEnabled (h : Hub) (mb : ModeBlock) (l : Nat) : Hub :=
  let st := h.get (Obj.laneState l)
  if !h.laneMay mb l then (if st = 0 then h else h.toOff l)
  else if st ≠ 0 then h
  else if mb.mode = .selfTest then h.toLoop l 2
  else h.laneStart l

/-- A configuration write sends a lane that is not OFF back to DETECT, at the rate now configured. -/
def Hub.laneReconf (h : Hub) (l : Nat) : Hub :=
  if h.get (Obj.laneState l) = 0 then h else
  let d := h.confDiv l
  ((h.laneLeave l (some 3)).modLane l (fun v => { v with div := d })).toDetect l

/-- The lanes of a hub die start with the mode that lets them run. -/
def Hub.lanesStart (h : Hub) (mb : ModeBlock) : Hub :=
  h.forEach (List.range 16) (fun l h => if h.get (Obj.laneState l) = 0 && h.laneMay mb l then h.laneEnabled mb l else h)

/-- The lanes of a hub die power down with it (R66, R75). -/
def Hub.lanesStop (h : Hub) (x : Nat) : Hub :=
  h.forEach (List.range 8) (fun q h => let l := x * 8 + q; if h.get (Obj.laneState l) = 0 then h else h.toOff l)

/-- SELF-TEST: every lane runs the near-end parallel loopback, and afterwards returns to DETECT (R391). -/
def Hub.lanesSelfTest (h : Hub) : Hub :=
  h.forEach (List.range 16) (fun l h => if h.get (Obj.laneState l) = 0 then h else h.toLoop l 2)
def Hub.lanesSelfTestEnd (h : Hub) : Hub :=
  h.forEach (List.range 16) (fun l h => if h.get (Obj.laneState l) = 8 then h.toDetect l else h)

/-! ### DETECT (R393) -/

/-- Every 1 ms in DETECT the transmitter makes a receiver-detect step; an Ethernet lane makes none. (DEDUCED: log 136.) -/
def execReceiverDetectStep (l : Fin 16) (found : Bool) (s : State) : Host.Outcome State Fault Refusal :=
  onHub (fun _ h =>
    if h.get (Obj.laneState l) ≠ 1 || h.laneEth l then h else
    let at_ := (h.lane l).detectAt
    ((h.waitTick at_).putBit (Obj.laneStatus l) 0 found).modLane l (fun v => { v with detectAt := at_ + tMs })) s

/-- Termination and signal, or signal alone on an Ethernet lane, have held for 100 µs. -/
def execLaneDetectDone (l : Fin 16) (dt : Nat) (s : State) : Host.Outcome State Fault Refusal :=
  onHub (fun _ h =>
    let h := h.waitTicks dt
    if h.get (Obj.laneState l) ≠ 1 then h else
    let h := if h.laneEth l then h else h.putBit (Obj.laneStatus l) 0 true
    (h.putBit (Obj.laneStatus l) 1 true).toTrain l true) s

/-- One detect condition has held for 100 ms without the other: a found receiver, or a signal. An Ethernet lane, which makes no
receiver-detect step, has only one. -/
def execLaneHalfDetect (l : Fin 16) (dt : Nat) (signal : Bool) (s : State) : Host.Outcome State Fault Refusal :=
  onHub (fun _ h =>
    let h := h.waitTicks dt
    if h.get (Obj.laneState l) ≠ 1 || h.laneEth l then h else
    let first := !(h.lane l).halfLogged
    let h := ((h.putBit (Obj.laneStatus l) 0 !signal).putBit (Obj.laneStatus l) 1 signal).putBit (Obj.laneStatus l) 2 true
    let h := h.modLane l (fun v => { v with halfLogged := true })
    if first then h.log 0x0D05 1 srcPkg (l + b2n signal * 16) else h) s

/-! ### TRAIN (R394 to R396) -/

/-- Both ends are ready: LOCK. -/
def Hub.trainCheck (h : Hub) (l : Nat) : Hub :=
  if (h.lane l).rxReady && (h.lane l).peerReady ≥ 16 then h.toLock l else h

/-- A training word is read at the lane's rate; one whose check fails is ignored, and the preset it asks for is transmitted from now
on. (DEDUCED: log 136.) -/
def execTrainingWordRx (l : Fin 16) (dt : Nat) (w : TrainWord) (s : State) : Host.Outcome State Fault Refusal :=
  onHub (fun _ h =>
    let h := h.waitTicks dt
    if h.get (Obj.laneState l) ≠ 2 || h.laneEth l || !w.good || w.rate.val ≠ h.get (Obj.laneRate l) then h else
    let h := if w.inverted then h.putBit (Obj.laneStatus l) 6 true else h
    let h := if w.ffeReq.val ≤ 10 && w.ffeReq.val ≠ h.get (Obj.laneFfeTx l) then (h.put (Obj.laneFfeTx l) w.ffeReq).sendTrain l else h
    (h.modLane l (fun v => { v with peerReady := if w.ready then v.peerReady + 1 else 0 })).trainCheck l) s

/-- The figure of merit of a scan (R399). -/
def eyeFom (width height : Nat) : Nat := 255 * width * min (2 * height) 200 / 12800

/-- The eye objects after a scan. -/
def Hub.putEye (h : Hub) (l : Nat) (e : EyeReading) : Hub :=
  let fom := eyeFom e.width e.height
  (((h.put (Obj.laneFom l) fom).put (Obj.laneEyeWidth l) e.width).put (Obj.laneEyeHeight l) (2 * e.height)).put
    (Obj.laneDfeTaps l) e.taps

/-- A measurement of the figure of merit in TRAIN: the lane's training words carry it from now on. -/
def Hub.trainMeasure (h : Hub) (l : Nat) (e : EyeReading) : Hub :=
  ((h.putEye l e).modLane l (fun v => { v with bestFom := max v.bestFom (eyeFom e.width e.height) })).sendTrain l

/-- The place of the best of the measurements: a free one of those that share it. (DEDUCED: log 136.) -/
def Hub.bestOf (h : Hub) (es : List EyeReading) : Nat × Hub :=
  let foms := es.map (fun e => eyeFom e.width e.height)
  match (List.range es.length).filter (fun i => foms.all (· ≤ foms.getD i 0)) with
  | [i] => (i, h)
  | c =>
    let d := h.drawNat
    (c.getD (d.1 % c.length) 0, d.2)

/-- A sweep of the boost: a measurement at each, and the best stays in force. -/
def Hub.sweepBoost (h : Hub) (l : Nat) (es : List EyeReading) : Hub :=
  let h := h.forEach (es.zipIdx) (fun e h => (h.put (Obj.laneCtle l) e.2).trainMeasure l e.1)
  let b := h.bestOf es
  b.2.put (Obj.laneCtle l) b.1

/-- A sweep of the far transmitter's presets: each is requested and, once FFE_CUR shows it, measured, and the best is requested. -/
def Hub.sweepPresets (h : Hub) (l : Nat) (es : List EyeReading) : Hub :=
  let ask (p : Nat) (h : Hub) : Hub := (h.modLane l (fun v => { v with ffeReq := p })).sendTrain l
  let h := h.forEach (es.zipIdx) (fun e h => (ask e.2 h).trainMeasure l e.1)
  let b := h.bestOf es
  ask b.1 b.2

/-- A pass runs in its order; an Ethernet lane makes the two sweeps of the boost only. -/
def Hub.trainPass (h : Hub) (l : Nat) (e : TrainPass) : Hub :=
  let h := h.sweepBoost l e.low.toList
  let h := if h.laneEth l then h else h.sweepPresets l e.presets.toList
  let h := h.sweepBoost l e.high.toList
  match e.high.toList[h.get (Obj.laneCtle l)]? with
  | some r => h.putEye l r
  | none => h

/-- A pass ends: its best boost and preset are in force, and RX_READY is set when the figure of merit reaches FOM_MIN; else the next
begins. From the coefficients that an L2 stay has kept, the first measurement may set it at once. An Ethernet lane goes on to LOCK after
1 ms of it. (DEDUCED: log 136.) -/
def execTrainPassDone (l : Fin 16) (dt : Nat) (e : TrainPass) (s : State) : Host.Outcome State Fault Refusal :=
  onHub (fun _ h =>
    let h := h.waitTicks dt
    if h.get (Obj.laneState l) ≠ 2 || (!h.laneEth l && (h.lane l).rxReady) then h else
    let min_ := h.get Obj.fomMin
    let h := if (h.lane l).stored && decide (eyeFom e.first.width e.first.height ≥ min_) then h.trainMeasure l e.first else h.trainPass l e
    let ok := decide (h.get (Obj.laneFom l) ≥ min_)
    let h := (h.modLane l (fun v => { v with rxReady := ok, stored := false })).sendTrain l
    if h.laneEth l then (if ok then (h.waitTicks tMs).toLock l else h) else h.trainCheck l) s

/-- TRAIN_TIMEOUT expires: half the rate with the coefficients cleared, or DOWN at FALLBACK_DIV. (DEDUCED: log 128.) -/
def execTrainTimeout (l : Fin 16) (s : State) : Host.Outcome State Fault Refusal :=
  onHub (fun _ h =>
    if h.get (Obj.laneState l) ≠ 2 then h else
    let h := h.waitTick ((h.lane l).since + h.get Obj.trainTimeout * tMs)
    let d := (h.lane l).div
    if !h.laneEth l && d < h.get (Obj.laneFallbackDiv l) then
      let old := h.rateCode l d
      let h := ((h.put (Obj.laneCtle l) 0).put (Obj.laneDfeTaps l) 0).put (Obj.laneFfeTx l) 0
      let h := (h.modLane l (fun v => { v with div := 2 * d })).toTrain l true
      h.log 0x0D04 0 srcPkg (l + old * 16 + h.rateCode l (2 * d) * 256)
    else h.toDown l 1 0) s

/-- No signal for 1 ms in TRAIN. -/
def execTrainSignalLost (l : Fin 16) (dt : Nat) (s : State) : Host.Outcome State Fault Refusal :=
  onHub (fun _ h => let h := h.waitTicks dt; if h.get (Obj.laneState l) = 2 then h.toDetect l else h) s

/-! ### LOCK and EXCHANGE (R397) -/

/-- The CAP message of a lane (Table 13.7). -/
def Hub.capBytes (h : Hub) (l : Nat) : List Nat :=
  toBytes 2 (h.get Obj.hubIdActive) ++
    [laneDie l + b2n (!laneUp l) * 2 + l % 4 * 4 + h.rateCode l (h.lane l).div * 16] ++
    [h.get Obj.farLoopAllow + h.get (Obj.laneLpmAllow l) * 2] ++ toBytes 2 (h.get Obj.brevActive) ++
    toBytes 2 h.part.siliconRev ++ [1, 0]

/-- A CAP message is sent. -/
def Hub.sendCap (h : Hub) (l : Nat) : Hub :=
  let now := h.time.ticks
  (h.modLane l (fun v => { v with capAt := now })).sendNow l 0x30 (h.capBytes l)

/-- Bit lock and 64 consecutive valid sync headers: EXCHANGE, or ACTIVE under ETHERNET. -/
def execBlockLock (l : Fin 16) (dt : Nat) (s : State) : Host.Outcome State Fault Refusal :=
  onHub (fun _ h =>
    let h := h.waitTicks dt
    if h.get (Obj.laneState l) ≠ 3 then h else
    let h := ((h.putBit (Obj.laneStatus l) 3 true).putBit (Obj.laneStatus l) 4 true).modLane l (fun v => { v with lockFails := 0 })
    if h.laneEth l then ((h.ethBit l 0 true).ethBit l 1 false).ethUp l
    else (h.laneTo l 4).sendCap l) s

/-- No block lock within 10 ms: back to TRAIN with the coefficients kept, and DOWN the second time. (DEDUCED: log 128.) -/
def execLockTimeout (l : Fin 16) (s : State) : Host.Outcome State Fault Refusal :=
  onHub (fun _ h =>
    if h.get (Obj.laneState l) ≠ 3 then h else
    let h := h.waitTick ((h.lane l).since + 10 * tMs)
    if (h.lane l).lockFails = 0 then (h.modLane l (fun v => { v with lockFails := 1 })).toTrain l false
    else h.toDown l 2 0) s

/-- A CAP message arrives: ACTIVE, or DOWN with DIRECTION, SELF_LOOP or VERSION. -/
def execCap (l : Fin 16) (dt : Nat) (c : CapMsg) (crc : Bool) (s : State) : Host.Outcome State Fault Refusal :=
  onHub (fun _ h =>
    (h.waitTicks dt).onMessage l crc (fun h =>
      if h.get (Obj.laneState l) ≠ 4 then h
      else if c.down = !laneUp l then h.toDown l 4 c.hub
      else if c.hub.val = h.get Obj.hubIdActive then h.toDown l 5 c.hub
      else if c.version.val ≠ 1 then h.toDown l 6 c.hub
      else
        let h := (h.put (Obj.lanePeerHubId l) c.hub).put (Obj.lanePeerPort l) (c.die + b2n c.down * 2 + c.port * 4)
        (h.put (Obj.lanePeerBrev l) c.brev).nativeUp l)) s

/-- Every 1 ms in EXCHANGE the CAP message is sent again. -/
def execCapResend (l : Fin 16) (s : State) : Host.Outcome State Fault Refusal :=
  onHub (fun _ h =>
    if h.get (Obj.laneState l) ≠ 4 then h else (h.waitTick ((h.lane l).capAt + tMs)).sendCap l) s

/-- No valid CAP within 10 ms. -/
def execExchangeTimeout (l : Fin 16) (s : State) : Host.Outcome State Fault Refusal :=
  onHub (fun _ h =>
    if h.get (Obj.laneState l) ≠ 4 then h else (h.waitTick ((h.lane l).since + 10 * tMs)).toDown l 3 0) s

/-! ### Losses in ACTIVE, and the PLL -/

/-- No signal for 1 µs in ACTIVE. -/
def execLaneSignalLost (l : Fin 16) (dt : Nat) (s : State) : Host.Outcome State Fault Refusal :=
  onHub (fun _ h => let h := h.waitTicks dt; if h.laneActive l then (h.laneLeave l (some 0)).toDetect l else h) s

/-- What a receiver meets beside frames and known messages within 64 blocks, or within 125 µs on an Ethernet lane (`wide`): each
invalid sync header and each unlisted block type is a block error, and one inside a frame ends that frame as aborted; a message of an
unlisted type is counted and discarded; 16 invalid headers send an ACTIVE lane back to LOCK. (DEDUCED: log 118.) -/
def execSyncHeaderErrors (l : Fin 16) (dt : Nat) (n : RxBlocks) (wide : Bool) (s : State) : Host.Outcome State Fault Refusal :=
  onHub (fun _ h =>
    let h := h.waitTicks dt
    let st := h.get (Obj.laneState l)
    if st ≠ 4 && st ≠ 5 then h else
    let h := h.bumpBy (Obj.laneBlockErrors l) (n.headers + n.types)
    let h := if h.laneEth l then h else h.bumpBy (Obj.laneMsgRx l) n.strays
    let h := if n.inFrame && h.laneNative l && n.headers.val + n.types.val > 0 then h.bump (Obj.laneAbortsRx l) else h
    if st ≠ 5 || n.headers.val < 16 || (wide && !h.laneEth l) then h else
    let h := ((h.laneLeave l (some 1)).toLock l).laneUnlock l false
    let h := if wide then h.ethBit l 1 true else h
    h.sweepQueues.ptpRefresh) s

/-- A lane out of DOWN because of its pair's PLL. (DEDUCED: log 129.) -/
def Hub.pllDown (h : Hub) (l : Nat) : Hub :=
  if h.get (Obj.laneState l) = 0 then h else (h.laneLeave l none).toDown l 7 0

/-- The PLL of a pair has been out of lock for 1 µs: both lanes go DOWN, and the pair logs it once. (DEDUCED: log 129.) -/
def execPllUnlock (p : Fin 8) (dt : Nat) (s : State) : Host.Outcome State Fault Refusal :=
  onHub (fun _ h =>
    let h := h.waitTicks dt
    let l := p.val / 4 * 8 + p.val % 4 * 2
    if h.get (Obj.laneState l) = 0 && h.get (Obj.laneState (l + 1)) = 0 then h else
    let h := ((h.putB (Obj.pairPllLocked p) false).bump (Obj.pairPllUnlocks p)).log 0x0D0B 2 srcPkg p
    (h.pllDown l).pllDown (l + 1)) s

/-- The retry wait of DOWN has elapsed. -/
def execLaneRetry (l : Fin 16) (s : State) : Host.Outcome State Fault Refusal :=
  onHub (fun _ h =>
    if h.get (Obj.laneState l) ≠ 9 then h else
    let v := h.lane l
    let h := h.waitTick (v.since + h.get Obj.retryInterval * tMs * 2 ^ min (v.retries - 1) 6)
    (h.putB (Obj.pairPllLocked (lanePair l)) true).toDetect l) s

/-- RETRAIN in ACTIVE: TRAIN at the configured rate. -/
def Hub.applyRetrain (h : Hub) (l : Nat) : Hub :=
  let d := h.confDiv l
  ((h.laneLeave l (some 2)).modLane l (fun v => { v with div := d })).toTrain l true

/-- An eye scan on live data: EYE_LOW after ten in a row below FOM_WARN, until the first at or above it. (DEDUCED: log 136.) -/
def execEyeScan (l : Fin 16) (e : EyeReading) (s : State) : Host.Outcome State Fault Refusal :=
  onHub (fun _ h =>
    if !h.laneActive l then h else
    let at_ := (h.lane l).eyeAt + h.get Obj.eyePeriod * tMs
    let fom := eyeFom e.width e.height
    let h := (h.waitTick at_).putEye l e
    if fom ≥ h.get Obj.fomWarn then
      (h.modLane l (fun v => { v with eyeAt := at_, eyeLowRun := 0 })).putBit (Obj.laneStatus l) 7 false
    else
      let n := (h.lane l).eyeLowRun + 1
      let h := h.modLane l (fun v => { v with eyeAt := at_, eyeLowRun := n })
      if n ≥ 10 && !h.bit (Obj.laneStatus l) 7 then
        (h.putBit (Obj.laneStatus l) 7 true).log 0x0D06 1 srcPkg (l + fom * 256 + e.width * 65536 + e.height * 2 ^ 24)
      else h) s

/-! ### Low-power states (R407 to R409) -/

/-- A packet waits for the port of an uplink lane, the rest of one being sent included. -/
def Hub.packetWaits (h : Hub) (l : Nat) : Bool :=
  laneUp l && ((h.lane l).frameNow.isSome ||
    (h.queue (laneDie l)).packets.any (fun k => h.portOf (laneDie l) k = some (l % 4)))

/-- An exchange of time messages is in progress on the lane. -/
def Hub.exchanging (h : Hub) (l : Nat) : Bool :=
  let p := vget h.time.ports l
  if laneUp l then p.t2.isSome else p.t1.isSome

/-- LP_ENTER is sent when the lane is asked for a low-power state and nothing stands in its way. -/
def Hub.lpTry (h : Hub) (l : Nat) : Hub :=
  let v := h.lane l
  let want := h.get (Obj.laneLpmRequest l)
  if want = 0 || !h.laneTalks l || v.lpSent.isSome || v.lpRetry.isSome || h.packetWaits l || h.exchanging l then h else
  let now := h.time.ticks
  (h.modLane l (fun v => { v with lpSent := some (now, 5 + want) })).sendMsg l 0x40 [5 + want]

/-- LPM_REQUEST is written 0: a wake cause of a lane that is in a low-power state or on its way to one (R409).
(DEDUCED: log 210.) -/
def Hub.lpmWritten (h : Hub) (l : Nat) : Hub :=
  let st := h.get (Obj.laneState l)
  if h.get (Obj.laneLpmRequest l) = 0 && (st = 6 || st = 7 || (h.lane l).lpSent.isSome) then h.modLane l (fun v => { v with wake := true })
  else h

/-- A lane enters L1 or L2: its line is idle at both ends, and in L2 the CDR is off (Tables 13.2, 13.14). -/
def Hub.toLowPower (h : Hub) (l st : Nat) : Hub :=
  let now := h.time.ticks
  let long := decide (now ≥ (h.lane l).since + 10 * tSec)
  let h := (h.laneTo l st).modLane l (fun v =>
    { v with lpSent := none, lpRetry := none, lpAck := none, retries := if long then 0 else v.retries })
  let h := ((h.ttLeft l).putBit (Obj.laneStatus l) 1 false).putBit (Obj.laneStatus l) 5 false
  (if st = 7 then (h.laneUnlock l false).putBit (Obj.laneStatus l) 3 false else h).sweepQueues

/-- LP_ENTER arrives: accepted when LPM_ALLOW is 1 and no packet waits for the port. (DEDUCED: log 134.) -/
def execLpEnter (l : Fin 16) (dt : Nat) (target : Fin 256) (crc : Bool) (s : State) : Host.Outcome State Fault Refusal :=
  onHub (fun _ h =>
    (h.waitTicks dt).onMessage l crc (fun h =>
      if !h.laneNative l then h else
      let ok := h.flag (Obj.laneLpmAllow l) && !h.packetWaits l && (target.val = 6 || target.val = 7)
      let h := if ok then h.modLane l (fun v => { v with lpAck := some target.val }) else h
      h.sendMsg l 0x41 [b2n ok])) s

/-- LP_ACK arrives: the requester enters the state, or stays ACTIVE and asks again 100 ms later. -/
def execLpAck (l : Fin 16) (dt : Nat) (accepted crc : Bool) (s : State) : Host.Outcome State Fault Refusal :=
  onHub (fun _ h =>
    (h.waitTicks dt).onMessage l crc (fun h =>
      match (h.lane l).lpSent with
      | none => h
      | some (t, st) =>
        if accepted then h.toLowPower l st
        else h.modLane l (fun v => { v with lpSent := none, wake := false, lpRetry := some (t + 100 * tMs) }))) s

/-- No LP_ACK within 1 ms: both ends stay ACTIVE. -/
def execLpAckTimeout (l : Fin 16) (s : State) : Host.Outcome State Fault Refusal :=
  onHub (fun _ h =>
    match (h.lane l).lpSent with
    | none => h
    | some (t, _) =>
      (h.waitTick (t + tMs)).modLane l (fun v => { v with lpSent := none, wake := false, lpRetry := some (t + 100 * tMs) })) s

/-- The request is repeated while LPM_REQUEST stays set. -/
def execLpRequestRepeat (l : Fin 16) (s : State) : Host.Outcome State Fault Refusal :=
  onHub (fun _ h =>
    match (h.lane l).lpRetry with
    | none => h
    | some t => ((h.waitTick t).modLane l (fun v => { v with lpRetry := none })).lpTry l) s

/-- A wake cause of the lane stands: LPM_REQUEST has been written 0, or in L1 a packet waits for its port (R409).
(DEDUCED: log 210.) -/
def Hub.wakes (h : Hub) (l : Nat) : Bool :=
  (h.lane l).wake || (h.get (Obj.laneState l) = 6 && h.packetWaits l)

/-- A wake cause, or the far end's exit: L1 returns to ACTIVE, L2 trains from its stored coefficients. (DEDUCED: log 210.) -/
def execLaneWake (l : Fin 16) (dt : Nat) (far : Bool) (s : State) : Host.Outcome State Fault Refusal :=
  onHub (fun _ h =>
    let st := h.get (Obj.laneState l)
    if !(st = 6 || st = 7) || !(far || h.wakes l) then h else
    let h := ((h.waitTicks dt).putBit (Obj.laneStatus l) 1 true).modLane l (fun v => { v with wake := false })
    if st = 7 then (h.toTrain l true).modLane l (fun v => { v with stored := true })
    else
      let now := h.time.ticks
      let h := ((h.laneTo l 5).put (Obj.laneActiveSince l) h.stamp).modLane l (fun v => { v with eyeAt := now })
      (h.putBit (Obj.laneStatus l) 5 (h.rateLow l)).sweepQueues) s

/-- No wake and no signal for 10 ms after the far end's exit. -/
def execLpNoWakeTimeout (l : Fin 16) (dt : Nat) (s : State) : Host.Outcome State Fault Refusal :=
  onHub (fun _ h =>
    let st := h.get (Obj.laneState l)
    if !(st = 6 || st = 7) then h else
    (((h.waitTicks (10 * tMs + dt)).log 0x0D02 1 srcPkg l).modLane l (fun v => { v with wake := false })).toDetect l) s

/-! ### Loopbacks (R410, R411) -/

/-- A loopback starts. -/
def Hub.loopStart (h : Hub) (l kind : Nat) : Hub :=
  ((h.toLoop l kind).modLane l (fun v => { v with floopSent := none })).sweepQueues.ptpRefresh

/-- What the checker has counted: every bit since the first 64 that it synchronised on, at the lane's rate in 2.5 Mb/s. How many of
them mismatch is free, and so is a loss of synchronisation, from which both counts begin anew. (DESIGN CHOICE: log 133.) -/
def Hub.loopCount (h : Hub) (l : Nat) : Hub :=
  if h.get (Obj.laneState l) ≠ 8 then h else
  let now := h.time.ticks
  let v := h.lane l
  let lost := h.drawNat
  let at_ := lost.2.drawNat
  let e := at_.2.drawNat
  let anew := lost.1 % 2 = 1
  let start := if anew then v.loopFrom + at_.1 % (now + 1 - v.loopFrom) else v.loopFrom
  let bits := ((now - start) * rateOf (h.rateCode l v.div) / 100 - 64 - Config.loopDelay l v.loopKind) % 2 ^ 64
  let h := (e.2.modLane l (fun v => { v with loopFrom := start })).put (Obj.laneLoopBits l) bits
  h.put (Obj.laneLoopErrors l) (min bits ((if anew then 0 else h.get (Obj.laneLoopErrors l)) + e.1))

/-- A near loopback is written in SERVICE: it starts in the states from DETECT to ACTIVE. (DEDUCED: log 132.) -/
def Hub.loopNear (h : Hub) (l kind : Nat) : Hub :=
  let st := h.get (Obj.laneState l)
  let h := h.put (Obj.laneLoopback l) kind
  if 1 ≤ st && st ≤ 5 then h.loopStart l kind else h

/-- A loopback ends: LOOPBACK_RESULT, and DETECT. A far loopback tells the far end. -/
def Hub.loopEnd (h : Hub) (l : Nat) : Hub :=
  let h := h.put (Obj.laneLoopback l) 0
  if h.get (Obj.laneState l) ≠ 8 then h else
  let h := h.loopCount l
  let kind := (h.lane l).loopKind
  let h := h.log 0x0D07 0 srcPkg (l + (kind - 1) * 16 + min (h.get (Obj.laneLoopErrors l)) (2 ^ 56 - 1) * 256)
  (if kind = 3 then h.sendNow l 0x50 [0] else h).toDetect l

/-- The far lane of a far loopback: its end. (DEDUCED: log 132.) -/
def Hub.farLoopEnd (h : Hub) (l : Nat) : Hub :=
  if !h.bit (Obj.laneStatus l) 8 then h else
  let h := h.log 0x0D07 0 srcPkg (l + 2 * 16 + min (h.get (Obj.laneLoopErrors l)) (2 ^ 56 - 1) * 256)
  (h.laneLeave l none).toDetect l

/-- The hub leaves SERVICE: every loopback ends, its own and those it serves (R411). -/
def Hub.loopsEnd (h : Hub) : Hub :=
  h.forEach (List.range 16) (fun l h =>
    if h.get (Obj.laneState l) = 8 then h.loopEnd l
    else if h.bit (Obj.laneStatus l) 8 then (h.sendNow l 0x50 [0]).farLoopEnd l else h.put (Obj.laneLoopback l) 0)

/-- FLOOP_REQ arrives: a start is accepted when FAR_LOOP_ALLOW is 1 in SERVICE, and once the answer has left, the lane returns the bits it
receives; a stop ends the loopback at either end. (DEDUCED: log 132.) -/
def execFloopReq (l : Fin 16) (dt : Nat) (start crc : Bool) (s : State) : Host.Outcome State Fault Refusal :=
  onHub (fun m h =>
    let h := h.waitTicks dt
    if h.get (Obj.laneState l) = 8 && (h.lane l).loopKind = 3 then (if crc && !start then h.loopEnd l else h)
    else h.onMessage l crc (fun h =>
      if !h.laneNative l then h
      else if !start then h.farLoopEnd l
      else
        let ok := h.flag Obj.farLoopAllow && m = .service
        let h := h.sendMsg l 0x51 [b2n ok]
        if ok then ((h.cutFrame l).putBit (Obj.laneStatus l) 8 true).sweepQueues else h)) s

/-! ### What a transmitter sends next (R253, R359, R400 to R403, R413) -/

/-- The bytes of a slot's image that a capture frame on a port carries. -/
def Hub.capFrameLen (h : Hub) (u : Nat) : Nat := if h.laneEth (upPort u) then 8896 else 16000

/-- The next capture frame of a slot enters the Lead's queue (R359). (DEDUCED: log 98.) -/
def Hub.queueCapture (h : Hub) (s : Nat) : Hub :=
  let x := h.leadDie
  let p := h.get Obj.capReadoutPort
  let v := h.slot s
  let img := h.slotImage s x
  let part := (img.drop v.sent).take (h.capFrameLen (x * 4 + p))
  let body := toBytes 8 v.sent ++ part ++ List.replicate ((4 - part.length % 4) % 4) 0
  let b := frameHeader 4 0 (h.get Obj.hubIdActive) (0x80 + s) (h.quality 0) v.frameNo (time96 v.first 0) part.length 0 0xFF
    body.length ++ body
  let k : Packet := { hub := h.get Obj.hubIdActive, stream := 0x80 + s, seq := v.frameNo, last := v.frameNo, type := 4
                      prim := p, cls := h.get Obj.capReadoutClass, start := v.first, words := packetWords b }
  let now := h.time.ticks
  let rate := h.get Obj.capReadoutRate
  (h.modSlot s (fun v => { v with sent := v.sent + part.length, frameNo := v.frameNo + 1
                                  readAt := max now v.readAt + ceilDiv (part.length * 250) rate })).enqueue x k

/-- The slot whose readout has a capture frame due on a lane that can send it, more of its image following.
(DEDUCED: log 98.) -/
def Hub.captureDue (h : Hub) (l : Nat) : Option Nat :=
  if l ≠ h.leadDie * 8 + h.get Obj.capReadoutPort || !h.portUsable (lanePort l) then none
  else (List.range 16).find? (fun s => h.get (Obj.slotState s) = 4 && decide ((h.slot s).readAt ≤ h.time.ticks) &&
    decide ((h.slot s).sent + h.capFrameLen (lanePort l) < h.get (Obj.slotImageSize s)))

/-- `n` capture frames of a slot are queued as they fall due at CAP_READOUT_RATE, as far as the image goes. -/
def Hub.queueCaptures : Nat → Nat → Hub → Hub
  | 0, _, h => h
  | n + 1, s, h => if (h.slot s).sent < h.get (Obj.slotImageSize s) then
      Hub.queueCaptures n s ((h.waitTick (h.slot s).readAt).queueCapture s)
    else h

/-- The last capture frame of a readout is queued: the slot is COMPLETE, or fills again under AUTO_READOUT.
(DEDUCED: log 98.) -/
def execCaptureReadoutDone (n : Fin 16) (s : State) : Host.Outcome State Fault Refusal :=
  onHubM (fun mb h =>
    if !mb.up || h.get (Obj.slotState n) ≠ 4 then h else
    let h := Hub.queueCaptures (h.get (Obj.slotImageSize n) / 8896 + 1) n h
    if h.flag (Obj.slotAutoReadout n) then h.applyRelease n else h.put (Obj.slotState n) 3) s

/-- HOROL blocks among the last 1,024 of the lane. -/
def LaneSt.horolBlocks (v : LaneSt) : Nat := (v.horolAt.filter (fun b => b + 1024 > v.blocks)).length

/-- The message that a free transmitter starts next: trigger messages, then those of the lane, then HOROL within its
allowance, each oldest first (R403). -/
def LaneSt.nextMsg (v : LaneSt) : Option LaneMsg :=
  match v.msgs.find? (fun m => m.code = 0x10 || m.code = 0x11 || m.code = 0x12) with
  | some m => some m
  | none => match v.msgs.find? (fun m => m.code ≠ 0x20) with
    | some m => some m
    | none => v.msgs.head?.filter (fun m => v.horolBlocks + m.bodies + 1 ≤ 16)

/-- A message block leaves; the last block of an accepting LP_ACK takes the lane into its low-power state (R408).
(DEDUCED: log 134.) -/
def Hub.msgBlock (h : Hub) (l : Nat) (m : LaneMsg) (left : Nat) : Hub :=
  let h := h.modLane l (fun v =>
    { v with blocks := v.blocks + 1
             horolAt := if m.code = 0x20 then ((v.blocks + 1) :: v.horolAt).take 16 else v.horolAt
             msgNow := if left = 0 then none else some (m, left) })
  match (h.lane l).lpAck with
  | some st => if left = 0 && m.code = 0x41 && m.bytes = [1] then h.toLowPower l st else h
  | none => h

/-- The packet in progress ends by the aborted-packet mark: a word was poisoned (R325, R380). -/
def Hub.poisonPacket (h : Hub) (l : Nat) (p : Packet) : Hub :=
  let x := laneDie l
  let now := h.time.ticks
  let h := (h.modLane l (fun v => { v with frameNow := none })).modQueue x (fun q => { q with poison := now :: q.poison })
  ((((h.noteFault x).bump (Obj.hdPoisonCount x)).bump (Obj.abortedPackets x)).lose x 3 p).sendAbortMark l

/-- A packet has left whole. -/
def Hub.packetSent (h : Hub) (l : Nat) (p : Packet) : Hub :=
  let u := lanePort l
  let h := (h.modLane l (fun v => { v with frameNow := none })).bump (Obj.pqFramesSent u)
  let h := h.emit (.frame (laneDie l) (l % 4) p.type p.stream p.seq)
  if h.laneEth l then
    (h.bump (Obj.ethTxDatagrams u)).emit (.datagram u (h.datagramBytes u p.cls (p.words.flatMap (toBytes 4))))
  else h

/-- The next block of the packet in progress: two words in a data block, or the block that ends the frame. -/
def Hub.frameBlock (h : Hub) (l : Nat) (p : Packet) (words : List Nat) (poison : Bool) : Hub :=
  if !words.isEmpty && (poison || (words.take 2).any (fun w => !parityOk w)) then h.poisonPacket l p
  else
    let h := h.sendWords l words
    if words.length ≤ 1 then h.packetSent l p else h.modLane l (fun v => { v with frameNow := some (p, words.drop 2) })

/-- A datagram of an Ethernet lane, whole (R413). -/
def Hub.datagram (h : Hub) (l : Nat) (p : Packet) (poison : Bool) : Hub :=
  if poison || p.words.any (fun w => !parityOk w) then h.poisonPacket l p else h.packetSent l p

/-- The packet that a lane may take next. -/
def Hub.lanePacket (h : Hub) (l : Nat) : Option Packet :=
  if laneUp l && h.transmits (laneDie l) && h.portUsable (lanePort l) then h.nextPacket (laneDie l) (l % 4) else none

/-- A message starts: its head leaves. -/
def Hub.startMsg (h : Hub) (l : Nat) (m : LaneMsg) : Hub :=
  (((h.modLane l (fun v => { v with msgs := v.msgs.erase m })).emit (.lane l m.code m.bytes)).sendMsgBlock l m 0).msgBlock l m m.bodies

/-- The next block of a message in progress. -/
def Hub.moreMsg (h : Hub) (l : Nat) (m : LaneMsg) (left : Nat) : Hub := (h.sendMsgBlock l m (m.bodies + 1 - left)).msgBlock l m (left - 1)

/-- A lane that loops back for the far end sends the message in progress and the FLOOP_ACK that accepts, and from then on nothing of its
own (R411). (DEDUCED: log 132.) -/
def Hub.farLoopBlock (h : Hub) (l : Nat) : Hub :=
  match (h.lane l).msgNow with
  | some (m, left) => h.moreMsg l m left
  | none => if (h.lane l).msgs.contains ⟨0x51, [1]⟩ then h.startMsg l ⟨0x51, [1]⟩ else h

/-- The next block of an ACTIVE native lane, or the next datagram of an Ethernet lane. `poison` is a word of the block failing
its parity. The event messages of time transfer have rows of their own. (DEDUCED: log 77, 137.) -/
def execLaneTxBlock (l : Fin 16) (dt : Nat) (poison : Bool) (s : State) : Host.Outcome State Fault Refusal :=
  onHubM (fun mb h =>
    if !mb.up || !h.laneActive l then h else
    let h := ((h.waitTicks dt).sendEvents).lpTry l
    let h := match h.captureDue l with
      | some n => h.queueCapture n
      | none => h
    if h.laneEth l then
      match h.lanePacket l with
      | some p => (h.takePacket (laneDie l) p).datagram l p poison
      | none => h
    else if h.bit (Obj.laneStatus l) 8 then h.farLoopBlock l
    else
      let v := h.lane l
      match v.msgNow with
      | some (m, left) => h.moreMsg l m left
      | none => match v.nextMsg with
        | some m => h.startMsg l m
        | none =>
          let h := h.modLane l (fun v => { v with blocks := v.blocks + 1 })
          match v.frameNow with
          | some (p, w) => h.frameBlock l p w poison
          | none => match h.lanePacket l with
            | some p =>
              ((h.takePacket (laneDie l) p).modLane l (fun v => { v with frameNow := some (p, p.words) })).sendControl l 0x2D []
            | none => h.sendControl l 0x1E []) s

end Sys2Proof.Machine
end

