-- ==== Sys2Proof/Machine/Ethernet.lean ====
section
/-! DEFINITION. The Ethernet personality of an uplink: resolution, echo, membership and faults (R412 to R416). -/
namespace Sys2Proof.Machine

/-- The port is an ACTIVE Ethernet lane. -/
def Hub.ethActive (h : Hub) (u : Nat) : Bool := h.laneActive (upPort u) && h.laneEth (upPort u)

/-- The port runs IPv4. -/
def Hub.v4 (h : Hub) (u : Nat) : Bool := h.get (Obj.ethIpVersion u) = 4

/-- The port's own address. -/
def Hub.ownAddr (h : Hub) (u : Nat) : Nat := if h.v4 u then netValue 4 (h.get (Obj.ethIpv4Address u)) else netValue 16 (h.get (Obj.ethIpv6Address u))

/-- The link-local address: fe80::/64 with the EUI-64 of MAC_ADDRESS, its universal/local bit inverted (R414). -/
def linkLocal (mac : Nat) : Nat :=
  let hi := mac / 2 ^ 24
  let b := hi / 2 ^ 16 % 256
  let hi' := (if bitOf b 1 then b - 2 else b + 2) * 2 ^ 16 + hi % 2 ^ 16
  0xFE80 * 2 ^ 112 + hi' * 2 ^ 40 + 0xFFFE * 2 ^ 24 + mac % 2 ^ 24

/-- The address to resolve: the destination within the port's prefix, the gateway otherwise; 0 where there is none.
(DEDUCED: log 135.) -/
def Hub.nextHop (h : Hub) (u : Nat) : Nat :=
  let bits := if h.v4 u then 32 else 128
  let dest := if h.v4 u then netValue 4 (h.get (Obj.ethDestIpv4 u)) else netValue 16 (h.get (Obj.ethDestIpv6 u))
  let pre := h.get (if h.v4 u then Obj.ethIpv4Prefix u else Obj.ethIpv6Prefix u)
  let gw := if h.v4 u then netValue 4 (h.get (Obj.ethIpv4Gateway u)) else netValue 16 (h.get (Obj.ethIpv6Gateway u))
  if dest = 0 then 0
  else if dest / 2 ^ (bits - pre) = h.ownAddr u / 2 ^ (bits - pre) then dest else gw

/-- ARP or neighbor discovery, by the port's IP version. -/
def Hub.resolveKind (h : Hub) (u : Nat) : Nat := if h.v4 u then 1 else 2

/-- The frames of every other kind that a port has received: discarded and counted, PAUSE frames in their own counter too (R412, R414).
(DEDUCED: log 135.) -/
def Hub.otherFrames (h : Hub) (u : Nat) (r : EthRx) : Hub :=
  ((h.bumpBy (Obj.ethRxDiscarded u) (r.other + r.pauses)).bumpBy (Obj.ethRxFcsErrors u) r.otherBad).bumpBy (Obj.ethPauseIgnored u) r.pauses

/-- A frame received on an Ethernet port: a wrong FCS is counted, and what `ok` does not cover, a tagged frame and one longer than
1,522 B are discarded and counted (R412, R414). (DEDUCED: log 135.) -/
def Hub.onFrame (h : Hub) (u : Nat) (r : EthRx) (ok : Bool) (f : Hub → Hub) : Hub :=
  if !h.ethActive u then h else
  let h := h.otherFrames u r
  if r.badFcs then h.bump (Obj.ethRxFcsErrors u)
  else if ok && !r.odd then f h
  else h.bump (Obj.ethRxDiscarded u)

/-- ETH_STATUS as it reads: what is received, and what the addresses, the resolution and the PTP client make of it
(Table 13.16). -/
def Hub.ethStatusWord (h : Hub) (u : Nat) : Nat :=
  h.get (Obj.ethEthStatus u) % 16 +
    b2n (h.get (Obj.ethDestMac u) ≠ 0 || (vget h.eths u).resolvedAt.isSome) * 16 +
    b2n (h.ptpPort = some u && h.laneEth (upPort u)) * 32 + b2n (!h.addrSet u) * 64

/-- RESOLVED_MAC: the next hop in use. -/
def Hub.resolvedMac (h : Hub) (u : Nat) : Nat :=
  if h.get (Obj.ethDestMac u) ≠ 0 then h.get (Obj.ethDestMac u) else h.get (Obj.ethResolvedMac u)

/-- The resolution of a port begins anew: its addresses have changed. -/
def Hub.ethReset (h : Hub) (u : Nat) : Hub :=
  let now := h.time.ticks
  ((h.modEth u (fun e => { e with requests := 0, requestAt := now, resolvedAt := none, refreshed := false })).put
    (Obj.ethResolvedMac u) 0).sweepQueues

/-- An ARP request for the port's address is answered. -/
def execArpRequestRx (u : Fin 8) (dt : Nat) (target : Nat) (r : EthRx) (s : State) : Host.Outcome State Fault Refusal :=
  onHub (fun _ h =>
    let h := h.waitTicks dt
    h.onFrame u r (h.v4 u && target ≠ 0 && target = h.ownAddr u) (fun h => h.ethSend u 1 target)) s

/-- A Neighbor Solicitation for the port's address or its link-local address is answered. -/
def execNeighborSolicitationRx (u : Fin 8) (dt : Nat) (target : Nat) (r : EthRx) (s : State) :
    Host.Outcome State Fault Refusal :=
  onHub (fun _ h =>
    let h := h.waitTicks dt
    let mine := (target ≠ 0 && target = h.ownAddr u) || target = linkLocal (netValue 6 (h.get (Obj.ethMacAddress u)))
    h.onFrame u r (!h.v4 u && mine) (fun h => h.ethSend u 2 target)) s

/-- An answer for the next hop: it is resolved now. -/
def Hub.resolved (h : Hub) (u mac : Nat) : Hub :=
  let now := h.time.ticks
  ((h.modEth u (fun e => { e with requests := 0, resolvedAt := some now, refreshed := false })).put
    (Obj.ethResolvedMac u) (netValue 6 mac)).sweepQueues

/-- An answer is wanted for this address. -/
def Hub.awaits (h : Hub) (u addr : Nat) : Bool := addr ≠ 0 && addr = h.nextHop u && h.get (Obj.ethDestMac u) = 0

/-- An ARP reply for the next hop. -/
def execArpReplyRx (u : Fin 8) (dt : Nat) (sender mac : Nat) (r : EthRx) (s : State) : Host.Outcome State Fault Refusal :=
  onHub (fun _ h =>
    let h := h.waitTicks dt
    h.onFrame u r (h.v4 u && h.awaits u sender) (fun h => h.resolved u mac)) s

/-- A Neighbor Advertisement for the next hop. -/
def execNeighborAdvertisementRx (u : Fin 8) (dt : Nat) (target mac : Nat) (r : EthRx) (s : State) :
    Host.Outcome State Fault Refusal :=
  onHub (fun _ h =>
    let h := h.waitTicks dt
    h.onFrame u r (!h.v4 u && h.awaits u target) (fun h => h.resolved u mac)) s

/-- An echo request is answered: payloads up to 1,472 B, at most 100 per second. -/
def execEchoRequestRx (u : Fin 8) (dt : Nat) (v6 : Bool) (target size : Nat) (r : EthRx) (s : State) :
    Host.Outcome State Fault Refusal :=
  onHub (fun _ h =>
    let h := h.waitTicks dt
    let now := h.time.ticks
    let recent := (vget h.eths u).echoes.filter (fun t => decide (now < t + tSec))
    let mine := target ≠ 0 && (target = h.ownAddr u || (v6 && target = linkLocal (netValue 6 (h.get (Obj.ethMacAddress u)))))
    h.onFrame u r (v6 != h.v4 u && mine && size ≤ 1472 && recent.length < 100) (fun h =>
      ((h.modEth u (fun e => { e with echoes := now :: recent })).bump (Obj.ethEchoAnswered u)).ethSend u 3 target)) s

/-- The port has a next hop to resolve and has not resolved it. (DEDUCED: log 135.) -/
def Hub.unresolved (h : Hub) (u : Nat) : Bool :=
  h.ethActive u && h.ownAddr u ≠ 0 && h.nextHop u ≠ 0 && h.get (Obj.ethDestMac u) = 0 && (vget h.eths u).resolvedAt.isNone

/-- A resolution request every 1 s until an answer comes; ten without one are logged, then at most once per 60 s.
(DEDUCED: log 135.) -/
def execResolveRequest (u : Fin 8) (s : State) : Host.Outcome State Fault Refusal :=
  onHub (fun _ h =>
    if !h.unresolved u then h else
    let h := h.waitTick (vget h.eths u).requestAt
    let now := h.time.ticks
    let e := vget h.eths u
    let due := e.requests ≥ 10 && (match e.failLog with
      | some t => decide (now ≥ t + 60 * tSec)
      | none => true)
    let h := if due then h.log 0x0D09 1 srcPkg (u + b2n (!h.v4 u) * 8) else h
    (h.modEth u (fun e => { e with requests := e.requests + 1, requestAt := now + tSec
                                   failLog := if due then some now else e.failLog })).ethSend u (h.resolveKind u) (h.nextHop u)) s

/-- A resolved entry is refreshed by a unicast request after 240 s. -/
def execResolveRefresh (u : Fin 8) (s : State) : Host.Outcome State Fault Refusal :=
  onHub (fun _ h =>
    match (vget h.eths u).resolvedAt with
    | none => h
    | some t =>
      if (vget h.eths u).refreshed || !h.ethActive u then h else
      ((h.waitTick (t + 240 * tSec)).modEth u (fun e => { e with refreshed := true })).ethSend u (h.resolveKind u) (h.nextHop u)) s

/-- A resolved entry is dropped after 300 s without an answer. -/
def execResolveDrop (u : Fin 8) (s : State) : Host.Outcome State Fault Refusal :=
  onHub (fun _ h =>
    match (vget h.eths u).resolvedAt with
    | none => h
    | some t => (h.waitTick (t + 300 * tSec)).ethReset u) s

/-- Membership of the PTP group is reported every 125 s. -/
def execMembershipReport (u : Fin 8) (s : State) : Host.Outcome State Fault Refusal :=
  onHub (fun _ h =>
    if !h.ethActive u then h else
    let at_ := (vget h.eths u).memberAt + 125 * tSec
    ((h.waitTick at_).modEth u (fun e => { e with memberAt := at_ })).ethSend u 5 0) s

/-- A Local or Remote Fault ordered set arrives: no datagrams are sent, and the onset is logged. While Local Fault is
received, Remote Fault is sent. -/
def execEthFault (u : Fin 8) (dt : Nat) (remote : Bool) (s : State) : Host.Outcome State Fault Refusal :=
  onHub (fun _ h =>
    let h := h.waitTicks dt
    if !h.ethActive u then h else
    let bit := if remote then 3 else 2
    let onset := !h.bit (Obj.ethEthStatus u) bit
    let now := h.time.ticks
    let h := (h.putBit (Obj.ethEthStatus u) bit true).modEth u (fun e => { e with faultAt := some now })
    let h := if onset then h.log 0x0D08 1 srcPkg (u + (if remote then 16 else 8)) else h
    (if remote then h else h.ethSend u 6 2).sweepQueues) s

/-- 10 ms without a fault ordered set. -/
def execEthFaultEnd (u : Fin 8) (s : State) : Host.Outcome State Fault Refusal :=
  onHub (fun _ h =>
    match (vget h.eths u).faultAt with
    | none => h
    | some t =>
      let h := (h.waitTick (t + 10 * tMs)).modEth u (fun e => { e with faultAt := none })
      ((h.putBit (Obj.ethEthStatus u) 2 false).putBit (Obj.ethEthStatus u) 3 false).sweepQueues) s

end Sys2Proof.Machine
end

