-- ==== Sys2Proof/Machine/Crypto.lean ====
section
/-! DEFINITION. The standards by which an image is signed (R446, R447): the secure hash functions of FIPS 180-4 and Ed25519
verification as in RFC 8032. The specification names them; their constants stand in the standards. -/
namespace Sys2Proof.Machine

/-! ### SHA-2 -/

/-- The parameters of a SHA-2 function: bits of a word, round constants, initial value, and the rotations of its four
functions, the last of the two small ones a shift. -/
structure Sha where
  bits : Nat
  ks : List Nat
  init : List Nat
  s0 : Nat × Nat × Nat
  s1 : Nat × Nat × Nat
  e0 : Nat × Nat × Nat
  e1 : Nat × Nat × Nat

/-- A word rotated right. -/
def rotr (bits n x : Nat) : Nat := x / 2 ^ n + x % 2 ^ n * 2 ^ (bits - n)

/-- Three rotations of a word, exclusive-ored; the third is a shift where `shift`. -/
def Sha.mix (f : Sha) (r : Nat × Nat × Nat) (shift : Bool) (x : Nat) : Nat :=
  rotr f.bits r.1 x ^^^ rotr f.bits r.2.1 x ^^^ (if shift then x / 2 ^ r.2.2 else rotr f.bits r.2.2 x)

/-- The message schedule, newest word first, extended by `n` words. -/
def Sha.extend (f : Sha) : Nat → List Nat → List Nat
  | 0, w => w
  | n + 1, w =>
    f.extend n ((f.mix f.s1 true (w.getD 1 0) + w.getD 6 0 + f.mix f.s0 true (w.getD 14 0) + w.getD 15 0) % 2 ^ f.bits :: w)

/-- One round on the eight working variables, with round constant and schedule word added up. -/
def Sha.round (f : Sha) (v : List Nat) (kw : Nat) : List Nat :=
  match v with
  | [a, b, c, d, e, g, i, j] =>
    let t1 := j + f.mix f.e1 false e + ((e &&& g) ^^^ ((2 ^ f.bits - 1 - e) &&& i)) + kw
    let t2 := f.mix f.e0 false a + ((a &&& b) ^^^ (a &&& c) ^^^ (b &&& c))
    [(t1 + t2) % 2 ^ f.bits, a, b, c, (d + t1) % 2 ^ f.bits, e, g, i]
  | _ => v

/-- A block of sixteen words is taken in. -/
def Sha.block (f : Sha) (v w : List Nat) : List Nat :=
  let s := (f.extend (f.ks.length - 16) w.reverse).reverse
  let r := (List.zipWith (· + ·) f.ks s).foldl f.round v
  List.zipWith (fun a b => (a + b) % 2 ^ f.bits) v r

/-- The number whose big-endian bytes are given. -/
def beNat (b : List Nat) : Nat := b.foldl (fun n x => n * 256 + x % 256) 0

/-- The hash of a byte string. -/
def Sha.hash (f : Sha) (m : List Nat) : List Nat :=
  let blk := 2 * f.bits
  let pad := (blk - (m.length + 1 + f.bits / 4) % blk) % blk
  let b := m ++ [0x80] ++ List.replicate pad 0 ++ (toBytes (f.bits / 4) (8 * m.length)).reverse
  let words (x : List Nat) : List Nat := (chunks (f.bits / 8) 16 x).map beNat
  ((chunks blk (b.length / blk) b).foldl (fun v x => f.block v (words x)) f.init).flatMap (fun x => (toBytes (f.bits / 8) x).reverse)

/-- The round constants of the 32-bit functions. -/
def shaKs32 : List Nat :=
  [0x428A2F98, 0x71374491, 0xB5C0FBCF, 0xE9B5DBA5, 0x3956C25B, 0x59F111F1, 0x923F82A4, 0xAB1C5ED5,
   0xD807AA98, 0x12835B01, 0x243185BE, 0x550C7DC3, 0x72BE5D74, 0x80DEB1FE, 0x9BDC06A7, 0xC19BF174,
   0xE49B69C1, 0xEFBE4786, 0xFC19DC6, 0x240CA1CC, 0x2DE92C6F, 0x4A7484AA, 0x5CB0A9DC, 0x76F988DA,
   0x983E5152, 0xA831C66D, 0xB00327C8, 0xBF597FC7, 0xC6E00BF3, 0xD5A79147, 0x6CA6351, 0x14292967] ++
  [0x27B70A85, 0x2E1B2138, 0x4D2C6DFC, 0x53380D13, 0x650A7354, 0x766A0ABB, 0x81C2C92E, 0x92722C85,
   0xA2BFE8A1, 0xA81A664B, 0xC24B8B70, 0xC76C51A3, 0xD192E819, 0xD6990624, 0xF40E3585, 0x106AA070,
   0x19A4C116, 0x1E376C08, 0x2748774C, 0x34B0BCB5, 0x391C0CB3, 0x4ED8AA4A, 0x5B9CCA4F, 0x682E6FF3,
   0x748F82EE, 0x78A5636F, 0x84C87814, 0x8CC70208, 0x90BEFFFA, 0xA4506CEB, 0xBEF9A3F7, 0xC67178F2]

/-- The round constants of the 64-bit functions. -/
def shaKs64 : List Nat :=
  [0x428A2F98D728AE22, 0x7137449123EF65CD, 0xB5C0FBCFEC4D3B2F, 0xE9B5DBA58189DBBC,
   0x3956C25BF348B538, 0x59F111F1B605D019, 0x923F82A4AF194F9B, 0xAB1C5ED5DA6D8118,
   0xD807AA98A3030242, 0x12835B0145706FBE, 0x243185BE4EE4B28C, 0x550C7DC3D5FFB4E2,
   0x72BE5D74F27B896F, 0x80DEB1FE3B1696B1, 0x9BDC06A725C71235, 0xC19BF174CF692694,
   0xE49B69C19EF14AD2, 0xEFBE4786384F25E3, 0xFC19DC68B8CD5B5, 0x240CA1CC77AC9C65,
   0x2DE92C6F592B0275, 0x4A7484AA6EA6E483, 0x5CB0A9DCBD41FBD4, 0x76F988DA831153B5,
   0x983E5152EE66DFAB, 0xA831C66D2DB43210, 0xB00327C898FB213F, 0xBF597FC7BEEF0EE4,
   0xC6E00BF33DA88FC2, 0xD5A79147930AA725, 0x6CA6351E003826F, 0x142929670A0E6E70,
   0x27B70A8546D22FFC, 0x2E1B21385C26C926, 0x4D2C6DFC5AC42AED, 0x53380D139D95B3DF,
   0x650A73548BAF63DE, 0x766A0ABB3C77B2A8, 0x81C2C92E47EDAEE6, 0x92722C851482353B] ++
  [0xA2BFE8A14CF10364, 0xA81A664BBC423001, 0xC24B8B70D0F89791, 0xC76C51A30654BE30,
   0xD192E819D6EF5218, 0xD69906245565A910, 0xF40E35855771202A, 0x106AA07032BBD1B8,
   0x19A4C116B8D2D0C8, 0x1E376C085141AB53, 0x2748774CDF8EEB99, 0x34B0BCB5E19B48A8,
   0x391C0CB3C5C95A63, 0x4ED8AA4AE3418ACB, 0x5B9CCA4F7763E373, 0x682E6FF3D6B2B8A3,
   0x748F82EE5DEFB2FC, 0x78A5636F43172F60, 0x84C87814A1F0AB72, 0x8CC702081A6439EC,
   0x90BEFFFA23631E28, 0xA4506CEBDE82BDE9, 0xBEF9A3F7B2C67915, 0xC67178F2E372532B,
   0xCA273ECEEA26619C, 0xD186B8C721C0C207, 0xEADA7DD6CDE0EB1E, 0xF57D4F7FEE6ED178,
   0x6F067AA72176FBA, 0xA637DC5A2C898A6, 0x113F9804BEF90DAE, 0x1B710B35131C471B,
   0x28DB77F523047D84, 0x32CAAB7B40C72493, 0x3C9EBE0A15C9BEBC, 0x431D67C49C100D4C,
   0x4CC5D4BECB3E42B6, 0x597F299CFC657E2A, 0x5FCB6FAB3AD6FAEC, 0x6C44198C4A475817]

/-- SHA-256. (PRESUMED: log 11.) -/
def sha256 : Sha :=
  { bits := 32, ks := shaKs32
    init := [0x6A09E667, 0xBB67AE85, 0x3C6EF372, 0xA54FF53A, 0x510E527F, 0x9B05688C, 0x1F83D9AB, 0x5BE0CD19]
    s0 := (7, 18, 3), s1 := (17, 19, 10), e0 := (2, 13, 22), e1 := (6, 11, 25) }

/-- SHA-512. -/
def sha512 : Sha :=
  { bits := 64, ks := shaKs64
    init := [0x6A09E667F3BCC908, 0xBB67AE8584CAA73B, 0x3C6EF372FE94F82B, 0xA54FF53A5F1D36F1,
      0x510E527FADE682D1, 0x9B05688C2B3E6C1F, 0x1F83D9ABFB41BD6B, 0x5BE0CD19137E2179]
    s0 := (1, 8, 7), s1 := (19, 61, 6), e0 := (28, 34, 39), e1 := (14, 18, 41) }

/-! ### Ed25519 -/

/-- The field prime, the curve constant, and the order of the base point. -/
def edP : Nat := 2 ^ 255 - 19
def edD : Nat := 0x52036CEE2B6FFE738CC740797779E89800700A4D4141D8AB75EB4DCA135978A3
def edL : Nat := 2 ^ 252 + 27742317777372353535851937790883648493

/-- A power modulo the field prime, over the lowest `n` bits of the exponent. -/
def edPow : Nat → Nat → Nat → Nat
  | 0, _, _ => 1
  | n + 1, x, e => (if e % 2 = 1 then x else 1) * edPow n (x * x % edP) (e / 2) % edP

/-- A curve point in extended coordinates. -/
structure EdPoint where
  x : Nat
  y : Nat
  z : Nat := 1
  t : Nat

/-- The neutral point and the base point. -/
def EdPoint.zero : EdPoint := { x := 0, y := 1, t := 0 }
def EdPoint.base : EdPoint :=
  let x := 0x216936D3CD6E53FEC0A4E231FDD6DC5C692CC7609525A7B2C9562D608F25D51A
  let y := 0x6666666666666666666666666666666666666666666666666666666666666658
  { x := x, y := y, t := x * y % edP }

/-- A difference modulo the field prime. -/
def edSub (a b : Nat) : Nat := (a + edP - b % edP) % edP

/-- The sum of two points. -/
def EdPoint.add (p q : EdPoint) : EdPoint :=
  let a := edSub p.y p.x * edSub q.y q.x % edP
  let b := (p.y + p.x) * (q.y + q.x) % edP
  let c := 2 * p.t * q.t % edP * edD % edP
  let d := 2 * p.z * q.z % edP
  let e := edSub b a
  let f := edSub d c
  let g := (d + c) % edP
  let h := (b + a) % edP
  { x := e * f % edP, y := g * h % edP, z := f * g % edP, t := e * h % edP }

/-- A multiple of a point, over the lowest `n` bits of the factor. -/
def EdPoint.mul : Nat → Nat → EdPoint → EdPoint
  | 0, _, _ => EdPoint.zero
  | n + 1, k, p => let r := EdPoint.mul n (k / 2) (p.add p); if k % 2 = 1 then r.add p else r

/-- Two points are the same. -/
def EdPoint.same (p q : EdPoint) : Bool := p.x * q.z % edP = q.x * p.z % edP && p.y * q.z % edP = q.y * p.z % edP

/-- The point that 32 bytes encode. -/
def edDecode (b : List Nat) : Option EdPoint :=
  let n := ofBytes b
  let y := n % 2 ^ 255
  let sign := n / 2 ^ 255 % 2
  let u := edSub (y * y) 1
  let v := (edD * (y * y % edP) + 1) % edP
  let x := u * edPow 2 v 3 % edP * edPow 252 (u * edPow 3 v 7 % edP) ((edP - 5) / 8) % edP
  let x := if v * x % edP * x % edP = u then x else x * edPow 253 2 ((edP - 1) / 4) % edP
  if y ≥ edP || v * x % edP * x % edP ≠ u || (x = 0 && sign = 1) then none
  else
    let x := if x % 2 = sign then x else edP - x
    some { x := x, y := y, t := x * y % edP }

/-- The signature of a message verifies under a public key. (PRESUMED: log 11.) -/
def ed25519 (key sig message : List Nat) : Bool :=
  let s := ofBytes (sig.drop 32)
  match edDecode key, edDecode (sig.take 32) with
  | some a, some r =>
    let k := ofBytes (sha512.hash (sig.take 32 ++ key ++ message)) % edL
    decide (s < edL) &&
      EdPoint.same (EdPoint.mul 4 8 (EdPoint.mul 256 s EdPoint.base)) (EdPoint.mul 4 8 (r.add (EdPoint.mul 256 k a)))
  | _, _ => false

end Sys2Proof.Machine
end

