-- ==== Sys2Proof/Machine/Firmware.lean ====
section
/-! DEFINITION. The firmware slots of the hub dies: their contents and the checks of an image (R446 to R448). -/
namespace Sys2Proof.Machine

/-- Slot `b` of hub die `x` (0 A, 1 B). -/
def Hub.fwSlot (h : Hub) (x b : Nat) : FwSlot := vget h.pow.slots (2 * x + b)

/-- The supply and bring-up state changed. -/
def Hub.modPow (h : Hub) (f : PowerSt → PowerSt) : Hub := { h with pow := f h.pow }

/-- A slot changed. -/
def Hub.modSlotFw (h : Hub) (x b : Nat) (f : FwSlot → FwSlot) : Hub :=
  h.modPow (fun p => { p with slots := vupd p.slots (2 * x + b) f })

/-- The hub dies of the part. -/
def Part.hubDies (p : Part) : List Nat := if p.simplex then [0] else [0, 1]

/-- The byte of a slot at an offset: the latest block that covers it. (DESIGN CHOICE: log 12.) -/
def FwSlot.byteAt (v : FwSlot) (x b off : Nat) : Nat :=
  match v.blocks.find? (fun e => e.1 ≤ off && off < e.1 + e.2.length) with
  | some e => e.2.getD (off - e.1) 0
  | none => Config.flashByte x b off

/-- `n` bytes of a slot from an offset. -/
def FwSlot.bytesAt (v : FwSlot) (x b off n : Nat) : List Nat := (List.range n).map (fun i => v.byteAt x b (off + i))

/-- A field of the header, `n` bytes at `off`, as a number (Table 14.11). -/
def FwSlot.headField (v : FwSlot) (x b off n : Nat) : Nat := ofBytes (v.bytesAt x b off n)

/-- FW_KEY_HASH as bytes. -/
def Part.keyBytes (p : Part) : List Nat := toBytes 32 p.keyHash

/-- VERSION of the image a slot holds. -/
def FwSlot.imageVersion (v : FwSlot) (x b : Nat) : Nat := v.headField x b 8 2

/-- The first check that an image fails (R447 step 4): 0 where it passes. (PRESUMED: log 11.) -/
def Hub.imageRefusal (h : Hub) (x b : Nat) : Nat :=
  let v := h.fwSlot x b
  if v.factory then 0
  else
    let len := v.headField x b 4 4
    if v.headField x b 0 4 ≠ 0x00D74B48 || len = 0 || len > 3145472 then Abort.fwImageInvalid
    else
      let body := v.bytesAt x b 256 len
      if crc32 body ≠ v.headField x b 12 4 || v.headField x b 10 2 > h.part.siliconRev then Abort.fwImageInvalid
      else
        let key := v.bytesAt x b 16 32
        let sig := v.bytesAt x b 48 64
        let message := v.bytesAt x b 0 48 ++ List.replicate 64 0 ++ v.bytesAt x b 112 144 ++ body
        if sha256.hash key ≠ h.part.keyBytes || !ed25519 key sig message then Abort.fwSignatureInvalid else 0

/-- FW_SLOT_INFO of a slot: its state and VERSION. -/
def FwSlot.info (v : FwSlot) : Nat := v.state + v.version % 65536 * 65536

end Sys2Proof.Machine
end

