-- ==== Sys2Proof/Machine/Answers.lean ====
section
/-! DEFINITION. How a request is answered: response PDUs, the carriers they leave on, and the table of answered requests
(R436 to R444). -/
namespace Sys2Proof.Machine

/-! ### The PDU (R436 to R438) -/

/-- The 8 B header (Table 14.6). (DEDUCED: log 66.) -/
def pduHead (service flags tx index sub seg length : Nat) : List Nat :=
  [service % 32 + flags * 32, tx % 256] ++ toBytes 2 index ++ [sub % 256, seg % 256] ++ toBytes 2 (length * 4)

/-- Segment k of `data`: at most 54 bytes. -/
def segData (data : List Nat) (k : Nat) : List Nat := (data.drop (54 * k)).take 54

/-- The number of segments of `n` bytes, 1 for none. (DEDUCED: log 56.) -/
def segCount (n : Nat) : Nat := max 1 (ceilDiv n 54)

/-- The response PDUs of a request: RESPONSE, ERROR where it aborts, MORE in all but the last. (DEDUCED: log 64.) -/
def respPdus (r : SrvReq) (err : Bool) (data : List Nat) : List (List Nat) :=
  let n := segCount data.length
  (List.range n).map (fun k =>
    pduHead r.service (1 + b2n err * 2 + b2n (k + 1 < n) * 4) r.tx r.index r.sub k data.length ++ segData data k)

/-! ### Sending (R442 to R444) -/

/-- The mailbox answers: slots, RESP_COUNT, RESP_SEQ, and BUSY last (R444). -/
def Hub.mailAnswer (h : Hub) (pdus : List (List Nat)) : Hub :=
  let d := h.mir.mbox.doorbell
  let l := pdus.take 14
  (h.modMir (fun v => { v with mbox := { v.mbox with
    resp := (List.range l.length).foldl (fun r k => vset r k (l.getD k [])) v.mbox.resp
    respCount := l.length, respSeq := d, busy := false } })).emit (.mailbox d)

/-- The response PDUs leave on the carrier of the request. -/
def Hub.respond (h : Hub) (src : Carrier) (pdus : List (List Nat)) : Hub :=
  match src with
  | .can p => h.forEach pdus (fun b h => h.emit (h.canOut p 3 b))
  | .own p => h.forEach pdus (fun b h => h.emit (h.canOut p 2 (toBytes 2 (h.get Obj.hubIdActive) ++ b)))
  | .tunnel o => h.forEach pdus (fun b h => h.sendHorol o b)
  | .mailbox => h.mailAnswer pdus

/-! ### Answers (R439, R440) -/

/-- A request answered with these PDUs: sent, and kept for a repeat within 1 s. (DEDUCED: log 5.) -/
def Hub.finish (h : Hub) (r : SrvReq) (pdus : List (List Nat)) : Hub :=
  let now := h.time.ticks
  (h.respond r.src pdus).modSrv (fun v => { v with
    answered := { req := r, at_ := now, pdus := pdus } :: v.answered.filter (fun a => now ≤ a.at_ + tSec), nodes := none })

/-- An abort of a request: ERROR with a U16 code. -/
def Hub.abortReq (h : Hub) (r : SrvReq) (code : Nat) : Hub := (h.bump Obj.abortsSent).finish r (respPdus r true (toBytes 2 code))

/-- A response that was held is sent. -/
def Hub.releaseHeld (h : Hub) (r : SrvReq) (code : Nat) : Hub := if code = 0 then h.finish r (respPdus r false []) else h.abortReq r code

end Sys2Proof.Machine
end

