-- ==== Sys2Proof/Machine/Control.lean ====
section
/-! DEFINITION. The control engine: loops, the hysteretic law, the blocking generator, switched control outputs, test-signal
injection and trace buffers (R263 to R292). -/
namespace Sys2Proof.Machine

def Hub.loop (h : Hub) (l : Nat) : LoopSt := vget h.eng.loops l
def Hub.modLoop (h : Hub) (l : Nat) (f : LoopSt → LoopSt) : Hub :=
  { h with eng := { h.eng with loops := vupd h.eng.loops l f } }
def Hub.ctl (h : Hub) (o : Nat) : CtlSt := vget h.eng.ctls o
def Hub.modCtl (h : Hub) (o : Nat) (f : CtlSt → CtlSt) : Hub :=
  { h with eng := { h.eng with ctls := vupd h.eng.ctls o f } }
def Hub.trace (h : Hub) (b : Nat) : TraceSt := vget h.eng.traces b
def Hub.modTrace (h : Hub) (b : Nat) (f : TraceSt → TraceSt) : Hub :=
  { h with eng := { h.eng with traces := vupd h.eng.traces b f } }

/-- One LSB₂₄ on the scale of Q32.32. -/
def q32 : Int := 2 ^ 32

/-- A quotient to the nearest 2⁻³² of two Q32.32 values, or of a product: ties away from zero (R275). -/
def q32Mul (a b : Int) : Int := divRoundAway (a * b) (2 ^ 32)
def q32Div (a b : Int) : Int := if b = 0 then 0 else if b > 0 then divRoundAway (a * q32) b.toNat else divRoundAway (-a * q32) (-b).toNat

/-! ### Switched control outputs (R280, R281) -/

/-- A pin number of a control output's ball, for what the hub sends: FE die f, output j. -/
def ctlPin (o : Nat) : Nat := 0x100 + o

/-- STATUS.BALL follows LEVEL and POLARITY; a latched output is high impedance. -/
def Hub.refreshBall (h : Hub) (o : Nat) : Hub :=
  let st := h.get (Obj.ctlStatus o)
  h.putBit (Obj.ctlStatus o) 1 (!bitOf st 3 && (bitOf st 0 != h.flag (Obj.ctlPolarity o)))

/-- The logical level of an output is set at instant `u`: a change counts in EDGES and is an injection start edge. An output of a
FAILED FE die is unpowered (R281). -/
def Hub.putCtl (h : Hub) (o : Nat) (lvl : Bool) (u : Nat) : Hub :=
  if h.bit (Obj.ctlStatus o) 0 = lvl || h.die (o / 4) ≥ 4 then h else
  let h := (((h.putBit (Obj.ctlStatus o) 0 lvl).refreshBall o).bump (Obj.ctlEdges o))
  let h := if h.bit (Obj.ctlStatus o) 3 then h else h.emit (.pin (ctlPin o) (h.bit (Obj.ctlStatus o) 1) u)
  h.sourceEdge 2 (o % 4) (some (o / 4)) lvl u

/-- The output's next change: at once where its instant is reached within this tick, otherwise at that instant (R264). -/
def Hub.orderCtl (h : Hub) (o : Nat) (lvl : Bool) (u : Nat) : Hub :=
  if h.now 0 + 262144 < u then h.modCtl o (fun v => { v with edge := some (lvl, u) })
  else (h.modCtl o (fun v => { v with edge := none })).putCtl o lvl u

/-- A command of the Lead to an output, which the FE die's arbiter lets through or discards (R32, R328, R334).
(DEDUCED: log 202; DESIGN CHOICE: log 207.) -/
def Hub.setCtl (h : Hub) (o : Nat) (lvl : Bool) (u : Nat) : Hub :=
  if h.obeys (o / 4) then h.orderCtl o lvl (h.outFrom u) else h

/-- The level an output has, or is ordered to have next. -/
def Hub.ctlNext (h : Hub) (o : Nat) : Bool :=
  match (h.ctl o).edge with
  | some e => e.1
  | none => h.bit (Obj.ctlStatus o) 0

/-- The enabled loop that names a control output. -/
def Hub.ctlLoop (h : Hub) (o : Nat) : Option Nat :=
  (List.range 32).find? (fun l => h.flag (Obj.loopEnable l) &&
    (((h.get (Obj.loopOutputKind l) = 1 || h.get (Obj.loopOutputKind l) = 2) && h.get (Obj.loopOutputA l) = o) ||
      (h.get (Obj.loopOutputKind l) = 2 && h.get (Obj.loopOutputB l) = o)))

/-- The loop of a PAIR that an output belongs to, and the pair's other output. -/
def Hub.ctlPair (h : Hub) (o : Nat) : Option (Nat × Nat) :=
  match h.ctlLoop o with
  | some l =>
    let a := h.get (Obj.loopOutputA l)
    if h.get (Obj.loopOutputKind l) = 2 then some (l, if a = o then h.get (Obj.loopOutputB l) else a) else none
  | none => none

/-- The level at which an output rests: SAFE_LEVEL, but neither output of a PAIR where both are given 1, since a PAIR never has both
on (R272, R281). (DESIGN CHOICE: log 163.) -/
def Hub.ctlRestLevel (h : Hub) (o : Nat) : Bool :=
  h.flag (Obj.ctlSafeLevel o) && !(match h.ctlPair o with
    | some (_, p) => h.flag (Obj.ctlSafeLevel p)
    | none => false)

/-- Outputs go to their safe levels at instant `u`, whatever the arbiters select; one of a PAIR whose partner was on rises only a
cycle of its loop later (R55, R272, R281). `was` is the hub before. -/
def Hub.ctlRest (h was : Hub) (l : List Nat) (u : Nat) : Hub :=
  h.forEach l (fun o h =>
    let h := h.modCtl o (fun v => { v with pulseEnd := none, edge := none })
    let lvl := was.ctlRestLevel o
    match was.ctlPair o with
    | some (n, p) =>
      if lvl && was.bit (Obj.ctlStatus p) 0 then
        let e := u + h.get (Obj.loopCycle n) * uFrame
        (h.putCtl o false u).modCtl o (fun v => { v with edge := some (true, e) })
      else h.putCtl o lvl u
    | none => h.putCtl o lvl u)

/-- Every control output goes to its safe level at instant `u`. -/
def Hub.ctlSafe (h : Hub) (u : Nat) : Hub := h.ctlRest h (List.range 16) u

/-- The changes ordered for instants up to `t` take effect: those of the loops' cycles of the frame before (R264), the rise of an
output whose PAIR has been off for a cycle (R272), and what a new Lead has commanded since a hand-over (R328). -/
def Hub.ctlRise (h : Hub) (t : Nat) : Hub :=
  h.forEach (List.range 16) (fun o h =>
    match (h.ctl o).edge with
    | some (lvl, e) => if e ≤ t then (h.modCtl o (fun v => { v with edge := none })).putCtl o lvl e else h
    | none => h)

/-- The outputs of a FE die that becomes FAILED are unpowered (R281). -/
def Hub.ctlDead (h : Hub) (f : Nat) : Hub :=
  h.forEach (List.range 4) (fun j h =>
    let o := f * 4 + j
    ((h.modCtl o (fun v => { v with pulseEnd := none, edge := none })).putBit (Obj.ctlStatus o) 0 false).putBit
      (Obj.ctlStatus o) 1 false)

/-- The output is a start source of some core (R132). -/
def Hub.ctlIsSource (h : Hub) (o : Nat) : Bool :=
  (List.range 12).any (fun c => h.injKind (o / 4 * 12 + c) = 2 && h.injNumber (o / 4 * 12 + c) = o % 4)

/-- A write within 1 ms after the previous one to the same object (R370). -/
def within1ms (h : Hub) (last : Option Nat) : Bool :=
  match last with
  | some t => decide (h.time.ticks < t + tMs)
  | none => false

/-- Why a write of HOST_LEVEL is refused (R370), 0 when it is accepted. -/
def Hub.hostLevelRefusal (h : Hub) (o : Nat) : Nat :=
  if h.ctlIsSource o && within1ms h (h.ctl o).hostAt then Abort.busy else 0

/-- HOST_LEVEL in force at the raw-frame boundary. -/
def Hub.applyHostLevel (h : Hub) (mb : ModeBlock) (o : Nat) : Hub :=
  if mb.drives && h.get (Obj.ctlSource o) = 0 then h.setCtl o (h.flag (Obj.ctlHostLevel o)) h.boundary else h

/-- A fire of cue `c` at instant `u` reaches the outputs that follow it (R280). -/
def Hub.ctlCue (h : Hub) (c u : Nat) : Hub :=
  h.forEach (List.range 16) (fun o h =>
    if h.get (Obj.ctlSource o) ≠ 2 || h.get (Obj.ctlCue o) ≠ c then h else
    match h.get (Obj.ctlCueAction o) with
    | 0 =>
      let e := u + h.get (Obj.ctlPulseWidth o) * 4 * 65536
      (h.modCtl o (fun v => { v with pulseEnd := some e })).setCtl o true u
    | 1 => (h.modCtl o (fun v => { v with pulseEnd := none })).setCtl o true u
    | 2 => (h.modCtl o (fun v => { v with pulseEnd := none })).setCtl o false u
    | _ => (h.modCtl o (fun v => { v with pulseEnd := none })).setCtl o (!h.ctlNext o) u)

/-- A cue-driven pulse reaches PULSE_WIDTH and ends (R280). -/
def execCtlPulseEnd (o : Fin 16) (s : State) : Host.Outcome State Fault Refusal :=
  onHubM (fun _ h =>
    match (h.ctl o).pulseEnd with
    | none => h
    | some e =>
      let h := h.waitFor 0 e
      (h.modCtl o (fun v => { v with pulseEnd := none })).setCtl o false e) s

/-- An output has stayed in its current limit for 10 µs, `dt` ticks on: high impedance, LATCHED, CTL_FAULT and the driving
loop's OUTPUT_LOST (R281). -/
def execCtlFault (o : Fin 16) (dt : Nat) (s : State) : Host.Outcome State Fault Refusal :=
  onHubM (fun mb h =>
    if !mb.up || !h.feUp (o / 4) || h.bit (Obj.ctlStatus o) 3 then h else
    let h := h.waitTicks dt
    let now := h.time.ticks
    let h := h.modCtl o (fun v => { v with latchedAt := now })
    let h := ((h.putBit (Obj.ctlStatus o) 2 false).putBit (Obj.ctlStatus o) 3 true).refreshBall o
    let h := h.log 0x0904 2 (srcFe (o / 4)) o
    match h.ctlLoop o with
    | some l => h.putBit (Obj.loopStatus l) 7 true
    | none => h) s

/-- FAULT_CLEAR written 1 to a control output: it is released at the raw-frame boundary, and its ball is driven again (R281). -/
def Hub.applyCtlFaultClear (h : Hub) (o : Nat) : Hub :=
  if !h.bit (Obj.ctlStatus o) 3 then h else
  let ms := satNat (2 ^ 32 - 1) ((h.time.ticks - (h.ctl o).latchedAt) / tMs)
  let h := (h.putBit (Obj.ctlStatus o) 3 false).refreshBall o
  let h := h.emit (.pin (ctlPin o) (h.bit (Obj.ctlStatus o) 1) h.boundary)
  let h := match h.ctlLoop o with
    | some l => h.putBit (Obj.loopStatus l) 7 false
    | none => h
  h.log 0x0905 0 (srcFe (o / 4)) (o + ms * 2 ^ 32)

/-! ### Cost and schedule (R265, R266) -/

/-- The cost of a cycle of loop l (Table 9.1). -/
def Hub.loopCost (h : Hub) (l : Nat) : Nat :=
  1 + h.get (Obj.genGenEnable l) + b2n (h.get (Obj.injInjKind l) ≠ 0)

/-- Loop l is due in frame n (R263). -/
def Hub.loopDue (h : Hub) (l n : Nat) : Bool :=
  h.flag (Obj.loopEnable l) && n ≥ h.get (Obj.loopPhase l) && (n - h.get (Obj.loopPhase l)) % h.get (Obj.loopCycle l) = 0

/-- The loops due in frame n by (PRIORITY, l). -/
def Hub.loopsDue (h : Hub) (n : Nat) : List Nat :=
  (List.range 8).flatMap (fun p => (List.range 32).filter (fun l => h.get (Obj.loopPriority l) = p && h.loopDue l n))

/-- The schedule of a frame with `left` units: each due loop with whether it is evaluated (R266). (DEDUCED: log 100.) -/
def schedule (cost : Nat → Nat) : Nat → List Nat → List (Nat × Bool) × Nat
  | left, [] => ([], left)
  | left, l :: ls =>
    if cost l > left then
      let r := schedule cost left ls
      ((l, false) :: r.1, r.2)
    else
      let r := schedule cost (left - cost l) ls
      ((l, true) :: r.1, r.2)

/-! ### Outputs of a loop (R272) -/

/-- The control outputs that a loop drives. -/
def Hub.loopBalls (h : Hub) (l : Nat) : List Nat :=
  let a := h.get (Obj.loopOutputA l)
  match h.get (Obj.loopOutputKind l) with
  | 1 => [a] | 2 => [a, h.get (Obj.loopOutputB l)] | _ => []

/-- The safe level of a loop's output. -/
def Hub.loopSafeO (h : Hub) (l : Nat) : Nat :=
  match h.get (Obj.loopOutputKind l) with
  | 1 => h.get (Obj.ctlSafeLevel (h.get (Obj.loopOutputA l)))
  | 2 =>
    let a := h.get (Obj.ctlSafeLevel (h.get (Obj.loopOutputA l)))
    let b := h.get (Obj.ctlSafeLevel (h.get (Obj.loopOutputB l)))
    if a = 1 && b = 0 then 2 else if a = 0 && b = 1 then 0 else 1
  | 3 => h.get (Obj.loopSafeTarget l)
  | _ => 0

/-- The output a level stands for (Table 9.3). -/
def Hub.loopMap (h : Hub) (l level : Nat) : Nat :=
  match h.get (Obj.loopOutputKind l) with
  | 1 => if level = 2 then 1 else 0
  | 2 => level
  | 3 => field (h.get (Obj.loopLevelValues l)) (10 * level) 10
  | _ => 0

/-- The output of a PAIR that can be driven now: where the one asked for needs an output on whose partner is on, both off for a
cycle (R272). (DEDUCED: log 100.) -/
def Hub.pairNow (h : Hub) (l o : Nat) : Nat :=
  let on (k : Nat) : Bool := h.bit (Obj.ctlStatus k) 0
  if h.get (Obj.loopOutputKind l) = 2 &&
      ((o = 2 && on (h.get (Obj.loopOutputB l))) || (o = 0 && on (h.get (Obj.loopOutputA l)))) then 1 else o

/-- The loop's output `o` takes effect at instant `u`; a string follows OUTPUT a frame later (R264). (DEDUCED: log 100.) -/
def Hub.loopDrive (h : Hub) (l o u : Nat) : Hub :=
  let o := h.pairNow l o
  let h := h.put (Obj.loopOutput l) o
  let a := h.get (Obj.loopOutputA l)
  let b := h.get (Obj.loopOutputB l)
  match h.get (Obj.loopOutputKind l) with
  | 1 => h.setCtl a (o = 1) u
  | 2 => (h.setCtl a (o = 2) u).setCtl b (o = 0) u
  | _ => h

/-- In OFF and SAFE the outputs stand at their safe levels (R281). -/
def Hub.loopDriveSafe (h : Hub) (l u : Nat) : Hub := h.loopDrive l (h.loopSafeO l) u

/-! ### Loop states (R276, Table 9.4) -/

/-- The mode is a law mode. -/
def lawMode (m : Nat) : Bool := m = 2 || m = 3 || m = 4

/-- The generator is in use in a mode, with TUNE_BASE `tb` (R275). -/
def genUsed (m tb : Nat) : Bool := m = 3 || (m = 4 && tb = 1)

/-- A state change with its record. -/
def Hub.setLoopState (h : Hub) (l st : Nat) : Hub :=
  let old := h.get (Obj.loopLoopState l)
  if old = st then h else (h.put (Obj.loopLoopState l) st).log 0x0901 0 srcPkg (l + old * 256 + st * 4096)

/-- No law governs the loop any more: no hand-over value and no change held back (Table 9.11). -/
def Hub.lawEnd (h : Hub) (l : Nat) : Hub :=
  let h := h.modLoop l (fun v => { v with held := false })
  let h := ((h.putBit (Obj.loopStatus l) 2 false).putBit (Obj.loopStatus l) 3 false).putBit (Obj.loopStatus l) 4 false
  h.putBit (Obj.loopLevel l) 2 false

/-- Injection stops: INJ_STATE IDLE, u = 0. -/
def Hub.injStop (h : Hub) (l : Nat) : Hub :=
  let h := h.modLoop l (fun v => { v with injFire := none, injGo := false, u := 0, injEnd := false })
  ((h.put (Obj.injInjState l) 0).put (Obj.injInjValue l) 0).putBit (Obj.loopStatus l) 6 false

/-- A trace buffer starts (R285). -/
def Hub.traceStart (h : Hub) (b u : Nat) : Hub :=
  let h := h.modTrace b (fun _ => {})
  ((((h.put (Obj.traceTraceState b) 2).put (Obj.traceTraceCount b) 0).put (Obj.traceTraceOverruns b) 0).put
    (Obj.traceTraceStartTime b) (time96 u 0))

/-- Injection cycle 0 of loop l is at `u`: traces bound to it start. -/
def Hub.injBegin (h : Hub) (l u : Nat) : Hub :=
  let n := h.get (Obj.injPrbsN l)
  let h := h.modLoop l (fun v => { v with lfsr := 2 ^ n - 1, phase := 0, injFire := none, injGo := false })
  let h := ((h.put (Obj.injInjState l) 2).put (Obj.injInjIndex l) 0).put (Obj.injInjStartTime l) (time96 u 0)
  h.forEach (List.range 8) (fun b h =>
    if h.get (Obj.traceTraceStart b) = 0 && h.get (Obj.traceTraceLoop b) = l then h.traceStart b u else h)

/-- TUNE is entered at the cycle of instant `u`: the injection waits for its start (R282). -/
def Hub.tuneEnter (h : Hub) (l u : Nat) : Hub :=
  let h := h.modLoop l (fun v => { v with tuneAt := u, injFire := none, injGo := false, injEnd := false })
  h.put (Obj.injInjState l) 1

/-- The generator leaves use: SETPOINT := p, unless it has not taken its first step yet. -/
def Hub.genLeave (h : Hub) (l : Nat) : Hub :=
  if (h.loop l).genInit.isSome then h.modLoop l (fun v => { v with genInit := none })
  else h.put (Obj.loopSetpoint l) (h.get (Obj.genGenPos l))

/-- A loop goes from state `old` to mode `new` at the cycle of instant `u` (Table 9.4). (DEDUCED: log 99.) -/
def Hub.loopChange (h : Hub) (l old new u : Nat) : Hub :=
  let tb := h.get (Obj.loopTuneBase l)
  let h := if old = 4 && new ≠ 4 then h.injStop l else h
  let h := if genUsed old tb && !genUsed new tb && (new = 1 || lawMode new) then h.genLeave l else h
  let h := if old = 5 then h.put (Obj.loopSafeCause l) 0 else h
  let h := if lawMode old && !lawMode new then h.lawEnd l else h
  let o := h.get (Obj.loopOutput l)
  let h := match new with
    | 0 => h.put (Obj.loopOutput l) (h.loopSafeO l)
    | 1 => h.put (Obj.loopManualOutput l) o
    | _ =>
      let h := if lawMode old then h else h.modLoop l (fun v => { v with held := true, oHold := o })
      let h := if genUsed new tb && !genUsed old tb then h.modLoop l (fun v => { v with genInit := some true }) else h
      if new = 4 && old ≠ 4 then h.tuneEnter l u else h
  h.setLoopState l new

/-- Why a LOOP_MODE would be refused (R276), 0 when it is allowed. -/
def Hub.loopModeRefusal (h : Hub) (l m : Nat) : Nat :=
  let gen := h.flag (Obj.genGenEnable l)
  if (m = 3 && !gen) || (m = 4 && h.get (Obj.injInjKind l) = 0) || (m = 4 && h.get (Obj.loopTuneBase l) = 1 && !gen) ||
      (m ≠ 0 && !h.flag (Obj.loopEnable l)) then Abort.loopConfigInvalid else 0

/-- LOOP_MODE in force at the start of the loop's cycle of instant `u` (R276). A STOPPED loop takes it at the next run start. -/
def Hub.applyLoopMode (h : Hub) (l m u : Nat) : Hub :=
  let st := h.get (Obj.loopLoopState l)
  if st = 6 || st = m || (m ≠ 0 && !h.flag (Obj.loopEnable l)) then h else h.loopChange l st m u

/-- Why a MANUAL_OUTPUT is refused (R276, Table 9.3). -/
def Hub.manualRefusal (h : Hub) (l v : Nat) : Nat :=
  if h.get (Obj.loopLoopState l) ≠ 1 then Abort.loopWrongMode
  else
    let top := match h.get (Obj.loopOutputKind l) with
      | 1 => 1 | 2 => 2 | 3 => 1023 | _ => 0
    if v > top then Abort.valueOutOfRange else 0

/-- Why a TUNE_BASE is refused (R276). -/
def Hub.tuneBaseRefusal (h : Hub) (l v : Nat) : Nat :=
  if v = 1 && h.get (Obj.loopLoopMode l) = 4 && !h.flag (Obj.genGenEnable l) then Abort.loopConfigInvalid else 0

/-- TUNE_BASE changed under TUNE: the generator comes into use or leaves it. `old` is the value before. -/
def Hub.applyTuneBase (h : Hub) (l old : Nat) : Hub :=
  let new := h.get (Obj.loopTuneBase l)
  if h.get (Obj.loopLoopState l) ≠ 4 || old = new then h
  else if new = 1 then h.modLoop l (fun v => { v with genInit := some true }) else h.genLeave l

/-- INJ_GO written 1 (R282). -/
def Hub.applyInjGo (h : Hub) (l : Nat) : Hub := h.modLoop l (fun v => { v with injGo := true })

/-! ### Writes that wait for a loop's cycle (R264, R276) -/

/-- The loop of an object that takes effect at a loop's cycle (Table 1.4). -/
def liveLoop (k : Nat) : Option Nat :=
  let i := k / 256
  if 0x6000 ≤ i && i < 0x6020 then some (i - 0x6000)
  else if 0x6100 ≤ i && i < 0x6120 then some (i - 0x6100)
  else if 0x6120 ≤ i && i < 0x6140 then some (i - 0x6120) else none

/-- The loop has cycles to wait for: it is enabled and the hub drives its outputs. -/
def Hub.loopCycles (h : Hub) (mb : ModeBlock) (l : Nat) : Bool :=
  mb.drives && h.flag (Obj.loopEnable l) && h.get (Obj.loopLoopState l) ≠ 6

/-- A value joins those that wait for the loop's cycle. (DEDUCED: log 42.) -/
def Hub.deferLoop (h : Hub) (l k v : Nat) : Hub :=
  let late := if h.srv.appliedAt = some h.time.ticks then h.now 0 + 1 else 0
  { h with srv := { h.srv with loopLive := h.srv.loopLive ++ [{ loop := l, key := k, val := v, from_ := late }] } }

/-- A staged value of a loop's object joins the writes that wait for the loop's next cycle where that cycle, or the end of the loop,
is at the cue point `u`: live writes come into force first and the staged value second (R41). (DEDUCED: log 42.) -/
def Hub.stagedLast (h : Hub) (u k : Nat) : Hub :=
  match liveLoop k with
  | none => h
  | some l =>
    let n := u / uFrame
    let here := u % uFrame = 0 && h.eng.frame ≤ n && n ≥ h.get (Obj.loopPhase l) &&
      (n - h.get (Obj.loopPhase l)) % h.get (Obj.loopCycle l) = 0
    if h.srv.loopLive.any (fun w => w.loop = l) && k ≠ Obj.loopLoopMode l && (here || !h.flag (Obj.loopEnable l)) then
      { h with srv := { h.srv with loopLive := h.srv.loopLive ++ [{ loop := l, key := k, val := h.get k }] } }
    else h

/-- The response to the write that has just joined them waits with it. -/
def Hub.holdLoopWrite (h : Hub) (l : Nat) (r : SrvReq) : Hub :=
  { h with srv := { h.srv with loopLive := (h.srv.loopLive.reverse.modify
      (h.srv.loopLive.reverse.findIdx (fun w => w.loop = l)) (fun w => { w with req := some r })).reverse } }

/-- A value of a loop's object comes into force at the cycle of instant `u`. -/
def Hub.loopValue (h : Hub) (k v u : Nat) : Hub :=
  let l := (liveLoop k).getD 0
  let old := h.get k
  let h := h.put k v
  if k = Obj.loopLoopMode l then h.applyLoopMode l v u
  else if k = Obj.loopTuneBase l then h.applyTuneBase l old else h

/-- A waiting write comes into force and is answered; `safe` says that a SAFE cause falls on the same cycle, against which a
LOOP_MODE has no effect. -/
def Hub.loopWrite (h : Hub) (safe : Bool) (u : Nat) (w : LoopWrite) : Hub :=
  let h := if safe && w.key = Obj.loopLoopMode w.loop then h else h.loopValue w.key w.val u
  match w.req with
  | some r => h.releaseHeld r 0
  | none => h

/-- The waiting writes of loop l for which `p` holds come into force in their order (R42). (DEDUCED: log 42.) -/
def Hub.loopWrites (h : Hub) (l : Nat) (p : LoopWrite → Bool) (safe : Bool) (u : Nat) : Hub :=
  let now := h.srv.loopLive.filter (fun w => w.loop = l && p w)
  let h := { h with srv := { h.srv with loopLive := h.srv.loopLive.filter (fun w => !(w.loop = l && p w)) } }
  h.forEach now (fun w h => h.loopWrite safe u w)

/-- A value of a loop's object is written: at once where the loop has no cycles, otherwise at its next cycle.
(DEDUCED: log 42.) -/
def Hub.loopPut (h : Hub) (mb : ModeBlock) (l k v : Nat) : Hub :=
  if h.loopCycles mb l then h.deferLoop l k v else h.loopValue k v (h.now 0)

/-- What a loop keeps when it begins anew: its overrun log, which R278 limits by time alone, and with `hist` its values (R270). -/
def LoopSt.fresh (v : LoopSt) (hist : Bool) : LoopSt := { overLog := v.overLog, vhist := if hist then v.vhist else [] }

/-- All loops stop: the hub leaves RUN, RUN-SIMPLEX and HOLD (Table 9.4). Writes that waited for a cycle come into force. -/
def Hub.loopsStop (h : Hub) (u : Nat) : Hub :=
  let h := h.forEach (List.range 32) (fun l h =>
    let h := if h.get (Obj.loopLoopState l) = 6 then h else
      let h := (h.injStop l).lawEnd l
      let h := (h.put (Obj.loopOutput l) (h.loopSafeO l)).setLoopState l 6
      h.modLoop l (fun v => { v.fresh true with strO := h.get (Obj.loopSafeTarget l) })
    h.loopWrites l (fun _ => true) false u)
  h.ctlSafe u

/-- Loops start in their configured modes at a run cue `u` (Table 9.4). -/
def Hub.loopsStart (h : Hub) (u : Nat) : Hub :=
  let h := { h with eng := { h.eng with frame := ceilDiv u uFrame } }
  let h := h.forEach (List.range 16) (fun o h =>
    let h := h.modCtl o (fun v => { v with edge := none })
    if h.get (Obj.ctlSource o) = 0 then h.setCtl o (h.flag (Obj.ctlHostLevel o)) u else h)
  h.forEach (List.range 32) (fun l h =>
    let safe := h.get (Obj.loopSafeTarget l)
    if !h.flag (Obj.loopEnable l) then (h.modLoop l (fun v => { v.fresh false with strO := safe })).setLoopState l 0
    else
      let m := h.get (Obj.loopLoopMode l)
      let o := h.loopSafeO l
      let h := h.modLoop l (fun v => { v.fresh false with held := lawMode m, oHold := o, genInit := some false, strO := safe })
      let h := (h.put (Obj.loopOutput l) o).setLoopState l m
      if m = 4 then h.tuneEnter l u else if m = 1 then h.put (Obj.loopManualOutput l) o else h)

/-- A loop enters its SAFE state (R278, Table 9.4). -/
def Hub.loopSafe (h : Hub) (l : Nat) : Hub :=
  let c := (h.loop l).safeDue
  let st := h.get (Obj.loopLoopState l)
  let h := h.modLoop l (fun v => { v with safeDue := 0 })
  if c = 0 || st = 5 || st = 6 then h else
  let h := if st = 4 then h.injStop l else h
  let u := uOfTime96 (h.get (Obj.loopLastCycle l)) + uFrame
  let h := (h.put (Obj.loopSafeCause l) c).setLoopState l 5
  let h := h.lawEnd l
  (h.loopDriveSafe l u).logAt (h.get (Obj.loopLastCycle l)) 0x0903 2 srcPkg (l + c * 256)

/-- An injection has reached INJ_DURATION cycles (R282). -/
def Hub.injDone (h : Hub) (l : Nat) : Hub :=
  if !(h.loop l).injEnd then h else
  let h := (h.modLoop l (fun v => { v with injEnd := false, u := 0 })).putBit (Obj.loopStatus l) 6 false
  let n := h.get (Obj.injInjIndex l)
  ((h.put (Obj.injInjState l) 3).put (Obj.injInjValue l) 0).log 0x0906 0 srcPkg (l + n * 256)

/-- A ONE_SHOT buffer has reached TRACE_LENGTH words (R285). -/
def Hub.traceFull (h : Hub) (b : Nat) : Hub :=
  if !(h.trace b).full then h else
  let h := h.modTrace b (fun v => { v with full := false })
  (h.put (Obj.traceTraceState b) 3).log 0x0907 0 srcPkg (b + h.get (Obj.traceTraceCount b) * 2 ^ 32)

/-- A loop enters SAFE. -/
def execLoopSafe (l : Fin 32) (s : State) : Host.Outcome State Fault Refusal := onHubM (fun _ h => h.loopSafe l) s

/-- A loop's injection is done. -/
def execInjectionDone (l : Fin 32) (s : State) : Host.Outcome State Fault Refusal := onHubM (fun _ h => h.injDone l) s

/-- A trace buffer is full. -/
def execTraceFull (b : Fin 8) (s : State) : Host.Outcome State Fault Refusal := onHubM (fun _ h => h.traceFull b) s

/-! ### Inputs (R267 to R270) -/

/-- The latest record of channel n whose availability instant is at or before `t`. -/
def Hub.injAvailable (h : Hub) (n t : Nat) (p : OutRec → Bool) : Option OutRec :=
  match h.injOuts.find? (fun e => e.1 = n) with
  | some e => (e.2.find? (fun r => r.1 ≤ t && p r.2)).map (·.2)
  | none => none

/-- No hub die could compute the output (R48). -/
def OutRec.lostBoth (r : OutRec) : Bool := r.lost0 && r.lost1

/-- The value of the latest good record, suspect by its own tags or where a later one has been lost. -/
def loopValueOf (good last : Option OutRec) : Option (Int × Bool) :=
  good.map (fun r => (outValue r.word, suspectWord r.word || (last.map OutRec.lostBoth).getD false))

/-- The newest value of MEASURE available at `t` with whether it is suspect (R268, R269); none where its source has produced none
yet. No value that R47 substitutes is among them. (DESIGN CHOICE: log 101.) -/
def Hub.loopInput (h : Hub) (l t : Nat) : Option (Int × Bool) :=
  let m := h.get (Obj.loopMeasure l)
  let n := field m 0 12
  let latest (o : List (Nat × OutRec)) : Option OutRec := (o.find? (fun e => e.1 = n)).map (·.2)
  match field m 12 2 with
  | 0 => loopValueOf (latest h.loopOuts) (latest h.outs)
  | 1 => loopValueOf (h.injAvailable n t (fun r => !r.lostBoth)) (h.injAvailable n t (fun _ => true))
  | _ =>
    let d := h.det n
    let due := d.gap && (h.get (Obj.detType n) ≥ 3 || d.cnt + 1 ≥ h.detLength n)
    if h.bit (Obj.detStatus n) 1 then some (h.getI 32 (Obj.detResultA n), h.bit (Obj.detStatus n) 0 || due) else none

/-- The FE die behind MEASURE; none behind a detector on a forwarded channel. -/
def Hub.loopFe (h : Hub) (l : Nat) : Option Nat :=
  let m := h.get (Obj.loopMeasure l)
  let n := if field m 12 2 = 2 then h.get (Obj.detSource (field m 0 12)) else field m 0 12
  if n < 384 then some (n / 96) else if n < 528 then some ((n - 384) / 36) else none

/-- v̂ of R270 from the history of entered values: cycle number and value. Where a change of CYCLE has given two of them one cycle
number the quotient has no value, and the estimate is free. (DESIGN CHOICE: log 164.) -/
def Hub.velocity (h : Hub) (hist : List (Nat × Int)) (w : Nat) : Int × Hub :=
  match hist[0]?, hist[w]? with
  | some a, some b =>
    let c : Int := (a.1 : Int) - b.1
    if c = 0 then h.drawInt
    else (divRoundAway (if c > 0 then (a.2 - b.2) * q32 else (b.2 - a.2) * q32) c.natAbs, h)
  | _, _ => (0, h)

/-! ### The blocking generator (R274, R275) -/

/-- V_c, A_c and J_c of a loop: the limits per cycle in 2⁻³². -/
def perCycle (limit cycle pow : Nat) : Int := divRoundUp (limit * cycle ^ pow : Nat) (100000 ^ pow)

def Hub.genLimits (h : Hub) (l : Nat) : Int × Int × Int :=
  let c := h.get (Obj.loopCycle l)
  (perCycle (h.get (Obj.genVMax l)) c 1, perCycle (h.get (Obj.genAMax l)) c 2, perCycle (h.get (Obj.genJMax l)) c 3)

/-- The generator's registers. -/
structure GenRegs where
  p : Int
  v : Int
  a : Int
  /-- The step arrived; the velocity before it did. -/
  snap : Option Int
deriving DecidableEq, Repr

/-- One step toward TARGET (R275). -/
def genStep (p v a target vc ac jc : Int) : GenRegs :=
  let d := target - p
  let s : Int := if d ≥ 0 then 1 else -1
  let dr := max 0 ((d.natAbs : Int) - q32Div (q32Mul v.natAbs ac) jc)
  let root : Int := (sqrtNearest ((q32Mul (2 * ac) dr).toNat * 2 ^ 32) 1 : Nat)
  let vr := s * min vc root
  let ar := clampInt (-ac) ac (vr - v)
  let a := a + clampInt (-jc) jc (ar - a)
  let v := clampInt (-vc) vc (v + a)
  let pn := p + v
  if (pn - target) * s ≥ 0 then ⟨target, 0, 0, some v⟩ else ⟨pn, v, a, none⟩

/-- The generator's step of a cycle: its position becomes the set-point. -/
def Hub.genAdvance (h : Hub) (l : Nat) (pv vhat : Int) : Int × Hub :=
  let lim := h.genLimits l
  let h := match (h.loop l).genInit with
    | none => h
    | some withV =>
      let v0 := if withV then clampInt (-lim.1) lim.1 vhat else 0
      (((h.putI 64 (Obj.genGenPos l) (pv * q32)).putI 64 (Obj.genGenVel l) v0).putI 64 (Obj.genGenAcc l) 0).modLoop l
        (fun v => { v with genInit := none })
  let p := h.getI 64 (Obj.genGenPos l)
  let v := h.getI 64 (Obj.genGenVel l)
  let t := h.getI 64 (Obj.genTarget l)
  let r := genStep p v (h.getI 64 (Obj.genGenAcc l)) t lim.1 lim.2.1 lim.2.2
  let h := ((h.putI 64 (Obj.genGenPos l) r.p).putI 64 (Obj.genGenVel l) r.v).putI 64 (Obj.genGenAcc l) r.a
  let h := match r.snap with
    | some w => if p = t && v = 0 then h else (h.putI 64 (Obj.genLastSnap l) w).bump (Obj.genArrivals l)
    | none => h
  (r.p, h.putBit (Obj.loopStatus l) 5 (r.p ≠ t))

/-! ### Test signals (R282, R283) -/

/-- The taps of Table 9.6. -/
def prbsTaps (n : Nat) : List Nat :=
  match n with
  | 7 => [7, 6] | 8 => [8, 6, 5, 4] | 9 => [9, 5] | 10 => [10, 7] | 11 => [11, 9] | 12 => [12, 6, 4, 1]
  | 13 => [13, 4, 3, 1] | 14 => [14, 5, 3, 1] | 15 => [15, 14] | _ => [n]

/-- One advance of the register: bit j − 1 is s[j]. -/
def prbsNext (n r : Nat) : Nat :=
  let fb := ((prbsTaps n).foldl (fun acc j => acc + b2n (bitOf r (j - 1))) 0) % 2
  r * 2 % 2 ^ n + fb

/-- The sine of a fraction `f`/2³² of a turn by its series about 0, after folding to a quarter turn; exact to within 2⁻²⁴. -/
def sineTurn (f : Nat) : Rat :=
  let f : Nat := f % 2 ^ 32
  let neg := decide (f ≥ 2 ^ 31)
  let g : Nat := f % 2 ^ 31
  let g : Nat := if g > 2 ^ 30 then 2 ^ 31 - g else g
  let x : Rat := (g : Rat) / (2 ^ 32 : Nat) * 6283185307179586 / 1000000000000000
  let x2 := x * x
  let y := x * (1 - x2 / 6 * (1 - x2 / 20 * (1 - x2 / 42 * (1 - x2 / 72 * (1 - x2 / 110 * (1 - x2 / 156))))))
  if neg then -y else y

/-- `a` times the sine or cosine value `y`, to within 2⁻²⁰ of `a` and otherwise open. (DESIGN CHOICE: log 102.) -/
def Hub.withinTol (h : Hub) (a y : Rat) : Rat × Hub :=
  let d := h.drawNat
  let e : Rat := ((d.1 % 1048577 : Nat) : Rat) / 1048576 - 1 / 2
  (a * y + a * e / 2097152, d.2)

/-- The largest number below 2 to the `b` that, added to `r`, keeps `p` true, added to `r`. -/
def largest (p : Nat → Bool) : Nat → Nat → Nat
  | 0, r => r
  | b + 1, r => if p (r + 2 ^ b) then largest p b (r + 2 ^ b) else largest p b r

/-- What the phase advances by in cycle i, in 2⁻³² of a turn (R283): f_i h with f_i = F_START (F_END / F_START)^(i / (K − 1)), the
floor of which is the largest whole x whose power K − 1 does not exceed that of f_i h; where it is no whole number, the rounding is
open. (DESIGN CHOICE: log 102.) -/
def Hub.sweepStep (h : Hub) (l i : Nat) : Nat × Hub :=
  let a := h.get (Obj.injSineFStart l)
  let b := h.get (Obj.injSineFEnd l)
  let n := h.get (Obj.injSineSweep l) - 1
  let c := h.get (Obj.loopCycle l) * 2 ^ 32
  let f (a b i n : Nat) : Nat × Hub :=
    let num := a ^ (n - i) * b ^ i * c ^ n
    let x := largest (fun x => x ^ n * 100000000 ^ n ≤ num) 33 0
    if x ^ n * 100000000 ^ n = num then (x, h)
    else
      let d := h.drawBool
      (x + b2n d.1, d.2)
  if i = 0 || a = b then f a a 1 1 else if i ≥ n then f b b 1 1 else f a b i n

/-- u of injection cycle i, and the registers advanced for the next (R283). (DESIGN CHOICE: log 102.) -/
def Hub.injValue (h : Hub) (l i : Nat) : Int × Hub :=
  let a := h.getI 32 (Obj.injInjAmplitude l)
  match h.get (Obj.injInjKind l) with
  | 1 => (a, h)
  | 2 => (if i / h.get (Obj.injSquareHalf l) % 2 = 0 then a else -a, h)
  | 3 =>
    let n := h.get (Obj.injPrbsN l)
    let r := (h.loop l).lfsr
    let r := if i ≠ 0 && i % h.get (Obj.injPrbsHold l) = 0 then prbsNext n r else r
    (if bitOf r (n - 1) then a else -a, h.modLoop l (fun v => { v with lfsr := r }))
  | 4 =>
    let ph := (h.loop l).phase
    let y := if ph = 0 then ((0 : Rat), h) else h.withinTol (a : Rat) (sineTurn ph)
    let f := y.2.sweepStep l i
    (ratRoundAway y.1, f.2.modLoop l (fun v => { v with phase := (ph + f.1) % 2 ^ 32 }))
  | _ => (0, h)

/-- The injection of a cycle at instant `t` (R282): its start, its value, and its end. -/
def Hub.injAdvance (h : Hub) (l t : Nat) : Int × Hub :=
  let v := h.loop l
  let start := h.get (Obj.injInjState l) = 1 && (match h.get (Obj.injInjStart l) with
    | 0 => true
    | 1 => (match v.injFire with
      | some u => decide (u ≤ t)
      | none => false)
    | _ => v.injGo)
  let h := if start then h.injBegin l t else h
  if h.get (Obj.injInjState l) ≠ 2 || (h.loop l).injEnd then (0, h)
  else
    let i := h.get (Obj.injInjIndex l)
    let n := h.get (Obj.injInjDuration l)
    if n ≠ 0 && i ≥ n then (0, h.modLoop l (fun v => { v with injEnd := true }))
    else
      let r := h.injValue l i
      (r.1, r.2.put (Obj.injInjIndex l) ((i + 1) % 2 ^ 32))

/-! ### The law and one cycle (R271, R273) -/

/-- The level the law demands. -/
def lawWant (three : Bool) (level : Nat) (pv sp lo hi : Int) : Nat :=
  let want := if pv < sp - lo then 2 else if pv > sp + hi then 0
    else if three && level = 2 && pv ≥ sp then 1 else if three && level = 0 && pv ≤ sp then 1 else level
  if three && ((level = 2 && want = 0) || (level = 0 && want = 2)) then 1 else want

/-- The dwell of a level in cycles. -/
def Hub.dwellMin (h : Hub) (l level : Nat) : Nat :=
  if level = 2 || (level = 0 && h.get (Obj.loopLaw l) = 1) then h.get (Obj.loopMinOn l) else h.get (Obj.loopMinOff l)

/-- Fewer than MAX_SWITCHES changes in the last RATE_WINDOW cycle instants. -/
def Hub.rateOk (h : Hub) (l : Nat) : Bool :=
  let m := h.get (Obj.loopMaxSwitches l)
  let v := h.loop l
  m = 0 || (v.changes.filter (fun c => v.cyc < c + h.get (Obj.loopRateWindow l))).length < m

/-- A change of level is made. (DEDUCED: log 99.) -/
def Hub.switchLevel (h : Hub) (l want : Nat) : Hub :=
  (h.modLoop l (fun v => { v with level := want, dwell := 0, changes := (v.cyc :: v.changes).take 65536 })).bump
    (Obj.loopSwitches l)

/-- A change is held back, by dwell or by rate: one count per change held back. -/
def Hub.deferChange (h : Hub) (l : Nat) (dwell rate : Bool) : Hub :=
  let was := h.bit (Obj.loopStatus l) 3 || h.bit (Obj.loopStatus l) 4
  let h := (h.putBit (Obj.loopStatus l) 3 dwell).putBit (Obj.loopStatus l) 4 rate
  h.when ((dwell || rate) && !was) (·.bump (Obj.loopDeferred l))

/-- The law of a cycle: the output before injection at OUTPUT. (DEDUCED: log 99.) -/
def Hub.lawCycle (h : Hub) (l : Nat) (pv sp lo hi : Int) : Nat × Hub :=
  let v := h.loop l
  let want := lawWant (h.get (Obj.loopLaw l) = 1) v.level pv sp lo hi
  let rate := h.rateOk l
  if v.held then
    if sp - lo ≤ pv && pv ≤ sp + hi then (v.oHold, h.deferChange l false false)
    else if want ≠ v.level && !rate then (v.oHold, h.deferChange l false true)
    else
      let h := h.deferChange l false false
      let h := h.modLoop l (fun v => { v with held := false })
      let h := if want ≠ v.level then h.switchLevel l want else h
      (h.loopMap l want, h)
  else if want = v.level then (h.loopMap l want, h.deferChange l false false)
  else
    let dwell := decide (v.dwell ≥ h.dwellMin l v.level)
    if dwell && rate then ((h.switchLevel l want).loopMap l want, (h.deferChange l false false).switchLevel l want)
    else (h.loopMap l v.level, h.deferChange l (!dwell) (dwell && !rate))

/-- The law modes' part of a cycle: set-point, injection, law, and the output (R273). -/
def Hub.lawEval (h : Hub) (l t : Nat) (st : Nat) (pv vhat : Int) : Nat × Hub :=
  let pvq := pv * q32
  let g := if genUsed st (h.get (Obj.loopTuneBase l)) then h.genAdvance l pv vhat
    else (h.getI 64 (Obj.loopSetpoint l), h.modLoop l (fun v => { v with genInit := none }))
  let j := if st = 4 then g.2.injAdvance l t else ((0 : Int), g.2)
  let h := j.2
  let u := j.1
  let point := h.get (Obj.injInjPoint l)
  let sp := if point = 0 then g.1 + u * q32 else g.1
  let lo : Int := h.get (Obj.loopBandLower l)
  let hi : Int := h.get (Obj.loopBandUpper l)
  let lo := if point = 1 then max 0 (lo + u) else lo
  let hi := if point = 1 then max 0 (hi + u) else hi
  let r := h.lawCycle l pvq sp (lo * q32) (hi * q32)
  let o := if point = 2 && h.get (Obj.loopOutputKind l) = 3 then (clampInt 0 1023 ((r.1 : Int) + u)).toNat else r.1
  let h := r.2.modLoop l (fun v => { v with u := u, err := sp - pvq, lo := lo.toNat, hi := hi.toNat })
  let h := ((h.putI 64 (Obj.loopSpEff l) sp).putI 32 (Obj.injInjValue l) u).putBit (Obj.loopStatus l) 6
    (h.get (Obj.injInjState l) = 2)
  (o, h)

/-- The value of a trace node as an exact rational (Table 9.7). -/
def Hub.nodeValue (h : Hub) (l node : Nat) : Rat :=
  let v := h.loop l
  let q (k : Nat) : Rat := (h.getI 64 k : Rat) / (2 ^ 32 : Nat)
  match node with
  | 0 => (h.getI 32 (Obj.loopPv l) : Rat)
  | 1 => q (Obj.loopPvVel l)
  | 2 => q (Obj.loopSpEff l)
  | 3 => (v.err : Rat) / (2 ^ 32 : Nat)
  | 4 => ((v.level + b2n v.held * 4 : Nat) : Rat)
  | 5 => (h.get (Obj.loopOutput l) : Rat)
  | 6 => (v.u : Rat)
  | 7 => q (Obj.genGenPos l)
  | 8 => q (Obj.genGenVel l)
  | 9 => q (Obj.genGenAcc l)
  | 10 => (v.lo : Rat)
  | 11 => (v.hi : Rat)
  | _ => (h.eng.load : Rat)

/-- A word is written into a recording buffer; a RING overwrites its oldest. -/
def Hub.traceWord (h : Hub) (b l t : Nat) : Hub :=
  let w := clampInt (-(2 ^ 31)) (2 ^ 31 - 1)
    (ratRoundAway (h.nodeValue l (h.get (Obj.traceTraceNode b)) * (2 ^ h.get (Obj.traceTraceShift b) : Nat)))
  let len := h.get (Obj.traceTraceLength b)
  let ws := (h.trace b).words
  let ring := h.get (Obj.traceTraceMode b) = 1
  let step := h.get (Obj.traceTraceDecimate b) * h.get (Obj.loopCycle l) * uFrame
  let full := ring && ws.length ≥ len
  let ws := if full then ws.drop 1 ++ [w] else ws ++ [w]
  let h := h.modTrace b (fun v => { v with
    words := ws, full := !ring && ws.length ≥ len
    bad := if full then (v.bad.filter (fun (e : Nat × Nat) => 0 < e.2)).map (fun (e : Nat × Nat) => (e.1, e.2 - 1)) else v.bad })
  let h := if full then h.put (Obj.traceTraceStartTime b) (time96 (t - (len - 1) * step) 0)
    else if ws.length = 1 then h.put (Obj.traceTraceStartTime b) (time96 t 0) else h
  h.put (Obj.traceTraceCount b) ws.length

/-- The buffers on loop l at the end of its cycle at `t` (R284, R285). -/
def Hub.traceCycle (h : Hub) (l t : Nat) (overrun : Bool) : Hub :=
  h.forEach (List.range 8) (fun b h =>
    if h.get (Obj.traceTraceLoop b) ≠ l then h else
    let h := match (h.trace b).fire with
      | some u => if u ≤ t then h.traceStart b t else h
      | none => h
    if h.get (Obj.traceTraceState b) ≠ 2 || (h.trace b).full then h else
    let h := h.when overrun (·.bump (Obj.traceTraceOverruns b))
    let k := (h.trace b).cycles
    let h := h.modTrace b (fun v => { v with cycles := v.cycles + 1 })
    if k % h.get (Obj.traceTraceDecimate b) = 0 then h.traceWord b l t else h)

/-- An output that loop l drives is latched off, or its FE die is FAILED (R281, R302). -/
def Hub.loopOutputLost (h : Hub) (l : Nat) : Bool :=
  let out (o : Nat) : Bool := h.bit (Obj.ctlStatus o) 3 || h.die (o / 4) ≥ 4
  let a := h.get (Obj.loopOutputA l)
  match h.get (Obj.loopOutputKind l) with
  | 1 => out a
  | 2 => out a || out (h.get (Obj.loopOutputB l))
  | 3 => h.bit (Obj.flStatus a) 4 || h.die (a / 2) ≥ 4
  | _ => false

/-- LEVEL, LAST_CYCLE, HELD and OUTPUT_LOST after a cycle. -/
def Hub.loopReport (h : Hub) (l t : Nat) : Hub :=
  let v := h.loop l
  let h := h.putBit (Obj.loopStatus l) 7 (h.loopOutputLost l)
  ((h.put (Obj.loopLevel l) (v.level + b2n v.held * 4)).put (Obj.loopLastCycle l) (time96 t 0)).putBit
    (Obj.loopStatus l) 2 v.held

/-- A cycle instant is counted. -/
def Hub.loopTick (h : Hub) (l : Nat) : Hub := h.modLoop l (fun v => { v with cyc := v.cyc + 1, dwell := v.dwell + 1 })

/-- The FE die behind the loop's input is FAILED (R269). -/
def Hub.loopLost (h : Hub) (l : Nat) : Bool :=
  match h.loopFe l with
  | some f => h.die f ≥ 4
  | none => false

/-- The loop holds its output on the cycle at `t`: INPUT_POLICY 1 and a suspect input. -/
def Hub.loopHolds (h : Hub) (l t : Nat) : Bool :=
  h.get (Obj.loopInputPolicy l) = 1 && (match h.loopInput l t with
    | some x => x.2
    | none => false)

/-- The SAFE cause that falls on the loop's cycle at `t`, evaluated or overrun; 0 for none (R269, R278). (DEDUCED: log 205.) -/
def Hub.loopCause (h : Hub) (l t : Nat) (run : Bool) : Nat :=
  let st := h.get (Obj.loopLoopState l)
  let lim := h.get (Obj.loopSuspectLimit l)
  if st = 5 || st = 6 then 0
  else if h.loopLost l then 3
  else if !run then if h.get (Obj.loopConsecOverruns l) + 1 ≥ h.get (Obj.loopOverrunLimit l) then 1 else 0
  else if h.loopHolds l t && lim ≠ 0 && (h.loop l).suspectRun + 1 ≥ lim then 2 else 0

/-- A cycle of loop l at instant `t` is evaluated (R269, R273). (DESIGN CHOICE: log 101.) -/
def Hub.loopEval (h : Hub) (l n t : Nat) : Hub :=
  let h := h.loopTick l
  let h := (h.put (Obj.loopConsecOverruns l) 0).putBit (Obj.loopStatus l) 0 false
  let h := h.put (Obj.loopLastCycle l) (time96 t 0)
  let st := h.get (Obj.loopLoopState l)
  if h.loopLost l then h.loopReport l t else
  let inp := match h.loopInput l t with
    | some x => (x, h)
    | none =>
      let d := h.drawInt
      ((clampInt (-outMax) outMax d.1, false), d.2)
  let h := inp.2
  let pv := inp.1.1
  let sus := inp.1.2
  let h := h.putBit (Obj.loopStatus l) 1 sus
  if sus && h.get (Obj.loopInputPolicy l) = 1 then
    let h := h.bump (Obj.loopSuspectCycles l)
    (h.modLoop l (fun v => { v with suspectRun := v.suspectRun + 1 })).loopReport l t
  else
    let w := h.get (Obj.loopVelWindow l)
    let k := n / h.get (Obj.loopCycle l)
    let h := h.modLoop l (fun v => { v with suspectRun := 0, vhist := ((k, pv) :: v.vhist).take 65 })
    let vhat := h.velocity (h.loop l).vhist w
    let h := (vhat.2.putI 32 (Obj.loopPv l) pv).putI 64 (Obj.loopPvVel l) vhat.1
    let h :=
      if st = 1 then h.loopDrive l (h.get (Obj.loopManualOutput l)) (t + uFrame)
      else if lawMode st then
        let r := h.lawEval l t st pv vhat.1
        r.2.loopDrive l r.1 (t + uFrame)
      else h
    h.loopReport l t

/-- A due cycle overruns: everything is held, and it counts (R266, R278). -/
def Hub.loopOverrun (h : Hub) (l t : Nat) : Hub :=
  let h := h.loopTick l
  let h := ((h.bump (Obj.loopOverruns l)).bump Obj.overrunsTotal).putBit (Obj.loopStatus l) 0 true
  let c := satNat 255 (h.get (Obj.loopConsecOverruns l) + 1)
  let h := (h.put (Obj.loopConsecOverruns l) c).put (Obj.loopLastCycle l) (time96 t 0)
  let now := h.time.ticks
  let logIt := match (h.loop l).overLog with
    | some k => decide (now ≥ k + tSec)
    | none => true
  let h := h.modLoop l (fun v => { v with overLog := if logIt then some now else v.overLog })
  if logIt then h.logAt (time96 t 0) 0x0902 1 srcPkg (l + h.eng.load * 256 + h.get (Obj.loopOverruns l) * 65536) else h

/-- The cycle of loop l in frame n at instant `t`: the writes that waited for it come into force in their order (R42), a LOOP_MODE
without effect where, under the values the others leave, a SAFE cause falls on the cycle (R264, R276); it is evaluated or overruns;
and in OFF and SAFE its outputs stand at their safe levels (R281). -/
def Hub.loopCycleAt (h : Hub) (l n t : Nat) (run : Bool) : Hub :=
  let cause := (h.loopWrites l (fun w => w.from_ ≤ t && w.key ≠ Obj.loopLoopMode w.loop) false t).loopCause l t run
  let h := h.loopWrites l (fun w => w.from_ ≤ t) (cause ≠ 0) t
  let h := h.putBit (Obj.loopStatus l) 8 (h.loopLost l)
  let h := if run then h.loopEval l n t else h.loopOverrun l t
  let h := if cause ≠ 0 then h.modLoop l (fun v => { v with safeDue := cause }) else h
  let st := h.get (Obj.loopLoopState l)
  (if st = 0 || st = 5 then h.loopDriveSafe l (t + uFrame) else h).traceCycle l t (!run)

/-- What earlier cycles have brought about and no step of its own has made yet; the outputs of the frame before reach the strings
(R264). -/
def Hub.loopsSettle (h : Hub) : Hub :=
  let h := h.forEach (List.range 32) (fun l h =>
    let h := (h.loopSafe l).injDone l
    h.modLoop l (fun v => { v with strO := h.get (Obj.loopOutput l) }))
  h.forEach (List.range 8) (fun b h => h.traceFull b)

/-- The loops of frame n at instant t (R266). -/
def Hub.loopFrame (h : Hub) (n t : Nat) : Hub :=
  let due := (h.loopsDue n).filter (fun l => h.get (Obj.loopLoopState l) ≠ 6)
  let r := schedule h.loopCost 40 due
  let load := 40 - r.2
  let h := { h with eng := { h.eng with load := load } }
  let h := h.put Obj.frameLoadMax (max (h.get Obj.frameLoadMax) load)
  h.forEach r.1 (fun e h => h.loopCycleAt e.1 n t e.2)

/-! ### Trace commands, cue fires and commits -/

/-- TRACE_GO written 1 or 0 (R285). -/
def Hub.applyTraceGo (h : Hub) (b v : Nat) : Hub :=
  if v = 1 then
    if h.get (Obj.traceTraceStart b) = 2 then h.traceStart b h.boundary
    else (h.modTrace b (fun _ => {})).put (Obj.traceTraceState b) 1
  else if h.get (Obj.traceTraceState b) = 1 || h.get (Obj.traceTraceState b) = 2 then
    (h.modTrace b (fun v => { v with full := false, fire := none })).put (Obj.traceTraceState b) 0
  else h

/-- The words of a buffer as the Lead serves them: one that its memory die has lost reads 0 (R473). -/
def Hub.traceWords (h : Hub) (b : Nat) : List Int :=
  let v := h.trace b
  v.bad.foldl (fun l e => if e.1 = h.leadDie then l.set e.2 0 else l) v.words

/-- TRACE_DATA: words oldest first from TRACE_READ_OFFSET, at most `max` bytes (R285). -/
def Hub.traceBytes (h : Hub) (b max : Nat) : List Nat :=
  (((h.traceWords b).flatMap (fun w => toBytes 4 (ofSigned 32 w))).drop (h.get (Obj.traceTraceReadOffset b))).take max

/-- A fire of cue c at instant `u` reaches injections that wait for it and traces, in any state: the buffer starts at the first
cycle instant at or after it (R282, R285). One that records goes on until then. -/
def Hub.loopCue (h : Hub) (c u : Nat) : Hub :=
  let h := h.forEach (List.range 32) (fun l h =>
    if h.get (Obj.injInjStart l) = 1 && h.get (Obj.injInjCue l) = c && h.get (Obj.injInjState l) = 1 &&
        (h.loop l).injFire.isNone && u ≥ (h.loop l).tuneAt then h.modLoop l (fun v => { v with injFire := some u })
    else h)
  h.forEach (List.range 8) (fun b h =>
    if h.get (Obj.traceTraceStart b) = 1 && h.get (Obj.traceTraceCue b) = c then
      let h := h.modTrace b (fun v => { v with fire := some u })
      if h.get (Obj.traceTraceState b) = 2 then h else h.put (Obj.traceTraceState b) 1
    else h)

/-- Outputs that a commit makes a PAIR while both are on go off (R272). -/
def Hub.pairBreak (h : Hub) (l u : Nat) : Hub :=
  let a := h.get (Obj.loopOutputA l)
  let b := h.get (Obj.loopOutputB l)
  if h.flag (Obj.loopEnable l) && h.get (Obj.loopOutputKind l) = 2 && h.ctlNext a && h.ctlNext b then
    (h.setCtl a false u).setCtl b false u
  else h

/-- A loop after a commit at cue point `u` (R274, R276, Table 9.4): `old` is the hub before it. A loop that stays disabled has
LOOP_MODE OFF; one that is enabled where loops run goes to its LOOP_MODE at its first cycle. (DEDUCED: log 103.) -/
def Hub.loopCommit (h old : Hub) (mb : ModeBlock) (u l : Nat) : Hub :=
  let wasOn := old.flag (Obj.loopEnable l)
  let on := h.flag (Obj.loopEnable l)
  let safe := h.get (Obj.loopSafeTarget l)
  let h := if !on then
      let h := h.loopWrites l (fun _ => true) true u
      let h := if !wasOn then h else
        let st := h.get (Obj.loopLoopState l)
        let h := if st = 6 then h else (h.injStop l).lawEnd l
        let h := h.put (Obj.loopOutput l) (h.loopSafeO l)
        (h.modLoop l (fun v => { v.fresh true with strO := safe })).setLoopState l 0
      h.put (Obj.loopLoopMode l) 0
    else if !wasOn then
      let m := h.get (Obj.loopLoopMode l)
      let h := h.modLoop l (fun v => { v.fresh true with strO := safe })
      let h := h.put (Obj.loopOutput l) (h.loopSafeO l)
      if mb.drives then (h.setLoopState l 0).loopPut mb l (Obj.loopLoopMode l) m else h.setLoopState l 6
    else h
  let h := h.pairBreak l u
  let co := old.get (Obj.loopCycle l)
  let cn := h.get (Obj.loopCycle l)
  if co = cn || co = 0 then h else
  let v := h.divOpen (h.getI 64 (Obj.genGenVel l) * cn) co
  let a := v.2.divOpen (h.getI 64 (Obj.genGenAcc l) * cn * cn) (co * co)
  (a.2.putI 64 (Obj.genGenVel l) v.1).putI 64 (Obj.genGenAcc l) a.1

end Sys2Proof.Machine
end

