-- ==== Sys2Proof/Machine/Trigger.lean ====
section
/-! DEFINITION. The trigger sequencer, its manager, comparators, the cue bus and the trigger messages (R231 to R248, R256,
R260). -/
namespace Sys2Proof.Machine

/-- The hub with the trigger state changed. -/
def Hub.modTrig (h : Hub) (f : TrigSt → TrigSt) : Hub := { h with trig := f h.trig }

/-- Pins of the cue bus. -/
def pinCueArm : Nat := 1
def pinCueFire : Nat := 2

/-- The sequencer runs (R238); in SAFE from HOLD from the first raw-frame boundary on (R63). -/
def Hub.seqRuns (h : Hub) (mb : ModeBlock) : Bool := mb.streams && h.flag Obj.seqEnable && h.trig.resumeAt.isNone

/-! ### Words of the configuration (Tables 8.1, 8.3, 8.4) -/

/-- KIND, NUMBER, SENSE (level), DIR and IGNORE_SUSPECT of a source. -/
def Hub.srcKind (h : Hub) (s : Nat) : Nat := field (h.get (Obj.srcWord s)) 0 4
def Hub.srcNum (h : Hub) (s : Nat) : Nat := field (h.get (Obj.srcWord s)) 4 10
def Hub.srcLevelSense (h : Hub) (s : Nat) : Bool := bitOf (h.get (Obj.srcWord s)) 14

/-- A source of the sequencer. -/
def Hub.src (h : Hub) (s : Nat) : SrcSt := vget h.trig.srcs s
def Hub.modSrc (h : Hub) (s : Nat) (f : SrcSt → SrcSt) : Hub := h.modTrig (fun t => { t with srcs := vupd t.srcs s f })

/-- The terms a condition word uses: source and inversion. -/
def condTerms (w : Nat) : List (Nat × Bool) :=
  (List.range (min 4 (field w 25 3))).map (fun i => (field w (6 * i) 5, bitOf w (6 * i + 5)))

/-- A source is true on this tick (Table 8.2). -/
def Hub.srcTrue (h : Hub) (s : Nat) : Bool :=
  if h.srcKind s = 7 then h.get (Obj.counter (h.srcNum s)) ≥ h.get (Obj.counterTarget (h.srcNum s))
  else if h.srcLevelSense s then (h.src s).level else (h.src s).edge

/-- The source time of a source, a tick's time for an inverted term. -/
def Hub.srcTime (h : Hub) (s : Nat) (inv : Bool) : Nat :=
  if inv then h.now 0 else if h.srcKind s = 7 then (vget h.trig.reach (h.srcNum s)).2 else (h.src s).time

/-- The tick at which a source's value last changed. (DEDUCED: log 90.) -/
def Hub.srcSince (h : Hub) (s : Nat) : Nat :=
  if h.srcKind s = 7 then (vget h.trig.reach (h.srcNum s)).1 + 1 else (h.src s).since

/-- A term is true. -/
def Hub.termTrue (h : Hub) (t : Nat × Bool) : Bool := h.srcTrue t.1 != t.2

/-- A condition is true (R233). -/
def Hub.condTrue (h : Hub) (w : Nat) : Bool :=
  let ts := condTerms w
  !ts.isEmpty && (if bitOf w 24 then ts.any h.termTrue else ts.all h.termTrue)

/-- Of two terms, the one that wins an AND: the later one, at a tie the lower source. (DEDUCED: log 90.) -/
def Hub.laterTerm (h : Hub) (a b : Nat × Bool) : Nat × Bool :=
  if h.srcSince b.1 > h.srcSince a.1 || (h.srcSince b.1 = h.srcSince a.1 && b.1 < a.1) then b else a

/-- The winning term of a true condition (R234). (DEDUCED: log 90.) -/
def Hub.winner (h : Hub) (w : Nat) : Nat × Bool :=
  let ts := (condTerms w).filter h.termTrue
  match ts with
  | [] => (0xFF, false)
  | t :: r => if bitOf w 24 then r.foldl (fun a b => if b.1 < a.1 then b else a) t else r.foldl h.laterTerm t

/-- The also-true mask (R234). -/
def Hub.alsoTrue (h : Hub) (wa wb : Nat) : Nat :=
  let named := (condTerms wa ++ condTerms wb).map (·.1)
  sumNat ((List.range 32).map (fun s => if named.contains s && h.srcTrue s then 2 ^ s else 0))

/-! ### Events at the sources -/

/-- An edge of a source kind and number, with its source time: every source that names it sees it. (DEDUCED: log 89.) -/
def Hub.srcEdge (h : Hub) (kind num time : Nat) : Hub :=
  let now := h.time.ticks
  h.forEach (List.range 32) (fun s h =>
    if h.srcKind s = kind && h.srcNum s = num then
      h.modSrc s (fun v => { v with edge := true, level := true, time := time, since := now })
    else h)

/-- The level of a source kind and number falls. -/
def Hub.srcFall (h : Hub) (kind num : Nat) : Hub :=
  let now := h.time.ticks
  h.forEach (List.range 32) (fun s h =>
    if h.srcKind s = kind && h.srcNum s = num && (h.src s).level then h.modSrc s (fun v => { v with level := false, since := now })
    else h)

/-- The comparison of a DETECTOR source with its LEVEL holds for the detector's latest result (R232, R242). -/
def Hub.detectorOn (h : Hub) (s : Nat) : Bool :=
  let d := h.srcNum s
  let a := h.getI 32 (Obj.detResultA d)
  let lv := h.getI 32 (Obj.srcLevel s)
  let w := h.get (Obj.srcWord s)
  (if bitOf w 15 then decide (a ≤ lv) else decide (a ≥ lv)) && !(bitOf w 16 && h.bit (Obj.detStatus d) 0)

/-- The sources on a detector after its update (R232, R242). -/
def Hub.srcDetector (h : Hub) (d : Nat) : Hub :=
  let now := h.time.ticks
  let time := uOfTime96 (h.get (Obj.detResultTime d))
  h.forEach (List.range 32) (fun s h =>
    if h.srcKind s = 2 && h.srcNum s = d then
      let on := h.detectorOn s
      if on && !(h.src s).level then h.modSrc s (fun v => { v with edge := true, level := true, time := time, since := now })
      else if !on && (h.src s).level then h.modSrc s (fun v => { v with level := false, since := now }) else h
    else h)

/-! ### Messages (R245) -/

/-- The content of an ARM, DISARM or FIRE message. -/
def trigBytes (hub num time last : Nat) : List Nat := toBytes 2 hub ++ toBytes 2 num ++ toBytes 12 time ++ toBytes 1 last

/-- `a` − `b` modulo 2¹⁶, as a signed number. -/
def diff16 (a b : Nat) : Int := toSigned 16 (a % 65536 + 65536 - b % 65536)

/-- A number has already been accepted. -/
def SeenMsg.dup (v : SeenMsg) (num : Nat) : Bool := v.nums.contains num

/-- The record after a number is accepted: the highest rises and the record keeps the 256 numbers up to it, or the record
restarts where the number lies outside it. -/
def SeenMsg.take (v : SeenMsg) (num : Nat) : SeenMsg :=
  let d := diff16 num v.high
  if d > 0 then { v with high := num, nums := num :: v.nums.filter (fun n => (num + 65536 - n) % 65536 < 256) }
  else if d > -256 then { v with nums := num :: v.nums }
  else { v with high := num, nums := [num] }

/-- The record of an originator and type. -/
def Hub.seenOf (h : Hub) (hub code : Nat) : Option SeenMsg := h.trig.seen.find? (fun v => v.hub = hub && v.code = code)

/-- A number is new; the hub then records it. -/
def Hub.msgNew (h : Hub) (hub code num : Nat) : Bool :=
  match h.seenOf hub code with
  | some v => !v.dup num
  | none => true
/-- A message of a hub and type is entered as accepted (R245). (DEDUCED: log 92.) -/
def Hub.msgTake (h : Hub) (hub code num : Nat) : Hub :=
  match h.seenOf hub code with
  | some _ => h.modTrig (fun t => { t with seen := t.seen.map (fun v => if v.hub = hub && v.code = code then v.take num else v) })
  | none => h.modTrig (fun t => { t with seen := t.seen ++ [{ hub := hub, code := code, high := num, nums := [num] }] })

/-- This hub sends an ARM, DISARM or FIRE message of its own. (DEDUCED: log 92.) -/
def Hub.sendTrig (h : Hub) (code num time last : Nat) : Hub :=
  (h.msgTake (h.get Obj.hubIdActive) code num).floodMsg none code (trigBytes (h.get Obj.hubIdActive) num time last)

/-! ### The manager (Table 8.5) -/

def Hub.manager (h : Hub) : Nat := h.get Obj.managerState
/-- An action that the manager ignores is counted (R237). (DEDUCED: log 93.) -/
def Hub.ignored (h : Hub) : Hub := h.bump Obj.ignoredActions

/-- CUE_ARM is driven to a level. -/
def Hub.armPin (h : Hub) (high : Bool) : Hub :=
  if h.trig.armOut = high then h
  else (h.modTrig (fun t => { t with armOut := high })).emit (.pin pinCueArm high (h.now 0))

/-- CUE_ARM stands as the role and the manager have it: high while a MASTER is ARMED (R243). -/
def Hub.armFollows (h : Hub) : Hub := h.armPin (h.get Obj.cueRole = 1 && h.manager = 1)

/-- A MASTER drives CUE_ARM and sends ARM or DISARM; the two share one number. (DEDUCED: log 92.) -/
def Hub.driveArm (h : Hub) (high : Bool) : Hub :=
  if h.get Obj.cueRole ≠ 1 then h else
  let no := if high then (h.trig.armNo + 1) % 65536 else h.trig.armNo
  let h := (h.armPin high).modTrig (fun t => { t with armNo := no })
  h.sendTrig (if high then 0x10 else 0x11) no (h.nowWord 0) (b2n high)

/-- The manager is armed; the auto timer starts if AUTO_MODE is 1. -/
def Hub.armed (h : Hub) : Hub :=
  let at_ := if h.get Obj.autoMode = 1 then some (h.time.ticks + h.get Obj.autoTimeout * tMs) else none
  (h.put Obj.managerState 1).modTrig (fun t => { t with autoAt := at_ })

/-- An ARM action. -/
def Hub.armAction (h : Hub) : Hub :=
  if h.manager = 0 && h.get Obj.cueRole ≤ 1 then h.armed.driveArm true else h.ignored

/-- The manager leaves ARMED for IDLE. -/
def Hub.disarm (h : Hub) : Hub :=
  if h.manager = 1 then ((h.put Obj.managerState 0).modTrig (fun t => { t with autoAt := none })).driveArm false else h

/-- CUE_ARM falls, DISARM is accepted or RESTART is applied: the manager disarms, unless a fire, a join or the auto timeout of the same tick prevails
(R237). -/
def Hub.disarmFrom (h : Hub) : Hub :=
  if h.manager ≠ 1 then h
  else h.disarm.modTrig (fun t => { t with beaten := some { tick := h.time.ticks, autoAt := h.trig.autoAt } })

/-- The DISARM that this tick's RESTART has put on the lanes is taken off them again. (DEDUCED: log 180.) -/
def Hub.unsendDisarm (h : Hub) : Hub :=
  if h.get Obj.cueRole ≠ 1 then h else
  let b := trigBytes (h.get Obj.hubIdActive) h.trig.armNo (h.nowWord 0) 0
  h.forEach (List.range 16) (fun l h => h.modLane l (fun v => { v with msgs := v.msgs.filter (fun m => m ≠ ⟨0x11, b⟩) }))

/-- What this tick's join or disarm did is taken back, a join for an originating fire only (R237). (DEDUCED: log 180.) -/
def Hub.unbeat (h : Hub) (origin : Bool) : Hub :=
  match h.trig.beaten with
  | none => h
  | some b =>
    if b.tick ≠ h.time.ticks then h else
    match b.slots with
    | none =>
      if h.manager = 0 then (h.unsendDisarm.put Obj.managerState 1).modTrig (fun t => { t with autoAt := b.autoAt, beaten := none }) else h
    | some sl =>
      if !origin || h.manager ≠ 2 then h else
      let e := h.trig.events.headD {}
      let h := h.forEach (maskList 16 e.slots) (fun s h =>
        (h.modSlot s (fun _ => vget sl s)).put (Obj.slotState s) 1)
      ((h.put Obj.managerState 1).put Obj.eventCount (h.get Obj.eventCount + 2 ^ 32 - 1)).modTrig (fun t =>
        { t with autoAt := b.autoAt, beaten := none, events := t.events.drop 1 })

/-- The fires that belong to the event of `e`: those within COINC_WINDOW of the earliest (R246). -/
def Hub.eventFires (h : Hub) (e : FireRec) : List (Nat × Nat) :=
  let w := h.get Obj.coincWindow * 65536
  let all := h.trig.fires ++ (if e.own then [(e.time, h.get Obj.hubIdActive)] else [])
  let near := all.filter (fun f => f.1 + w ≥ e.time && f.1 ≤ e.time + w)
  let first := near.foldl (fun a f => min a f.1) (e.time + w)
  near.filter (fun f => f.1 ≤ first + w)

/-- The event ID as it stands: the earliest fire, at equal times the lower hub; a wire edge without a fire stands alone. -/
def Hub.eventId (h : Hub) (e : FireRec) : FireRec :=
  let fs := h.eventFires e
  match fs with
  | [] => { e with eventTime := e.time, eventHub := 0xFFFF, wireOnly := e.wire, fires := 0 }
  | f :: r =>
    let b := r.foldl (fun a x => if x.1 < a.1 || (x.1 = a.1 && x.2 < a.2) then x else a) f
    { e with eventTime := b.1, eventHub := b.2, wireOnly := false, fires := fs.length }

/-- The event of a number is changed where it is recorded. -/
def Hub.modEvent (h : Hub) (num : Nat) (f : FireRec → FireRec) : Hub :=
  match h.trig.events.find? (fun e => e.number = num) with
  | some e => (h.modTrig (fun t => { t with events := t.events.map (fun o => if o.number = num then f e else o) })).slotsEvent (f e)
  | none => h

/-- The trigger point of an event is known: the slots fix their windows, and an originating fire sends its FIRE message
(R241, R245). -/
def Hub.firePoint (h : Hub) (num : Nat) : Hub :=
  let h := h.modEvent num (fun e => h.eventId { e with wait := none })
  match h.trig.events.find? (fun e => e.number = num) with
  | none => h
  | some e =>
    let h := h.slotsFix e
    if e.own && h.get Obj.cueRole ≠ 0 then
      let no := (h.trig.fireNo + 1) % 65536
      (h.modTrig (fun t => { t with fireNo := no })).sendTrig 0x12 no (time96 e.time 0) (b2n e.forced)
    else h

/-- A fire or join: the slots are triggered; an originating one pulls CUE_FIRE low, and a MASTER sends DISARM. A MASTER that
joins only lowers CUE_ARM (Table 8.5, R243). -/
def Hub.fired (h : Hub) (e : FireRec) : Hub :=
  let back : SameTick := { tick := h.time.ticks, autoAt := h.trig.autoAt, slots := some h.slots }
  let h := h.bump Obj.eventCount
  let role := h.get Obj.cueRole
  let num := h.get Obj.eventCount
  let r := h.slotsFire { e with tick := h.time.ticks, number := num, state := h.get Obj.seqState }
  let h := (r.2.put Obj.managerState 2).modTrig (fun t => { t with
    autoAt := none, events := (r.1 :: t.events).take 16, beaten := if e.own then none else some back })
  let h := if e.own && role ≠ 0 then
      (h.modTrig (fun t => { t with pulse := some (h.now 2 + h.get Obj.cueFireWidth * 65536) })).emit
        (.pin pinCueFire false (h.now 0))
    else h
  let h := if e.own then h.driveArm false else h.armPin false
  if e.wait.isSome then h else h.firePoint num

/-- The comparator of an FE die whose stamp `u` is still on the die link. -/
def Hub.stampOnLink (h : Hub) (f u : Nat) : Option Nat :=
  (List.range 8).findSome? (fun m => if (vget h.trig.cmps (f * 8 + m)).link.contains u then some (f * 8 + m) else none)

/-- A FIRE action whose winning term is `t` (Table 8.5). A comparator's stamp may still be on the die link. -/
def Hub.fireAction (h : Hub) (t : Nat × Bool) (mask : Nat) : Hub :=
  let kind := h.srcKind t.1
  let join := kind = 4 || kind = 6
  let h := h.unbeat !join
  if h.manager ≠ 1 then h.ignored else
  let time := h.srcTime t.1 t.2
  let wait := if kind = 1 && !t.2 then h.stampOnLink (h.srcNum t.1 / 8) time else none
  h.fired { time := time, cause := if join then 4 else 0, source := t.1, mask := mask, own := !join, wire := kind = 4, wait := wait }

/-- A join of Table 8.5 (R243): refused in role NONE, ignored where the manager is not ARMED. The also-true mask of a fire
that no transition made is open. (DESIGN CHOICE: log 91; DEDUCED: log 93.) -/
def Hub.join (h : Hub) (bit cause time : Nat) : Hub :=
  if h.get Obj.cueRole = 0 || !h.bit Obj.join bit then h
  else
    let h := h.unbeat false
    if h.manager ≠ 1 then h.ignored
    else
      let d := h.drawNat
      d.2.fired { time := time, cause := cause, mask := d.1 % 2 ^ 32, wire := cause = 2 }

/-- The manager returns to IDLE when the event is final and its slots have left TRIGGERED. -/
def Hub.managerRest (h : Hub) : Hub :=
  match h.trig.events with
  | e :: _ =>
    if h.manager = 2 && e.final && !(maskList 16 e.slots).any (fun s =>
        h.get (Obj.slotState s) = 2 && ((h.slot s).trig.getD {}).number = e.number) then h.put Obj.managerState 0 else h
  | [] => h

/-- The sequencer stops: the manager is IDLE and CUE_ARM low; a CUE_FIRE pulse completes (Table 8.5, R238). -/
def Hub.seqStop (h : Hub) : Hub :=
  ((h.put Obj.managerState 0).armPin false).modTrig (fun t => { t with
    autoAt := none, heldAt := none, resumeAt := none, soft := [], timers := Vector.replicate 2 none, beaten := none
    srcs := t.srcs.map (fun v => { v with edge := false }) })

/-- Counters at 0 and timers stopped. -/
def Hub.seqClear (h : Hub) : Hub :=
  let tk := (h.time.ticks, h.now 0)
  ((h.put (Obj.counter 0) 0).put (Obj.counter 1) 0).modTrig (fun t => { t with
    timers := Vector.replicate 2 none, reach := Vector.replicate 2 tk, reachDue := Vector.replicate 2 false })

/-- The sequencer starts afresh: state 0, counters at 0, timers stopped, the manager IDLE (R238). -/
def Hub.seqStart (h : Hub) : Hub := (h.seqStop.seqClear).put Obj.seqState 0

/-- HOLD freezes the sequencer; source edges in HOLD are lost. -/
def Hub.seqFreeze (h : Hub) : Hub := h.modTrig (fun t => { t with heldAt := some h.time.ticks })

/-- The sequencer resumes: timers and the auto timer go on from where they stood. -/
def Hub.seqResume (h : Hub) : Hub :=
  match h.trig.heldAt with
  | none => h
  | some t0 =>
    let d := h.time.ticks - t0
    h.modTrig (fun t => { t with
      heldAt := none, autoAt := t.autoAt.map (· + d), timers := t.timers.map (fun o => o.map (· + d)), soft := []
      srcs := t.srcs.map (fun v => { v with edge := false }) })

/-- SAFE is entered from HOLD: the sequencer resumes at the raw-frame boundary `u` (R63). -/
def Hub.seqResumeAt (h : Hub) (u : Nat) : Hub :=
  h.modTrig (fun t => { t with resumeAt := some (h.waitFor 0 u).time.ticks })

/-- A sequencer whose boundary of SAFE has come goes on from its tick; what came before it is lost. -/
def Hub.seqWake (h : Hub) : Hub :=
  match h.trig.resumeAt with
  | none => h
  | some k =>
    if h.time.ticks < k then h else
    let d := k - h.trig.heldAt.getD k
    h.modTrig (fun t => { t with
      heldAt := none, resumeAt := none, autoAt := t.autoAt.map (· + d), timers := t.timers.map (fun o => o.map (· + d))
      soft := t.soft.filter (fun e => e.2 ≥ h.now 0 - (h.time.ticks - k) * 4 * 65536)
      srcs := t.srcs.map (fun v => if v.since < k then { v with edge := false } else v) })

/-- The hub `dt` ticks on, its sequencer awake where its boundary has come. -/
def Hub.trigAfter (h : Hub) (dt : Nat) : Hub := (h.waitTicks dt).seqWake

/-- The hub with its sequencer awake, at the boundary that it awaits. -/
def Hub.trigAwake (h : Hub) : Hub :=
  match h.trig.resumeAt with
  | none => h
  | some k => (h.waitTick k).seqWake

/-- RESTART (Table 8.4): a FIRED manager stays FIRED; a join or the auto timeout of the same tick prevails over the disarm. -/
def Hub.seqRestart (h : Hub) : Hub := (h.seqClear.disarmFrom).put Obj.seqState 0

/-! ### A tick (R234 to R236) -/

/-- TIMER_REMAIN of a timer, 0 when it is stopped. -/
def Hub.timerRemain (h : Hub) (t : Nat) : Nat :=
  match vget h.trig.timers t with
  | some d => d - (match h.trig.heldAt with | some k => k | none => h.time.ticks)
  | none => 0

/-- A timer that has reached 0 makes its source true, and stops. -/
def Hub.timerExpire (h : Hub) (t : Nat) : Hub :=
  match vget h.trig.timers t with
  | some d =>
    if d ≤ h.time.ticks then
      (h.modTrig (fun v => { v with timers := vset v.timers t none })).srcEdge 8 t (h.now 0 - (h.time.ticks - d) * 4 * 65536)
    else h
  | none => h

/-- A counter that has reached its target: its source reads true from now on. -/
def Hub.counterReached (h : Hub) (c : Nat) : Hub :=
  if vget h.trig.reachDue c then
    (h.modTrig (fun t => { t with reachDue := vset t.reachDue c false })).srcEdge 7 c (vget h.trig.reach c).2
  else h

/-- Writes of SOFT_TRIGGER that have taken effect make their sources true for this tick. -/
def Hub.softSeen (h : Hub) : Hub :=
  let due := h.trig.soft.filter (fun e => e.2 ≤ h.now 0)
  let h := h.modTrig (fun t => { t with soft := t.soft.filter (fun e => e.2 > h.now 0) })
  h.forEach due (fun e h => h.srcEdge 9 e.1 (h.now 0))

/-- Counter operations of an action word. -/
def Hub.counterOp (h : Hub) (w c : Nat) : Hub :=
  let old := h.get (Obj.counter c)
  let tgt := h.get (Obj.counterTarget c)
  let v := if bitOf w (8 + 2 * c) then min (old + 1) (2 ^ 32 - 1) else old
  let v := if bitOf w (9 + 2 * c) then 0 else v
  let h := h.put (Obj.counter c) v
  if v ≥ tgt && old < tgt then
    let tk := (h.time.ticks, h.now 0)
    h.modTrig (fun t => { t with reach := vset t.reach c tk, reachDue := vset t.reachDue c true })
  else h

/-- Timer operations of an action word. -/
def Hub.timerOp (h : Hub) (w i : Nat) : Hub :=
  let at_ := h.time.ticks + h.get (Obj.timerLoad i)
  let h := if bitOf w (12 + 2 * i) then h.modTrig (fun t => { t with timers := vset t.timers i (some at_) }) else h
  if bitOf w (13 + 2 * i) then h.modTrig (fun t => { t with timers := vset t.timers i none }) else h

/-- The actions of a transition, in their order (R235). -/
def Hub.seqActions (h : Hub) (w : Nat) (t : Nat × Bool) (mask : Nat) : Hub :=
  let h := (h.counterOp w 0).counterOp w 1
  let h := (h.timerOp w 0).timerOp w 1
  let h := if bitOf w 4 then h.armAction else h
  let h := if bitOf w 5 then h.fireAction t mask else h
  let h := if bitOf w 6 then h.markSlots { time := h.now 0, state := h.get Obj.seqState, source := t.1, mask := mask } else h
  if bitOf w 7 then h.seqRestart else h.put Obj.seqState (field w 0 4)

/-- The evaluation of the current state on this tick. -/
def Hub.seqEvaluate (h : Hub) : Hub :=
  let st := h.get Obj.seqState
  let wa := h.get (Obj.seqWord st 0)
  let wb := h.get (Obj.seqWord st 2)
  let mask := h.alsoTrue wa wb
  let h := if h.condTrue wa then h.seqActions (h.get (Obj.seqWord st 1)) (h.winner wa) mask
    else if h.condTrue wb then h.seqActions (h.get (Obj.seqWord st 3)) (h.winner wb) mask else h
  h.modTrig (fun t => { t with lastEval := h.time.ticks, srcs := t.srcs.map (fun v => { v with edge := false }) })

/-- The tick `dt` on, and never one already evaluated. (DEDUCED: log 89.) -/
def Hub.seqTick (h : Hub) (mb : ModeBlock) (dt : Nat) : Hub :=
  let h := h.trigAfter dt
  if !h.seqRuns mb then h.modTrig (fun t => { t with srcs := t.srcs.map (fun v => { v with edge := false }) })
  else
    let h := h.waitTick (h.trig.lastEval + 1)
    let h := ((h.timerExpire 0).timerExpire 1).softSeen
    let h := (h.counterReached 0).counterReached 1
    h.seqEvaluate

/-- The sequencer evaluates one tick. -/
def execSequencerTick (dt : Nat) (s : State) : Host.Outcome State Fault Refusal := onHubM (fun mb h => h.seqTick mb dt) s

/-- A timer reaches 0 (R236). -/
def execSeqTimerExpire (t : Fin 2) (s : State) : Host.Outcome State Fault Refusal :=
  onHubM (fun mb h =>
    let h := h.trigAwake
    if !h.seqRuns mb then h else
    match vget h.trig.timers t with
    | some d => (h.waitTick d).timerExpire t
    | none => h) s

/-- A counter has reached COUNTER_TARGET (R236). -/
def execSeqCounterReached (c : Fin 2) (s : State) : Host.Outcome State Fault Refusal :=
  onHubM (fun mb h =>
    let h := h.seqWake
    if h.seqRuns mb then h.counterReached c else h) s

/-! ### Comparators (R239, R241) -/

/-- The output of a comparator whose input is `x`, in thousandths of a threshold code (Table 8.8). -/
def cmpOutput (mode : Nat) (hi lo hyst x : Int) (old : Bool) : Bool :=
  let hi := hi * 1000
  let lo := lo * 1000
  let hy := hyst * 1000
  match mode with
  | 1 => x > hi || (old && x ≥ hi - hy)
  | 2 => x < lo || (old && x ≤ lo + hy)
  | 3 => (lo < x && x < hi) || (old && x ≥ lo - hy && x ≤ hi + hy)
  | 4 => x > hi || x < lo || (old && !(lo + hy < x && x < hi - hy))
  | _ => false

/-- The hub with a comparator changed. -/
def Hub.modCmp (h : Hub) (k : Nat) (f : CmpSt → CmpSt) : Hub := h.modTrig (fun t => { t with cmps := vupd t.cmps k f })

/-- A comparator's output becomes `out` at `f`/512 of a tick after this one: a transition to true is stamped by the FE die's TDC,
or carries the TDC's earlier stamp when it follows that within 20 ns. -/
def Hub.cmpOut (h : Hub) (k f : Nat) (out : Bool) : Hub :=
  let v := vget h.trig.cmps k
  if out = v.out then h
  else if !out then (h.modCmp k (fun v => { v with out := false })).srcFall 1 k
  else
    let l := h.edgeStamp 2 f
    let near := match vget h.trig.tdc (k / 8) with
      | some p => if l < p.1 + 20 * 65536 then some p.2 else none
      | none => none
    match near with
    | some u => ((h.modCmp k (fun v => { v with out := true, stamp := u })).bump (Obj.cmpStampShared k)).srcEdge 1 k u
    | none =>
      let u := h.edgeStamp 0 f
      ((h.modCmp k (fun v => { v with out := true, stamp := u, link := v.link ++ [u] })).modTrig (fun t =>
        { t with tdc := vset t.tdc (k / 8) (some (l, u)) })).srcEdge 1 k u

/-- The output of a comparator under the objects in force, its input at `x` and its output `old` before. -/
def Hub.cmpLevel (h : Hub) (k : Nat) (x : Int) (old : Bool) : Bool :=
  cmpOutput (h.get (Obj.cmpMode k)) (h.getI 16 (Obj.cmpThreshHi k)) (h.getI 16 (Obj.cmpThreshLo k)) (h.get (Obj.cmpHyst k)) x old

/-- A comparator's input moves to `x`, and its output follows. -/
def Hub.cmpInput (h : Hub) (k f : Nat) (x : Int) : Hub :=
  (h.modCmp k (fun v => { v with input := some x })).cmpOut k f (h.cmpLevel k x (vget h.trig.cmps k).out)

/-- A comparator's input crosses to `input` at `f`/512 of a tick after the tick `dt` on. -/
def execComparatorEdge (k : Fin 32) (dt : Nat) (f : Fin 512) (input : Int) (s : State) : Host.Outcome State Fault Refusal :=
  onHubM (fun mb h =>
    let h := h.trigAfter dt
    if mb.up && h.feUp (k / 8) then h.cmpInput k f input else h) s

/-- The oldest stamp on the die link arrives: it is counted, and a fire that awaits it has its trigger point (R241). -/
def Hub.cmpStampArrives (h : Hub) (k : Nat) : Hub :=
  match (vget h.trig.cmps k).link with
  | [] => h
  | u :: rest =>
    let h := ((h.modCmp k (fun v => { v with link := rest })).bump (Obj.cmpEdges k)).put (Obj.cmpLastEdge k) (time96 u 0)
    match h.trig.events.find? (fun e => e.wait = some k && e.time = u) with
    | some e => h.firePoint e.number
    | none => h

/-- A comparator stamp arrives over the die link. -/
def execComparatorStamp (k : Fin 32) (dt : Nat) (s : State) : Host.Outcome State Fault Refusal :=
  onHubM (fun mb h => if mb.up then (h.trigAfter dt).cmpStampArrives k else h) s

/-! ### The cue bus (R243, R244) -/

/-- CUE_FIRE as other hubs drive it. A fall during this hub's own pulse is no edge. -/
def Hub.cueFireIn (h : Hub) (mb : ModeBlock) (f : Nat) (low : Bool) : Hub :=
  if h.trig.fireIn = low then h else
  let u := ((h.edgeStamp 0 f : Int) - uOfPs (h.getI 32 Obj.cueFireDelay)).toNat
  let h := h.modTrig (fun t => { t with fireIn := low, fireAt := if low then u else t.fireAt })
  if !low then h.srcFall 4 0
  else if h.trig.pulse.isSome then h
  else
    let h := h.srcEdge 4 0 u
    if h.seqRuns mb then h.join 0 2 u else h

/-- An edge on CUE_FIRE not driven by this hub. -/
def execCueFireInEdge (dt : Nat) (f : Fin 512) (low : Bool) (s : State) : Host.Outcome State Fault Refusal :=
  onHubM (fun mb h => if mb.up then (h.trigAfter dt).cueFireIn mb f low else h) s

/-- An edge on CUE_ARM: a MEMBER_WIRE manager is armed or disarmed (Table 8.5). -/
def Hub.cueArmIn (h : Hub) (mb : ModeBlock) (f : Nat) (high : Bool) : Hub :=
  if h.trig.armIn = high then h else
  let h := h.modTrig (fun t => { t with armIn := high, armAt := if high then h.edgeStamp 0 f else t.armAt })
  let h := if high then h.srcEdge 5 0 (h.edgeStamp 0 f) else h.srcFall 5 0
  if h.get Obj.cueRole ≠ 2 || !h.seqRuns mb then h
  else if high then if h.manager = 0 then h.armed else h
  else h.disarmFrom

/-- An edge on CUE_ARM. -/
def execCueArmInEdge (dt : Nat) (f : Fin 512) (high : Bool) (s : State) : Host.Outcome State Fault Refusal :=
  onHubM (fun mb h => if mb.up then (h.trigAfter dt).cueArmIn mb f high else h) s

/-- A message is accepted once, and forwarded on every other ACTIVE native port (R245). -/
def Hub.acceptTrig (h : Hub) (l : Option Nat) (code : Nat) (m : TrigMsg) (last : Nat) (f : Hub → Hub) : Hub :=
  if h.msgNew m.hub code m.num then
    f ((h.msgTake m.hub code m.num).floodMsg l code (trigBytes m.hub m.num m.time last))
  else h

/-- An accepted ARM or DISARM arms or disarms a MEMBER_LINK manager. -/
def Hub.armMsg (h : Hub) (mb : ModeBlock) (l : Option Nat) (m : TrigMsg) (arm : Bool) : Hub :=
  h.acceptTrig l (if arm then 0x10 else 0x11) m (b2n arm) (fun h =>
    if h.get Obj.cueRole ≠ 3 || !h.seqRuns mb then h
    else if arm then if h.manager = 0 then h.armed else h
    else h.disarmFrom)

/-- An accepted FIRE: a source edge, a fire known for the event until that is final, and a join where JOIN_LINK is set.
(DEDUCED: log 93.) -/
def Hub.fireMsg (h : Hub) (mb : ModeBlock) (l : Option Nat) (m : TrigMsg) : Hub :=
  h.acceptTrig l 0x12 m (b2n m.forced) (fun h =>
    let u := uOfTime96 m.time
    let h := h.modTrig (fun t => { t with fires := (u, m.hub) :: t.fires })
    let h := h.forEach (h.trig.events.filter (fun e => !e.final)) (fun e h => h.modEvent e.number h.eventId)
    let h := h.srcEdge 6 0 u
    if h.seqRuns mb then h.join 1 3 u else h)

/-- An ARM message arrives on a lane. -/
def execArmMessage (l : Fin 16) (dt : Nat) (m : TrigMsg) (crc : Bool) (s : State) : Host.Outcome State Fault Refusal :=
  onHubM (fun mb h => (h.trigAfter dt).onMessage l crc (fun h => h.armMsg mb (some l) m true)) s

/-- A DISARM message arrives on a lane. -/
def execDisarmMessage (l : Fin 16) (dt : Nat) (m : TrigMsg) (crc : Bool) (s : State) : Host.Outcome State Fault Refusal :=
  onHubM (fun mb h => (h.trigAfter dt).onMessage l crc (fun h => h.armMsg mb (some l) m false)) s

/-- A FIRE message arrives on a lane. -/
def execFireMessage (l : Fin 16) (dt : Nat) (m : TrigMsg) (crc : Bool) (s : State) : Host.Outcome State Fault Refusal :=
  onHubM (fun mb h => (h.trigAfter dt).onMessage l crc (fun h => h.fireMsg mb (some l) m)) s

/-- FIRE_INJECT and ARM_INJECT: the 17 bytes written, read as a message (Table 8.15). -/
def injectMsg (v : Nat) : TrigMsg :=
  { hub := field v 0 16, num := field v 16 16, time := field v 32 96, forced := bitOf v 128 }
def Hub.applyFireInject (h : Hub) (mb : ModeBlock) (v : Nat) : Hub := h.seqWake.fireMsg mb none (injectMsg v)
def Hub.applyArmInject (h : Hub) (mb : ModeBlock) (v : Nat) : Hub := h.seqWake.armMsg mb none (injectMsg v) (bitOf v 128)

/-- The values FIRE_INJECT and ARM_INJECT take: [7:1] of the last byte are 0, and the TIME96 is one (R17). -/
def injectOk (v : Nat) : Bool := field v 129 7 = 0 && time96Ok (field v 32 96)

/-- SOFT_TRIGGER: bit n is an edge on SOFT n from the next raw-frame boundary (R232). -/
def Hub.applySoftTrigger (h : Hub) (v : Nat) : Hub :=
  let g := h.boundary
  h.modTrig (fun t => { t with soft := t.soft ++ (maskList 4 v).map (fun n => (n, g)) })

/-- The auto timeout that ends on this tick prevails over a join or disarm of the same tick (R237). -/
def Hub.autoBeats (h : Hub) : Hub :=
  match h.trig.beaten with
  | some b => if b.autoAt = some h.time.ticks then h.unbeat true else h
  | none => h

/-- An ARMED manager reaches AUTO_TIMEOUT: a forced originating fire at that tick (R247). (DESIGN CHOICE: log 91.) -/
def execAutoTimeout (s : State) : Host.Outcome State Fault Refusal :=
  onHubM (fun mb h =>
    let h := h.trigAwake.autoBeats
    if !h.seqRuns mb || h.manager ≠ 1 then h else
    match h.trig.autoAt with
    | none => h
    | some t =>
      let h := h.waitTick t
      let d := h.drawNat
      d.2.fired { time := h.now 0, cause := 1, mask := d.1 % 2 ^ 32, forced := true, own := true }) s

/-- The level of CUE_FIRE_IN becomes true without an edge: another hub still pulls the line low as this hub's pulse ends. -/
def Hub.fireStillLow (h : Hub) : Hub :=
  let now := h.time.ticks
  if !h.trig.fireIn then h else
  h.forEach (List.range 32) (fun s h =>
    if h.srcKind s = 4 && !(h.src s).level then
      h.modSrc s (fun v => { v with level := true, time := h.trig.fireAt, since := now })
    else h)

/-- CUE_FIRE_WIDTH elapses and the hub releases CUE_FIRE. -/
def execCueFirePulseEnd (s : State) : Host.Outcome State Fault Refusal :=
  onHubM (fun _ h =>
    match h.trig.pulse with
    | none => h
    | some u =>
      let h := h.waitFor 2 u
      ((h.modTrig (fun t => { t with pulse := none })).emit (.pin pinCueFire true (h.now 0))).fireStillLow) s

/-- The oldest event that is not yet FINAL. -/
def Hub.settling (h : Hub) : Option FireRec := (h.trig.events.filter (fun e => !e.final)).getLast?

/-- EVENT_SETTLE after a fire or join the event is FINAL, in its record and its captures, and TRIGGER_EVENT is logged with the
local trigger point as its TIME (R246, R262). -/
def Hub.eventFinal (h : Hub) (e : FireRec) : Hub :=
  let e := { h.eventId e with final := true }
  let h := h.modEvent e.number (fun _ => e)
  let h := if h.settling.isNone then h.modTrig (fun t => { t with fires := [] }) else h
  let h := h.logAt (time96 e.time 0) 0x0801 0 srcPkg (e.cause + e.source * 256 + e.eventHub * 65536 + e.slots * 2 ^ 32 + e.busy * 2 ^ 48)
  let h := if e.wireOnly then h.log 0x0806 0 srcPkg (field (time96 e.time 0) 16 64) else h
  h.managerRest

/-- EVENT_SETTLE expires for the oldest event that settles. -/
def execEventSettleExpiry (s : State) : Host.Outcome State Fault Refusal :=
  onHubM (fun mb h =>
    if !mb.up then h else
    match h.settling with
    | some e => (h.waitTick (e.tick + h.get Obj.eventSettle * tMs)).eventFinal e
    | none => h) s

/-- The last row of a slot's window has been written: the slot is COMPLETE, with its gaps logged (R251 to R255). -/
def execCaptureComplete (n : Fin 16) (s : State) : Host.Outcome State Fault Refusal :=
  onHubM (fun _ h => if h.slotDone n then (h.slotComplete n false).managerRest else h) s

/-! ### Records, checks and commits -/

/-- An event record as LAST_EVENT and EVENT_HISTORY show it (Table 8.16). -/
def FireRec.word (e : FireRec) : Nat :=
  pack [(96, time96 e.eventTime 0), (16, e.eventHub), (16, 0), (96, time96 e.time 0), (8, e.cause), (8, e.source),
    (32, e.mask), (4, e.state), (12, 0), (16, e.slots), (16, e.busy), (16, e.fires),
    (8, b2n e.final + b2n e.wireOnly * 2 + b2n e.forced * 4), (40, 0), (32, e.number), (96, 0)]

/-- Record i of the history, 0 where there is none yet. A record that awaits its stamp is not in it (R241). -/
def Hub.eventWord (h : Hub) (i : Nat) : Nat :=
  match (h.trig.events.filter (fun e => e.wait.isNone))[i]? with
  | some e => e.word
  | none => 0

/-- A source word is refused (R232). -/
def srcBad (w : Nat) : Bool :=
  let kind := field w 0 4
  let num := field w 4 10
  let level := bitOf w 14
  match kind with
  | 0 => num ≠ 0
  | 1 => num > 31
  | 2 => num > 63
  | 3 => level || num > 31
  | 4 => num ≠ 0
  | 5 => num ≠ 0
  | 6 => level || num ≠ 0
  | 7 => !level || num > 1
  | 8 => level || num > 1
  | 9 => level || num > 3
  | _ => true

/-- A condition word is refused (R233): TERMS above 4, or an inverted term that names an edge source. -/
def Hub.condBad (h : Hub) (w : Nat) : Bool :=
  field w 25 3 > 4 || (condTerms w).any (fun t => t.2 && !h.srcLevelSense t.1)

/-- A commit changes a word whose change restarts the sequencer (R238). -/
def Hub.seqChanged (h old : Hub) : Bool :=
  let keys := (List.range 32).flatMap (fun s => [Obj.srcWord s, Obj.srcLevel s]) ++
    (List.range 16).flatMap (fun st => (List.range 4).map (Obj.seqWord st)) ++
    [Obj.counterTarget 0, Obj.counterTarget 1, Obj.timerLoad 0, Obj.timerLoad 1]
  keys.any (fun k => h.get k ≠ old.get k)

/-- The level of a source as it stands, and its source time. (DEDUCED: log 90.) -/
def Hub.srcStands (h : Hub) (s : Nat) : Bool × Nat :=
  match h.srcKind s with
  | 1 => ((vget h.trig.cmps (h.srcNum s)).out, (vget h.trig.cmps (h.srcNum s)).stamp)
  | 2 => (h.bit (Obj.detStatus (h.srcNum s)) 1 && h.detectorOn s, uOfTime96 (h.get (Obj.detResultTime (h.srcNum s))))
  | 4 => (h.trig.fireIn && h.trig.pulse.isNone, h.trig.fireAt)
  | 5 => (h.trig.armIn, h.trig.armAt)
  | _ => (false, h.now 0)

/-- The sources under a new configuration: one whose word is new, or whose truth a new LEVEL changes, stands at its level from now
on; the others stay as they are. No edge is left. (DEDUCED: log 90.) -/
def Hub.srcRefresh (h old : Hub) : Hub :=
  let now := h.time.ticks
  let h := h.forEach (List.range 32) (fun s h =>
    let l := h.srcStands s
    let moved := if h.get (Obj.srcWord s) ≠ old.get (Obj.srcWord s) then true
      else h.srcKind s = 2 && h.get (Obj.srcLevel s) ≠ old.get (Obj.srcLevel s) && l.1 ≠ (h.src s).level
    h.when moved (·.modSrc s (fun _ => { level := l.1, since := now, time := l.2 })))
  h.modTrig (fun t => { t with srcs := t.srcs.map (fun v => { v with edge := false }) })

/-- The sequencer stays frozen, as it was, through a commit in HOLD (R238). -/
def Hub.frozenAs (h old : Hub) : Hub :=
  h.modTrig (fun t => { t with
    heldAt := old.trig.heldAt.map (fun _ => h.time.ticks), resumeAt := old.trig.resumeAt })

/-- The sequencer after a commit (R238): a changed configuration restarts it in every mode, and SEQ_ENABLE stops it or starts it
afresh. -/
def Hub.seqCommit (h old : Hub) : Hub :=
  let on := h.flag Obj.seqEnable
  let h := if h.seqChanged old then (h.srcRefresh old).seqRestart else h
  if !on && old.flag Obj.seqEnable then h.seqStop.frozenAs h
  else if on && !old.flag Obj.seqEnable then h.seqStart.frozenAs h
  else h

/-- A comparator after a commit: its output is that of its input under the new settings, with no hysteresis from before; where
its input is not known, of a new CHANNEL or SCALE, the output is free. (DEDUCED: log 181.) -/
def Hub.cmpCommit (h old : Hub) (k : Nat) : Hub :=
  let moved := [Obj.cmpChannel k, Obj.cmpScale k].any (fun o => h.get o ≠ old.get o)
  if !moved && [Obj.cmpMode k, Obj.cmpThreshHi k, Obj.cmpThreshLo k, Obj.cmpHyst k].all (fun o => h.get o = old.get o) then h
  else
    let h := if moved then h.modCmp k (fun v => { v with input := none }) else h
    match (vget h.trig.cmps k).input with
    | some x => h.cmpOut k 0 (h.cmpLevel k x false)
    | none =>
      let d := h.drawBool
      d.2.cmpOut k 0 (d.1 && decide (h.get (Obj.cmpMode k) ≠ 0))

end Sys2Proof.Machine
end

