-- ==== Sys2Proof/Machine/Pipeline.lean ====
section
/-! DEFINITION. The filter pipeline's steps: raw frames arriving and released (R46 to R49), outputs leaving the chains, the
averagers and the diagnostic channels (R111, R130, R155), detectors (R163), and where sampling starts and stops. -/
namespace Sys2Proof.Machine

/-! ### Alignment buffers (R46, R47) -/

/-- The alignment buffer of hub die x for FE die f. -/
def Hub.alignOf (h : Hub) (x f : Nat) : AlignSt := vget h.align (x * 4 + f)
def Hub.modAlign (h : Hub) (x f : Nat) (g : AlignSt → AlignSt) : Hub := { h with align := vupd h.align (x * 4 + f) g }

/-- The data path of hub die x runs (Table 11.1). -/
def Hub.pathRuns (h : Hub) (x : Nat) : Bool := h.role x ≠ 0 && h.role x ≠ 6

/-- Every raw frame of FE die f whose sending has ended and that hub die x has not taken yet. -/
def Hub.nextFrame (h : Hub) (x f : Nat) : Option RawFrame :=
  let a := h.alignOf x f
  (vget h.fes f).sent.find? (fun r => r.idx ≥ h.relIdx && !(a.arrived.any (fun o => o.idx = r.idx)))

/-- A raw frame of FE die f arrives at hub die x `dt` ticks on; `good` says that its CRC-16 and its grid index are right. A frame
that is complete later than 1,000 ns after its grid instant is missed (R47). -/
def execRawFrameArrival (x : Fin 2) (f : Fin 4) (good : Bool) (dt : Nat) (s : State) : Host.Outcome State Fault Refusal :=
  onHubM (fun mb h =>
    if !mb.samples || !h.feUp f || !h.pathRuns x then h else
    let h := h.waitTicks dt
    match h.nextFrame x f with
    | none => h
    | some r =>
      if !good || h.now 0 > gridU r.idx + uUs || (h.alignOf x f).failed then h
      else h.modAlign x f (fun a => { a with arrived := a.arrived ++ [r] })) s

/-- Hub die x has or has not the frame of grid index `i`: a miss is counted and logged (R47). (DEDUCED: log 41, 124.) -/
def Hub.releaseOne (h : Hub) (i x f : Nat) : Hub :=
  if !h.pathRuns x || !h.feUp f then h else
  let a := h.alignOf x f
  match a.arrived.find? (fun r => r.idx = i) with
  | some r =>
    h.modAlign x f (fun a => { a with
      arrived := a.arrived.filter (fun o => o.idx > i), lastGood := r, recent := (false :: a.recent).take 1024 })
  | none =>
    let h := h.modAlign x f (fun a => { a with
      arrived := a.arrived.filter (fun o => o.idx > i), recent := (true :: a.recent).take 1024 })
    (h.bump (Obj.hdLinkMisses x f)).logAt (time96 (gridU i) 0) 0x0102 1 (srcHd x) (f + x * 256 + i % 2 ^ 48 * 65536)

/-- Hub die x has the frame of grid index `i` of FE die f. -/
def Hub.gotFrame (h : Hub) (x f i : Nat) : Option RawFrame :=
  if !h.pathRuns x then none else (h.alignOf x f).arrived.find? (fun r => r.idx = i)

/-- The frame fed to the chains of FE die f: the one received, else a repeat of the last good one, which has no side words of
its own. -/
def Hub.fedFrame (h : Hub) (f i : Nat) : RawFrame :=
  match h.gotFrame 0 f i, h.gotFrame 1 f i with
  | some r, _ => r
  | none, some r => r
  | none, none => { (h.alignOf h.leadDie f).lastGood with idx := i, sides := [], stamps := [] }

/-- An output of a channel takes its place among the latest: every one, and those that a hub die could compute. -/
def Hub.putOutput (h : Hub) (n : Nat) (r : OutRec) : Hub :=
  { h with outs := putOut h.outs n r, loopOuts := if r.lostBoth then h.loopOuts else putOut h.loopOuts n r }

/-- An output of FE die f that a hub die suppresses leaves in the frame at hand (R47, R324). -/
def Hub.noteSuppressed (h : Hub) (f : Nat) (r : OutRec) : Hub :=
  let n := h.now 0 / uFrame
  h.when (r.lost0 || r.lost1) (·.modFe f (fun v => { v with
    suppressed := n :: v.suppressed.filter (fun m => m ≠ n && m + 3 > n) }))

/-- An injected record joins its channel's latest, available to loops from `at_` on (Table 9.2). -/
def Hub.putRecord (h : Hub) (n at_ : Nat) (r : OutRec) : Hub :=
  let old := match h.injOuts.find? (fun e => e.1 = n) with
    | some e => e.2
    | none => []
  { h with injOuts := (n, ((at_, r) :: old).take 32) :: h.injOuts.filter (fun e => e.1 ≠ n) }

/-- An injected record leaves: to its stream, to control loops and to the mirror (R136). -/
def Hub.injectedOutput (h : Hub) (mb : ModeBlock) (i : Nat) (s : SideWord) (miss0 miss1 : Bool) : Hub :=
  let r := h.injectedRec i s miss0 miss1
  let h := (r.2.putRecord s.chan (gridU i + 2 * uUs) r.1).noteSuppressed (chFe s.chan) r.1
  let h := h.mirrorInj (s.chan / 8) s.entry r.1
  h.recordOutput mb (h.recordStream (Obj.chRecStream s.chan) r.1.instant) s.chan 0 r.1

/-- The hold stamps that a frame brings (R126). -/
def Hub.takeStamps (h : Hub) (f : Nat) (r : RawFrame) : Hub :=
  h.forEach r.stamps (fun e h => h.modCore (f * 12 + e.1) (fun v => { v with stamps := (e.2 :: v.stamps).take 8 }))

/-- The side words of a frame: injected conversions become records, background ones enter their diagnostic means.
(DEDUCED: log 124.) -/
def Hub.releaseSides (h : Hub) (mb : ModeBlock) (i : Nat) (r : RawFrame) (m0 m1 : Bool) : Hub :=
  h.forEach r.sides (fun s h =>
    if s.inj then h.injectedOutput mb i s m0 m1 else if s.chan < 528 then h.diagWord s m0 m1 else h)

/-- The regular words of a frame enter the histories and the averagers. -/
def Hub.releaseWords (h : Hub) (i f : Nat) (r : RawFrame) (m0 m1 : Bool) : Hub :=
  h.forEach (List.range 96) (fun j h =>
    let n := f * 96 + j
    if h.flag (Obj.chGated n) || (h.winHold n i).isSome then h.averageWord n i (r.word j) m0 m1 else h.chainWord n i (r.word j) m0 m1)

/-- A frame that no die received lengthens the run of lost frames, or begins one (R361). -/
def Hub.noteLostFrame (h : Hub) (i f : Nat) : Hub :=
  h.modFe f (fun v => if v.lostFrom + v.lostCount = i then { v with lostCount := v.lostCount + 1 }
    else { v with lostFrom := i, lostCount := 1 })

/-- The dies of a hub die's misses as a mask, by FE die. -/
def Hub.missMask (h : Hub) (x i : Nat) : Nat :=
  sumNat (h.feList.map (fun f => if (h.gotFrame x f i).isSome then 0 else 2 ^ f))

/-- The grid index is one that the FE dies have held. -/
def Hub.wasHeld (h : Hub) (i : Nat) : Bool :=
  h.feList.any (fun f => (vget h.fes f).frame.idx = i || (vget h.fes f).sent.any (fun r => r.idx = i))

/-- Grid index `i` is released to the pipeline (R46). -/
def Hub.release (h : Hub) (mb : ModeBlock) (i : Nat) : Hub :=
  let m0 := h.missMask 0 i
  let m1 := h.missMask 1 i
  let frames := (List.range 4).map (fun f => h.fedFrame f i)
  let h := h.forEach h.feList (fun f h => (h.releaseOne i 0 f).releaseOne i 1 f)
  let h := h.when mb.captures (·.captureRaw i frames m0 m1)
  h.forEach h.feList (fun f h =>
    let r := frames.getD f {}
    let h := h.when (bitOf m0 f && bitOf m1 f) (·.noteLostFrame i f)
    ((h.releaseWords i f r (bitOf m0 f) (bitOf m1 f)).takeStamps f r).releaseSides mb i r (bitOf m0 f) (bitOf m1 f))

/-- 1,000 ns after the next grid instant both alignment buffers release it. `full0` and `full1` say that a hub die's capture
write buffer is full then (R259); a readout fills it only under CAP_READ_PRIORITY 1. Grid indices that a step passed over were never held. -/
def execRawFrameRelease (full0 full1 : Bool) (s : State) : Host.Outcome State Fault Refusal :=
  onHubM (fun mb h =>
    if !mb.samples || h.relIdx ≥ h.time.nextGrid then h else
    let i := h.relIdx
    if !h.wasHeld i then { h with relIdx := i + 1 } else
    let h := (h.waitFor 0 (gridU i + uUs)).recordsDue
    let reads := h.flag Obj.capReadPriority
    let h := { h with capFull0 := reads && full0, capFull1 := reads && full1, relIdx := i + 1 }
    h.release mb i) s

/-! ### Outputs -/

/-- A clamp of stage 5 is counted, and logged after 1 s without one (R151, R168). -/
def Hub.noteClamp (h : Hub) (n : Nat) (r : OutRec) (scale : Nat) : Hub :=
  let h := h.bump (Obj.chOutputClamps n)
  let now := h.time.ticks
  let log := match (h.chain n).clampAt with
    | some t => decide (now ≥ t + tSec)
    | none => true
  let h := h.modChain n (fun v => { v with clampAt := some now })
  if log then h.log 0x0502 1 (srcFe (chFe n)) (n + b2n (outValue r.word < 0) * 4096 + scale * 8192) else h

/-- FILTER_STATUS shows the latest output (Table 5.11). -/
def filterStatus (w : Nat) (clamped gated : Bool) : Nat :=
  pack [(1, b2n (outTag w 3)), (1, b2n (outTag w 2)), (1, b2n (outTag w 5)), (1, b2n (outTag w 4)), (1, b2n (outTag w 7)),
    (1, b2n (outTag w 6)), (1, b2n clamped), (1, b2n gated)]

/-- A channel's output leaves: FILTER_STATUS, the clamp, the mirror item and the detectors (R155, R160). -/
def Hub.outputLeaves (h : Hub) (n : Nat) (r : OutRec) (clamped gated fresh : Bool) : Hub :=
  let h := h.when clamped (·.noteClamp n r (h.get (Obj.chOutScale n)))
  let h := h.put (Obj.chFilterStatus n) (filterStatus r.word clamped gated)
  (((h.putOutput n r).noteSuppressed (chFe n) r).mirrorOut n r).feedDetectors n r fresh

/-- The next output of the oldest history of channel n leaves stage 6 at t_k + ⌈D⌉ × 500 ns (R155). -/
def Hub.filterOutput (h : Hub) (mb : ModeBlock) (n : Nat) : Hub :=
  match (h.chain n).ctxs with
  | [] => h
  | c :: rest =>
    let k := c.next
    if h.relIdx ≤ c.newest k then h else
    let h := h.waitFor 0 (gridU (c.newest k + 3))
    let o := c.output h (h.chain n).hist k
    let r := o.1.1
    let h := o.2.modChain n (fun v => { v with
      ctxs := if c.last = some k then rest else { c with next := k + 1, fresh := false } :: rest })
    let h := h.outputLeaves n r o.1.2 false c.fresh
    (h.rowOutput mb (c.streamAt r.instant) n c.g r).when mb.captures (·.captureOutput n r)

/-- An output of channel n leaves stage 6. -/
def execFilterOutput (n : Fin 384) (s : State) : Host.Outcome State Fault Refusal :=
  onHubM (fun mb h =>
    if !mb.samples || !h.feUp (chFe n) || h.flag (Obj.chGated n) then h else h.filterOutput mb n) s

/-- The averaged output of channel n leaves 2.0 µs after the last averaged hold of its window (R111). -/
def execGatedAverageOutput (n : Fin 384) (s : State) : Host.Outcome State Fault Refusal :=
  onHubM (fun mb h =>
    match (h.ch n).avg.done with
    | none => h
    | some d =>
      if !mb.samples || !h.feUp (chFe n) || h.relIdx ≤ d then h else
      let h := h.waitFor 0 (gridU d + 2 * uUs)
      let r := h.averageRec n
      let h := h.modCh n (fun v => { v with avg := {} })
      let h := h.outputLeaves n r.1 r.2 true false
      h.recordOutput mb (h.recordStream (Obj.chStream n) r.1.instant) n 1 r.1) s

/-- A TEMP output of core k takes effect from a grid index on, and TEMP_STALE follows |ΔT| (R172, R173). -/
def Hub.tempOutput (h : Hub) (k from_ : Nat) (t : Int) : Hub :=
  let h := h.modCore k (fun v => { v with temps := ((from_, t) :: v.temps).take 8 })
  let d := t - h.getI 16 (Obj.calcTCal k)
  let stale := decide (d.natAbs > 15 * 256)
  let h := h.when stale (·.forEach (List.range 8) (fun i h => h.putBit (Obj.chCalStatus (k * 8 + i)) 3 true))
  if stale && !(h.core k).staleLogged then
    (h.modCore k (fun v => { v with staleLogged := true })).log 0x060A 1 (srcFe (k / 12))
      (k / 12 + k % 12 * 256 + ofSigned 16 d * 65536)
  else h

/-- The oldest period of diagnostic source q of core k ends, and its mean leaves 2.0 µs later (R130). -/
def Hub.diagOutput (h : Hub) (mb : ModeBlock) (k q : Nat) : Hub :=
  match h.diagNext k q with
  | none => h
  | some a =>
    let n := 384 + k * 3 + q
    let fin := a.fin
    let h := h.waitFor 0 (fin + 2 * uUs)
    let h := h.modCore k (fun v => { v with
      diag := (v.diag.filter (fun e => e.1 ≠ q || fin < e.2.fin || (e.2.fin = fin && fin % (2 * diagHalf) ≠ 0))).map
        (fun e => if e.1 = q && e.2.fin = fin then (q, { e.2 with out := true }) else e) })
    let r := diagRec a
    let h := (((h.putOutput n r).noteSuppressed (k / 12) r).mirrorOut n r).feedDetectors n r false
    let h := h.when (q = 2) (·.tempOutput k (ceilDiv (fin + 4 * uUs) uGrid) (outValue r.word / 64))
    h.recordOutput mb (h.recordStream (Obj.chStream n) r.instant) n 2 r

/-- A diagnostic channel's output: core k = f × 12 + c, source q. -/
def execDiagOutput (k : Fin 48) (q : Fin 3) (s : State) : Host.Outcome State Fault Refusal :=
  onHubM (fun mb h => if !mb.samples || !h.feUp (k / 12) then h else h.diagOutput mb k q) s

/-- A detector takes its source's output 200 ns after it left, and the sequencer sees the result (R163, R242). -/
def execDetectorUpdate (d : Fin 64) (s : State) : Host.Outcome State Fault Refusal :=
  onHubM (fun mb h =>
    if !mb.up then h else
    let n := h.get (Obj.detUpdates d)
    let h := h.detUpdate d
    if h.get (Obj.detUpdates d) = n then h else h.srcDetector d) s

/-! ### Sampling starts and stops (Table 2.2) -/

/-- What a core keeps where sampling starts or stops: no conversion, no start, no mean in progress. -/
def CoreSt.rest (v : CoreSt) : CoreSt :=
  { v with
    slot := 10, guard := false, injUsed := 0, regPending := [], cur := none, nbrNext := false, bgStarve := 0
    bgDone := true, edges := [], dues := [], defer := none, injQ := [], stamps := [], refStreak := 0, diag := []
    diagWas := [] }

/-- Sampling stops: the histories and the frames in hand are gone. -/
def Hub.samplingStop (h : Hub) : Hub :=
  { h with
    cores := h.cores.map CoreSt.rest
    fes := h.fes.map (fun v => { v with frame := {}, sent := [] })
    align := h.align.map (fun a => { a with arrived := [] })
    chains := h.chains.map (fun v => { v with hist := [], lastRange := none, ctxs := [] })
    dets := h.dets.map (fun v => { v.restart with inbox := [] }) }

/-- Sampling starts with the next grid instant: ranges, histories and detectors begin there (R94, R157). -/
def Hub.samplingStart (h : Hub) : Hub :=
  let h := h.samplingStop
  let g := nextGridAfter h.time.nextGrid (h.acc 0)
  let h := { h with time := { h.time with nextGrid := g }, relIdx := g }
  (h.startRanges).resetChannels h.chList g 1 true

end Sys2Proof.Machine
end

