-- ==== Sys2Proof/Machine/HouseCheck.lean ====
section
/-! DEFINITION. The house check (R368, Table 12.8): its thirteen steps in order, the figures of the plan they compute, and the
stagger offsets it assigns. A failure is an abort code with the die, port or stream and the channel or index it names. -/
namespace Sys2Proof.Machine

/-- What fails in a step: abort code, die, port or stream, and channel or index. -/
abbrev HcFail := Nat × Nat × Nat

/-- A failure where a condition holds. -/
def failIf (c : Bool) (code unit idx : Nat) : Option HcFail := if c then some (code, unit, idx) else none

/-- The first failure of a list. -/
def firstFail (l : List (Option HcFail)) : Option HcFail := l.findSome? id

/-- Local and diagnostic channels of present, working FE dies, ascending. -/
def Hub.chHere (h : Hub) (n : Nat) : Bool := chDie n < h.part.fe && h.die (chDie n) < 4
def Hub.chPlan (h : Hub) : List Nat := (List.range 528).filter h.chHere
def Hub.coreHere (h : Hub) (k : Nat) : Bool := k / 12 < h.part.fe && h.die (k / 12) < 4

/-! ### Step 1: front end and conversion (R94, R127, R128, R131, R132, R144) -/

def Hub.hcChannel (h : Hub) (n : Nat) : Option HcFail :=
  if n < 384 then
    failIf (h.get (Obj.chRangeCoarsest n) > h.get (Obj.chRangeFinest n)) Abort.rangeLimitsInvalid 0 n
  else failIf (h.get (Obj.chDiagPeriod n) ≠ 6 && h.get (Obj.chDiagPeriod n) ≠ 7) Abort.valueOutOfRange 0 n

/-- The nibbles of a background list in use. -/
def Hub.bgNibbles (h : Hub) (k : Nat) : List Nat :=
  (List.range (h.get (Obj.coreBgCount k))).map (fun p => field (h.get (Obj.coreBgList k)) (4 * p) 4)

/-- INJ_SOURCE names a source that does not exist, or no edge (R132, Table 4.9). -/
def injSourceBad (w : Nat) : Bool :=
  match field w 0 4 with
  | 0 => false
  | 1 => false
  | 2 => field w 4 5 > 3 || field w 9 2 = 0
  | 3 => field w 4 5 > 1 || field w 9 2 = 0
  | _ => true

def Hub.hcCore (h : Hub) (k : Nat) : Option HcFail :=
  let order := (List.range 8).map (h.regInput k)
  let l := h.bgNibbles k
  firstFail [
    failIf (!(List.range 8).all order.contains) Abort.valueOutOfRange 0 k,
    failIf (l.any (· > 3)) Abort.valueOutOfRange 0 k,
    failIf (!(l.contains 0 && l.contains 1 && l.contains 2)) Abort.bgListIncomplete 0 k,
    failIf (((List.range 8).filter (fun i => h.flag (Obj.chInjEligible (k * 8 + i)))).length > 4) Abort.injEligibleExceeded 0 k,
    failIf (injSourceBad (h.get (Obj.coreInjSource k))) Abort.valueOutOfRange 0 k]

def Hub.hcStep1 (h : Hub) : Option HcFail :=
  firstFail (h.chPlan.map h.hcChannel ++ ((List.range 48).filter h.coreHere).map h.hcCore)

/-! ### Step 2: filters and detectors (R162, R163, R166) -/

def Hub.hcFilter (h : Hub) (n : Nat) : Option HcFail :=
  let o := h.get (Obj.chCicOrder n)
  failIf (h.get (Obj.chFilterPreset n) > 7 || o < 3 || o > 5 || h.get (Obj.chPhaseDelay n) > 262144 ||
    h.get (Obj.chOutScale n) > 3) Abort.valueOutOfRange 0 n

/-- A forwarded descriptor is in use (R346). -/
def Hub.fwdInUse (h : Hub) (n : Nat) : Bool := h.get (Obj.chSrcHub n) ≠ 0xFFFF

/-- The limits of Table 5.8. -/
def detParamsOk (type a b : Nat) : Bool :=
  match type with
  | 1 => 1 ≤ a && a ≤ 16777215
  | 2 => 1 ≤ a && a ≤ 20
  | 3 => 1 ≤ a && a ≤ 20
  | 4 => a ≤ 15 && b ≤ 24
  | _ => false

def Hub.detSourceBad (h : Hub) (n : Nat) : Bool :=
  if n < 528 then !h.chHere n || (n < 384 && h.flag (Obj.chGated n) && h.get (Obj.excMode (chDrv n)) ≠ 3)
  else n > 4095 || !h.fwdInUse n || !h.flag (Obj.chUnpack n)

def Hub.hcDetector (h : Hub) (d : Nat) : Option HcFail :=
  let t := h.get (Obj.detType d)
  if t = 0 then none else
  firstFail [
    failIf (!detParamsOk t (h.get (Obj.detParamA d)) (h.get (Obj.detParamB d))) Abort.valueOutOfRange 0 d,
    failIf (h.detSourceBad (h.get (Obj.detSource d))) Abort.detectorSourceInvalid 0 d]

def Hub.hcStep2 (h : Hub) : Option HcFail :=
  firstFail ((h.chPlan.filter (· < 384)).map h.hcFilter ++ (List.range 64).map h.hcDetector)

/-! ### Steps 3 and 4 -/

/-- The trigger configuration (R232, R233, R239, R247): HC_ITEM names the source, the sequencer state or the comparator.
(DEDUCED: log 162.) -/
def Hub.hcStep3 (h : Hub) : Option HcFail :=
  let code := Abort.triggerConfigInvalid
  firstFail ((List.range 32).map (fun s => failIf (srcBad (h.get (Obj.srcWord s))) code 0 s) ++
    (List.range 16).map (fun st => failIf (h.condBad (h.get (Obj.seqWord st 0)) || h.condBad (h.get (Obj.seqWord st 2))) code 0 st) ++
    (List.range 32).map (fun k => failIf ((h.get (Obj.cmpMode k) = 3 || h.get (Obj.cmpMode k) = 4) &&
      h.getI 16 (Obj.cmpThreshLo k) ≥ h.getI 16 (Obj.cmpThreshHi k)) code (k / 8) k) ++
    [failIf (h.get Obj.autoMode = 1 && h.get Obj.cueRole ≥ 2) code 0 0])

/-- The lowest base at which `size` consecutive free megabytes begin beside the slots placed (base and size) (R472). -/
def freeBase (placed : List (Nat × Nat)) (size : Nat) : Option Nat :=
  let cands := 0 :: placed.map (fun p => p.1 + p.2)
  let ok (b : Nat) : Bool := b + size ≤ 3840 && placed.all (fun p => p.1 + p.2 ≤ b || b + size ≤ p.1)
  (cands.filter ok).foldl (fun a b => match a with
    | some c => some (min c b)
    | none => some b) none

/-- A slot that keeps its base: enabled before and after with the same SIZE. -/
def Hub.slotKeeps (h old : Hub) (s : Nat) : Bool :=
  old.flag (Obj.slotEnable s) && old.get (Obj.slotSize s) = h.get (Obj.slotSize s) && old.get (Obj.mdSlotBase s) < 3840

/-- The bases of the enabled slots (R472): slot, base and size; none where one cannot be placed. -/
def Hub.placeSlots (h old : Hub) : Option (List (Nat × Nat × Nat)) :=
  let keep := h.slotsOn.filter (h.slotKeeps old)
  let start := keep.map (fun s => (s, old.get (Obj.mdSlotBase s), h.get (Obj.slotSize s)))
  (h.slotsOn.filter (fun s => !h.slotKeeps old s)).foldl (fun a s => match a with
    | none => none
    | some l => (freeBase (l.map (·.2)) (h.get (Obj.slotSize s))).map (fun b => l ++ [(s, b, h.get (Obj.slotSize s))])) (some start)

/-- The largest free run beside the slots placed. -/
def largestHole (placed : List (Nat × Nat)) : Nat :=
  let from_ (b : Nat) : Nat :=
    if placed.any (fun p => p.1 ≤ b && b < p.1 + p.2) then 0
    else (placed.filter (fun p => p.1 ≥ b)).foldl (fun a p => min a p.1) 3840 - b
  ((0 :: placed.map (fun p => p.1 + p.2)).map from_).foldl max 0

/-- MD_SLOT_BASE and CAP_LARGEST_HOLE of the plan in force. -/
def Hub.slotFigures (h old : Hub) : Hub :=
  let l := (h.placeSlots old).getD []
  let h := h.forEach (List.range 16) (fun s h => h.put (Obj.mdSlotBase s) (match l.find? (fun e => e.1 = s) with
    | some e => e.2.1
    | none => 0xFFFFFFFF))
  h.put Obj.capLargestHole (largestHole (l.map (·.2)))

/-- The capture slots (R249 to R251, R472): HC_ITEM names the slot; of SIZEs that exceed the area together, the slot whose SIZE
passes it. (DEDUCED: log 162.) -/
def Hub.hcStep4 (h old : Hub) : Option HcFail :=
  let on := h.slotsOn
  let size (l : List Nat) : Nat := sumNat (l.map (fun s => h.get (Obj.slotSize s)))
  firstFail (on.map (fun s => failIf (size (on.filter (· ≤ s)) > 3840) Abort.captureAreaExceeded 0 s) ++
    on.map (fun s => failIf (h.slotSourceBad s) Abort.captureSourceInvalid 0 s) ++
    on.map (fun s => failIf (h.get (Obj.slotPre s) + h.get (Obj.slotPost s) > h.slotCap s) Abort.captureTooLong 0 s) ++
    [failIf (h.placeSlots old).isNone Abort.captureAreaExceeded 0 0])

/-! ### Step 5: loops (R263, R267, R272, R273, R274, R276, R283, Table 9.7) -/

/-- The fields of a loop contradict each other. -/
def Hub.loopConfigBad (h : Hub) (l : Nat) : Bool :=
  let kind := h.get (Obj.loopOutputKind l)
  let law := h.get (Obj.loopLaw l)
  let cyc := h.get (Obj.loopCycle l)
  let lim := h.genLimits l
  let sweep := h.get (Obj.injInjKind l) = 4
  let tooFast (f : Nat) : Bool := f * cyc > 10000000
  h.get (Obj.loopPhase l) ≥ cyc || (kind = 2 && law = 0) || (kind = 1 && law = 1) ||
    (kind = 3 && h.get (Obj.loopOutputA l) > 7) ||
    (h.get (Obj.injInjPoint l) = 2 && kind ≠ 3) ||
    (h.flag (Obj.genGenEnable l) && (lim.1 = 0 || lim.2.1 = 0 || lim.2.2 = 0)) ||
    h.loopModeRefusal l (h.get (Obj.loopLoopMode l)) ≠ 0 ||
    (sweep && (tooFast (h.get (Obj.injSineFStart l)) || tooFast (h.get (Obj.injSineFEnd l))))

/-- A trace buffer on loop l, enabled or not, names a reserved node (Table 9.7). -/
def Hub.traceBad (h : Hub) (l : Nat) : Bool :=
  (List.range 8).any (fun b => h.get (Obj.traceTraceLoop b) = l && h.get (Obj.traceTraceNode b) > 12)

/-- MEASURE names no source (R267). -/
def Hub.loopSourceBad (h : Hub) (l : Nat) : Bool :=
  let w := h.get (Obj.loopMeasure l)
  let n := w % 4096
  match field w 12 2 with
  | 0 => n ≥ 528 || !h.chHere n
  | 1 => n ≥ 384 || !h.chHere n || !h.flag (Obj.chInjEligible n)
  | 2 => n > 63 || h.get (Obj.detType n) = 0
  | _ => true

/-- The string a loop names. -/
def Hub.loopStrings (h : Hub) (l : Nat) : List Nat :=
  if h.get (Obj.loopOutputKind l) = 3 then [h.get (Obj.loopOutputA l)] else []

/-- A pattern engine holds the string. -/
def Hub.engHolds (h : Hub) (s : Nat) : Bool := (List.range 4).any (fun g => h.bit (Obj.engEngMask g) s)

/-- Two blocks claim one output (R272, R297). -/
def Hub.loopConflict (h : Hub) (on : List Nat) (l : Nat) : Bool :=
  let cs := h.loopBalls l
  let ss := h.loopStrings l
  on.any (fun m => m ≠ l && (cs.any (h.loopBalls m).contains || ss.any (h.loopStrings m).contains)) ||
    cs.any (fun o => h.get (Obj.ctlSource o) ≠ 1) ||
    ss.any (fun s => h.get (Obj.flSource s) ≠ 1 || h.engHolds s) ||
    (cs.length = 2 && cs.getD 0 0 = cs.getD 1 0)

def Hub.loopsOn (h : Hub) : List Nat := (List.range 32).filter (fun l => h.flag (Obj.loopEnable l))

def Hub.hcStep5 (h : Hub) : Option HcFail :=
  let on := h.loopsOn
  firstFail ((List.range 32).map (fun l =>
    let en := on.contains l
    firstFail [
      failIf (h.traceBad l || (en && h.loopConfigBad l)) Abort.loopConfigInvalid 0 l,
      failIf (en && h.loopSourceBad l) Abort.loopSourceInvalid 0 l,
      failIf (en && h.loopConflict on l) Abort.loopOutputConflict 0 l]))

/-! ### Step 6: footlights (R297, R306) -/

/-- A step word is invalid under a mask of held strings. -/
def stepBad (mask w : Nat) : Bool :=
  let type := field w 0 4
  let sel := field w 4 8
  let timed := type ≤ 3
  type > 7 || (timed && field w 29 24 = 0) || field w 12 17 > 65536 ||
    (List.range 8).any (fun s => bitOf sel s && !bitOf mask s) ||
    (type = 3 && field w 59 3 = 0) || (type = 6 && bitOf w 58) || (type ≠ 3 && field w 59 4 ≠ 0)

/-- The strings and engines (R297, R300, R306): HC_ITEM names the string or the engine. (DEDUCED: log 162.) -/
def Hub.hcStep6 (h : Hub) : Option HcFail :=
  let held (s : Nat) : Nat := ((List.range 4).filter (fun g => h.bit (Obj.engEngMask g) s)).length
  firstFail (
    (List.range 8).map (fun s => failIf (held s > 1 || (held s = 1 && h.get (Obj.flSource s) ≠ 2) ||
        2 ^ h.get (Obj.flPwmBits s) ≤ h.get (Obj.flPwmPhase s))
      Abort.footlightsConfigInvalid 0 s) ++
    (List.range 4).map (fun g => failIf
      ((List.range 64).any (fun i => stepBad (h.get (Obj.engEngMask g)) (h.get (Obj.engStep g i))))
      Abort.footlightsConfigInvalid g 0))

/-! ### Step 7: streams, forwarded descriptors, entries (R344, R346, R349, R350, R358, R369, R370) -/

def Hub.streamsOn (h : Hub) : List Nat := (List.range 64).filter (fun q => h.flag (Obj.stEnable q))
def Hub.entriesOn (h : Hub) : List Nat := (List.range 128).filter (fun j => h.flag (Obj.fwdEnable j))

/-- The channels whose outputs, and those whose injected records, go to stream q. -/
def Hub.outMembers (h : Hub) (q : Nat) : List Nat := h.chPlan.filter (fun n => h.get (Obj.chStream n) = q)
def Hub.recMembers (h : Hub) (q : Nat) : List Nat :=
  h.chPlan.filter (fun n => n < 528 && h.get (Obj.chRecStream n) = q)

/-- The channel's outputs are records: it is gated or diagnostic. -/
def Hub.givesRecords (h : Hub) (n : Nat) : Bool := n ≥ 384 || h.flag (Obj.chGated n)

/-- Edges per second of a core's start source (R370). -/
def Hub.edgeRate (h : Hub) (k : Nat) : Rat :=
  let cue (c m : Nat) : Rat :=
    let p := h.get (Obj.cuePeriod c)
    if p = 0 then 0 else ((m * uSec : Nat) : Rat) / (p : Nat)
  let num := h.injNumber k
  match h.injKind k with
  | 1 => cue num 1
  | 2 =>
    let o := k / 12 * 4 + num
    match h.get (Obj.ctlSource o) with
    | 0 => 1000
    | 1 =>
      match h.loopsOn.find? (fun l => (h.loopBalls l).contains o) with
      | some l => (100000 : Rat) / (h.get (Obj.loopCycle l) : Nat)
      | none => 0
    | _ => cue (h.get (Obj.ctlCue o)) 2
  | 3 =>
    let per : Nat := 2 ^ h.get (Obj.flPwmBits (k / 12 * 2 + num))
    let m : Nat := if h.injEdges k = 3 then 2 else 1
    ((m * 80000000 : Nat) : Rat) / (per : Nat)
  | _ => 0

/-- s_c: starts of core k per second. (DEDUCED: log 123.) -/
def Hub.startRate (h : Hub) (k : Nat) : Rat :=
  let e := h.edgeRate k + 1000
  let n := (h.injEntries k).length
  let cap : Rat := (2000000 : Rat) / (((n + 1) / 2 : Nat) : Rat)
  if n = 0 then 0 else if e < cap then e else cap

/-- W of a RECORD stream (R370). -/
def Hub.recordRate (h : Hub) (q : Nat) : Rat :=
  let one (n : Nat) : Rat :=
    if n ≥ 384 then (2000000 : Rat) / ((presetRaw (h.get (Obj.chDiagPeriod n)) : Nat) : Rat)
    else (2000000 : Rat) / ((h.pulsePeriod (chDrv n) : Nat) : Rat)
  let outs := ((h.outMembers q).filter h.givesRecords).foldl (fun a n => a + one n) (0 : Rat)
  let inj (n : Nat) : Rat := if (h.injEntries (chCore n)).contains (chInput n) then h.startRate (chCore n) else 0
  (h.recMembers q).foldl (fun a n => a + inj n) outs

/-- Frames of stream q per second, and bytes of its largest frame. -/
def Hub.frameRate (h : Hub) (q : Nat) : Rat :=
  let fs : Nat := h.get (Obj.stFrameSamples q)
  if h.get (Obj.stKind q) = 1 then h.recordRate q / (fs : Rat) + (1000000 : Rat) / (h.get (Obj.stMaxAge q) : Nat)
  else (2000000 : Rat) / ((fs * presetRaw (h.get (Obj.stPreset q)) : Nat) : Rat)
def Hub.frameMax (h : Hub) (q : Nat) : Nat :=
  let fs := h.get (Obj.stFrameSamples q)
  if h.get (Obj.stKind q) = 1 then 36 + 20 * fs
  else
    let c := (h.outMembers q).length
    36 + 2 * c + (if c % 2 = 1 then 2 else 0) + 4 * fs * c

/-- Bytes per second of a stream with `ov` bytes added to each frame (R372, R373). -/
def Hub.streamLoad (h : Hub) (q ov : Nat) : Rat :=
  if h.get (Obj.stKind q) = 1 then
    h.recordRate q * 20 + h.frameRate q * ((36 + ov : Nat) : Rat)
  else h.frameRate q * ((h.frameMax q + ov : Nat) : Rat)

/-- The port p of some hub die that carries frames runs the Ethernet personality. -/
def Hub.ethPort (h : Hub) (p : Nat) : Bool := h.senders.any (fun x => h.laneEth (x * 8 + p))
def Hub.uplinkPorts (w : Nat) : List Nat := match uplinkAlt w with
  | some a => [uplinkPrim w, a]
  | none => [uplinkPrim w]

/-- An UPLINK word names its primary as the alternate. (DEDUCED: log 126.) -/
def uplinkBad (w : Nat) : Bool := uplinkAlt w = some (uplinkPrim w)

/-- A frame of `n` bytes is too large for the ports of an UPLINK word (R358). -/
def Hub.tooLarge (h : Hub) (n w : Nat) : Bool := n > 16384 || (n > 8944 && (Hub.uplinkPorts w).any h.ethPort)

def Hub.hcStream (h : Hub) (q : Nat) : Option HcFail :=
  let on := h.flag (Obj.stEnable q)
  let kind := h.get (Obj.stKind q)
  let outs := h.outMembers q
  let recs := h.recMembers q
  let fs := h.get (Obj.stFrameSamples q)
  let w := h.get (Obj.stUplink q)
  firstFail ([
    failIf (outs.any (fun n => !on || (kind = 1) ≠ h.givesRecords n)) Abort.streamConfigInvalid q 0,
    failIf (recs.any (fun n => !on || kind ≠ 1 || 384 ≤ n || !h.flag (Obj.chInjEligible n))) Abort.streamConfigInvalid q 0] ++
    if !on then [] else [
      failIf (kind = 0 && outs.any (fun n => h.get (Obj.chFilterPreset n) ≠ h.get (Obj.stPreset q)))
        Abort.streamRateMismatch q 0,
      failIf (fs < 1 || fs > 1024 || (kind = 0 && fs * presetRaw (h.get (Obj.stPreset q)) < 40) ||
        (kind = 1 && h.frameRate q > 50000)) Abort.streamConfigInvalid q 0,
      failIf (uplinkBad w) Abort.streamConfigInvalid q 0,
      failIf (h.tooLarge (h.frameMax q) w) Abort.frameTooLarge q 0])

/-- The forwarded descriptors in use, ascending. -/
def Hub.fwdChannels (h : Hub) : List Nat := ((List.range 3568).map (· + 528)).filter h.fwdInUse

def Hub.hcForwarded (h : Hub) : List (Option HcFail) :=
  let used := h.fwdChannels
  let src (n : Nat) : Nat × Nat := (h.get (Obj.chSrcHub n), h.get (Obj.chSrcChannel n))
  used.map (fun n => failIf (used.any (fun m => m < n && src m = src n) || !h.flag (Obj.fwdEnable (h.get (Obj.chFwdEntry n))))
    Abort.forwardConfigInvalid 0 n) ++
  [failIf ((used.filter (fun n => h.flag (Obj.chUnpack n))).length > 496) Abort.descCacheExceeded 0 0]

def Hub.hcEntries (h : Hub) : List (Option HcFail) :=
  let on := h.entriesOn
  let key (j : Nat) : Nat × Nat := (h.get (Obj.fwdSrcHub j), h.get (Obj.fwdSrcStream j))
  on.map (fun j => firstFail [
    failIf (h.get (Obj.fwdSrcHub j) = 0xFFFF || h.get (Obj.fwdSrcHub j) = h.get Obj.hubIdActive ||
      on.any (fun i => i < j && key i = key j)) Abort.forwardConfigInvalid 0 j,
    failIf (uplinkBad (h.get (Obj.fwdUplink j))) Abort.streamConfigInvalid 0 j,
    failIf (h.tooLarge (h.get (Obj.fwdMaxFrameBytes j)) (h.get (Obj.fwdUplink j))) Abort.frameTooLarge 0 j])

def Hub.hcStep7 (h : Hub) : Option HcFail :=
  firstFail ((List.range 64).map h.hcStream ++ h.hcForwarded ++ h.hcEntries)

/-! ### Step 8: excitation (R106 to R110, R112). Currents in 0.5 µA, times in 0.5 µs. -/

/-- The current a driver counts with while it is on (Table 3.5). -/
def Hub.excCounted (h : Hub) (d : Nat) : Nat :=
  match h.get (Obj.excMode d) with
  | 0 => 0
  | 2 => 5 * h.get (Obj.excLevel d)
  | 3 => if h.get (Obj.excPulseKind d) = 1 then 5 * h.get (Obj.excLevel d) else 2 * h.get (Obj.excCurrentLimit d)
  | _ => 2 * h.get (Obj.excCurrentLimit d)

/-- LEVEL outside what MODE allows. -/
def Hub.excLevelBad (h : Hub) (d : Nat) : Bool :=
  let m := h.get (Obj.excMode d)
  let v := h.get (Obj.excLevel d)
  let volt := v < 400 || v > 4000
  let cur := v < 4 || v > 4000
  match m with
  | 0 => false
  | 1 => volt
  | 2 => cur
  | 3 => if h.get (Obj.excPulseKind d) = 1 then cur else volt
  | 4 => volt
  | _ => true

/-- A pulsed driver placed in its period group: driver, period, offset, width and current. -/
structure PulseAt where
  drv : Nat
  per : Nat
  off : Nat
  width : Nat
  cur : Nat
deriving DecidableEq, Repr

def Hub.pulsed (h : Hub) (f : Nat) : List Nat :=
  ((List.range 24).map (fun e => f * 24 + e)).filter (fun d => h.get (Obj.excMode d) = 3)

def Hub.pulseAt (h : Hub) (d off : Nat) : PulseAt :=
  ⟨d, h.pulsePeriod d, off, h.get (Obj.excPulseWidth d), h.excCounted d⟩

/-- The current of a group at an instant. -/
def groupAt (g : List PulseAt) (t : Nat) : Nat := sumNat ((g.filter (fun p => p.off ≤ t && t < p.off + p.width)).map (·.cur))

/-- The largest current of a group: it is reached where one of its windows begins. -/
def groupPeak (g : List PulseAt) : Nat := (g.map (fun p => groupAt g p.off)).foldl max 0

/-- The peaks of all period groups added. -/
def groupsPeak (l : List PulseAt) : Nat :=
  sumNat ((l.map (·.per)).eraseDups.map (fun p => groupPeak (l.filter (fun x => x.per = p))))

/-- peak(f) of R107 for the pulsed drivers placed. -/
def Hub.excPeak (h : Hub) (f : Nat) (l : List PulseAt) : Nat :=
  let dc := ((List.range 24).map (fun e => f * 24 + e)).filter (fun d => h.get (Obj.excMode d) ≠ 3)
  sumNat (dc.map h.excCounted) + groupsPeak l

/-- The smallest whole-µs offset that R109 allows. An offset can first become free only at 0, where a window of the group ends,
or right after an offset in use. -/
def Hub.autoOffset (h : Hub) (f : Nat) (placed : List PulseAt) (d : Nat) : Option Nat :=
  let p := h.pulseAt d 0
  let grp := placed.filter (fun x => x.per = p.per)
  let cands := 0 :: grp.flatMap (fun x => [(x.off + x.width + 1) / 2 * 2, x.off + 2])
  let ok (s : Nat) : Bool := s + p.width ≤ p.per && !grp.any (fun x => x.off = s) &&
    h.excPeak f (placed ++ [{ p with off := s }]) ≤ 2000 * h.get (Obj.excPeakBudget f)
  (cands.filter ok).foldl (fun a s => match a with
    | some b => some (min b s)
    | none => some s) none

/-- The placement of the pulsed drivers of FE die f: as written, or assigned in ascending driver number. -/
def Hub.placePulses (h : Hub) (f : Nat) : Option (List PulseAt) :=
  if h.flag Obj.staggerAuto then
    (h.pulsed f).foldl (fun a d => match a with
      | none => none
      | some l => (h.autoOffset f l d).map (fun s => l ++ [h.pulseAt d s])) (some [])
  else
    let l := (h.pulsed f).map (fun d => h.pulseAt d (h.pulseOffset d))
    if l.all (fun p => p.off + p.width ≤ p.per && !l.any (fun x => x.drv < p.drv && x.per = p.per && x.off = p.off))
    then some l else none

/-- The average current of the package in 0.5 µA (R108). -/
def Hub.excAverage (h : Hub) : Rat :=
  ((List.range 96).filter (fun d => d / 24 < h.part.fe && h.die (d / 24) < 4)).foldl (fun a d =>
    let i : Rat := ((h.excCounted d : Nat) : Rat)
    a + (if h.get (Obj.excMode d) = 3 then i * ((h.get (Obj.excPulseWidth d) : Nat) : Rat) / ((h.pulsePeriod d : Nat) : Rat)
      else i)) (0 : Rat)

def Hub.hcExcDie (h : Hub) (f : Nat) : Option HcFail :=
  let drvs := (List.range 24).map (fun e => f * 24 + e)
  firstFail (drvs.map (fun d => failIf (h.excLevelBad d) Abort.valueOutOfRange f d) ++
    match h.placePulses f with
    | none => [some (Abort.excStaggerUnfit, f, 0)]
    | some l => [failIf (h.excPeak f l > 2000 * h.get (Obj.excPeakBudget f)) Abort.excPeakExceeded f 0])

def Hub.hcGated (h : Hub) (n : Nat) : Option HcFail :=
  if !h.flag (Obj.chGated n) then none else
  firstFail [
    failIf (h.get (Obj.excMode (chDrv n)) ≠ 3) Abort.gateWithoutPulse 0 n,
    failIf (h.get (Obj.excPulseWidth (chDrv n)) < h.get (Obj.chExcSettle n) + 1) Abort.excWindowEmpty 0 n]

def Hub.fePlan (h : Hub) : List Nat := (List.range 4).filter (fun f => f < h.part.fe && h.die f < 4)

def Hub.hcStep8 (h : Hub) : Option HcFail :=
  firstFail (h.fePlan.map h.hcExcDie ++
    [failIf (h.excAverage > ((2000 * h.get Obj.excAvgBudget : Nat) : Rat)) Abort.excAverageExceeded 0 0] ++
    (h.chPlan.filter (· < 384)).map h.hcGated)

/-! ### Step 9: control-engine load (R279) -/

def Hub.loadAvg (h : Hub) : Rat :=
  h.loopsOn.foldl (fun a l => a + ((h.loopCost l : Nat) : Rat) / ((h.get (Obj.loopCycle l) : Nat) : Rat)) (0 : Rat)

/-- L_peak and whether it is exact. -/
def Hub.loadPeak (h : Hub) : Nat × Bool :=
  let on := h.loopsOn
  let m := on.foldl (fun a l => Nat.lcm a (h.get (Obj.loopCycle l))) 1
  let at_ (n : Nat) : Nat := sumNat ((on.filter (fun l => n % h.get (Obj.loopCycle l) = h.get (Obj.loopPhase l))).map h.loopCost)
  if m ≤ 1048576 then (((List.range m).map at_).foldl max 0, true) else (sumNat (on.map h.loopCost), false)

def Hub.hcStep9 (h : Hub) : Option HcFail :=
  firstFail [
    failIf (h.loadAvg > 40) Abort.controlBudgetExceeded 0 0,
    failIf (h.flag Obj.ctrlPeakStrict && h.loadPeak.1 > 40) Abort.controlPeakExceeded 0 0]

/-! ### Steps 10 to 13: channel streams, memory, lanes, queues -/

def Hub.channelStreams (h : Hub) : Nat :=
  let on (q : Nat) : Bool := q < 64 && h.flag (Obj.stEnable q)
  (h.chPlan.filter (fun n => on (h.get (Obj.chStream n)) || (n < 384 && on (h.get (Obj.chRecStream n))))).length +
    sumNat (h.entriesOn.map (fun j => h.get (Obj.fwdChannels j)))

def Hub.hcStep10 (h : Hub) : Option HcFail := failIf (h.channelStreams > 4096) Abort.channelStreamsExceeded 0 0

/-- Bytes per second of a hub die's memory interface (R374). -/
def Hub.memLoadOf (h : Hub) : Rat :=
  let cap := h.slotsOn.foldl (fun a s => a + h.slotWriteRate s) (0 : Rat)
  let read : Nat := if h.get Obj.capReadPriority = 0 && !h.slotsOn.isEmpty then 1000000 * h.get Obj.capReadoutRate else 0
  let tr := ((List.range 8).filter (fun b => h.get (Obj.traceTraceLength b) > 16384)).foldl (fun a b =>
    let l := h.get (Obj.traceTraceLoop b)
    a + (400000 : Rat) / ((h.get (Obj.loopCycle l) * h.get (Obj.traceTraceDecimate b) : Nat) : Rat)) (0 : Rat)
  cap + (read : Rat) + tr + 64000000

def Hub.hcStep11 (h : Hub) : Option HcFail :=
  firstFail (h.senders.map (fun x => failIf (h.memLoadOf > 12000000000) Abort.memoryBudgetExceeded x 0))

/-- Per-frame overhead of port u = x × 4 + p, and C in bytes per second (Table 12.9). -/
def Hub.portOverhead (h : Hub) (u : Nat) : Nat :=
  if !h.laneEth (upPort u) then 16 else if h.get (Obj.ethIpVersion u) = 4 then 66 else 86
def Hub.portC (h : Hub) (u : Nat) : Rat :=
  if h.laneEth (upPort u) then 1225000000
  else
    let base : Nat := if h.get (Obj.pairBase (lanePair (upPort u))) = 0 then 10000000000 else 12500000000
    (base : Rat) / ((h.get (Obj.laneRateDiv (upPort u)) : Nat) : Rat) * 64 / 66 / 8 * 98 / 100

/-- Bytes per second on port u (R372, R373). (DEDUCED: log 123.) -/
def Hub.portLoadOf (h : Hub) (u : Nat) : Rat :=
  let p := u % 4
  let ov := h.portOverhead u
  let gap : Rat := ((68 + ov : Nat) : Rat)
  let ss := h.streamsOn.filter (fun q => (Hub.uplinkPorts (h.get (Obj.stUplink q))).contains p)
  let es := h.entriesOn.filter (fun j => (Hub.uplinkPorts (h.get (Obj.fwdUplink j))).contains p)
  let a := ss.foldl (fun a q => a + h.streamLoad q ov + gap) (0 : Rat)
  let b := es.foldl (fun a j => a + (((h.get (Obj.fwdMaxFrameBytes j) + ov) * h.get (Obj.fwdFrameRate j) : Nat) : Rat) + gap) a
  if u / 4 = h.leadDie && p = h.get Obj.capReadoutPort && !h.slotsOn.isEmpty then
    b + ((1000000 * h.get Obj.capReadoutRate * (16044 + ov) : Nat) : Rat) / 16000
  else b

/-- The uplinks of the dies that carry the hub, in order x × 4 + p. -/
def Hub.portPlan (h : Hub) : List Nat := h.senders.flatMap (fun x => (List.range 4).map (fun p => x * 4 + p))

def Hub.hcStep12 (h : Hub) : Option HcFail :=
  firstFail (h.portPlan.map (fun u => failIf (h.portLoadOf u > h.portC u * ((h.get Obj.laneFill : Nat) : Rat) / 100)
    Abort.laneBudgetExceeded u 0))

/-- Q of hub die x (R375). (DEDUCED: log 123.) -/
def Hub.queueNeedOf (h : Hub) (x : Nat) : Nat :=
  let f := sumNat (h.streamsOn.map h.frameMax) + sumNat (h.entriesOn.map (fun j => h.get (Obj.fwdMaxFrameBytes j)))
  let ports := (List.range 4).map (fun p =>
    (h.portLoadOf (x * 4 + p) * ((h.get Obj.queueHoldoff : Nat) : Rat) / 1000000).ceil.toNat)
  2 * f + sumNat ports + 32768

def Hub.hcStep13 (h : Hub) : Option HcFail :=
  firstFail (h.senders.map (fun x => failIf (h.queueNeedOf x > 1048576) Abort.queueBudgetExceeded x 0))

/-! ### The check -/

/-- The steps of Table 12.8 in order: the first failure with its step. -/
def Hub.houseCheck (h old : Hub) : Option (Nat × HcFail) :=
  let steps := [h.hcStep1, h.hcStep2, h.hcStep3, h.hcStep4 old, h.hcStep5, h.hcStep6, h.hcStep7, h.hcStep8, h.hcStep9, h.hcStep10,
    h.hcStep11, h.hcStep12, h.hcStep13]
  (List.range 13).findSome? (fun i => ((steps.getD i none).map (fun f => (i + 1, f))))

/-- HC_RESULT, HC_TIME and HC_ITEM of a check of the plan `plan`, and its record when it fails; the abort code, 0 passed. -/
def Hub.checkPlan (h plan : Hub) : Nat × Hub :=
  let h := h.put Obj.hcTime h.stamp
  match plan.houseCheck h with
  | none => (0, (h.put Obj.hcResult 0).put Obj.hcItem 0)
  | some (step, code, unit, idx) =>
    let item := pack [(8, step), (8, unit), (12, idx), (4, 0)]
    (code, ((h.put Obj.hcResult code).put Obj.hcItem item).log 0x0C06 0 srcPkg (code + item * 65536))

/-- The offsets assigned become readable in STAGGER (R109). (DESIGN CHOICE: log 191.) -/
def Hub.assignStagger (h : Hub) : Hub :=
  if !h.flag Obj.staggerAuto then h else
  let ps := h.fePlan.flatMap (fun f => (h.placePulses f).getD [])
  h.forEach ps (fun p h => h.put (Obj.excStagger p.drv) (p.off / 2))

/-- A figure in units of `d`, its rounding open. (DESIGN CHOICE: log 71.) -/
def Hub.putFigure (h : Hub) (k : Nat) (x : Rat) (d : Nat) : Hub :=
  let r := h.ratOpen (x / (d : Rat))
  r.2.put k r.1.toNat

/-- The figures of the lanes: PORT_LOAD and PORT_CAPACITY. (DESIGN CHOICE: log 71.) -/
def Hub.portFigures (h : Hub) : Hub :=
  h.forEach (List.range 8) (fun u h =>
    let load := if h.portPlan.contains u then h.portLoadOf u else 0
    (h.putFigure (Obj.portLoad u) load 1000).putFigure (Obj.portCapacity u)
      (h.portC u * ((h.get Obj.laneFill : Nat) : Rat) / 100) 1000)

/-- OWNED of a control output and of a string (Tables 9.13 and 10.6). -/
def Hub.ownedFigures (h : Hub) : Hub :=
  let on := h.loopsOn
  let h := h.forEach (List.range 16) (fun o h =>
    h.putBit (Obj.ctlStatus o) 4 (h.get (Obj.ctlSource o) = 1 && on.any (fun l => (h.loopBalls l).contains o)))
  h.forEach (List.range 8) (fun s h =>
    h.putBit (Obj.flStatus s) 6 (on.any (fun l => (h.loopStrings l).contains s) || h.engHolds s))

/-- The figures that hang on the lanes and on the read-out beside the plan: PORT_LOAD, PORT_CAPACITY, QUEUE_NEED and MEM_LOAD
(R374, R375, R382). -/
def Hub.loadFigures (h : Hub) : Hub :=
  h.portFigures.forEach (List.range 2) (fun x h =>
    let on := h.senders.contains x
    (h.put (Obj.queueNeed x) (if on then h.queueNeedOf x else 0)).putFigure (Obj.memLoad x) (if on then h.memLoadOf else 0) 1000000)

/-- The figures of the plan in force. (DESIGN CHOICE: log 71.) -/
def Hub.planFigures (h old : Hub) : Hub :=
  let h := (h.slotFigures old).assignStagger
  let h := h.putFigure Obj.excAvgPlanned h.excAverage 2
  let h := h.forEach h.fePlan (fun f h =>
    h.putFigure (Obj.excPeakPlanned f) ((h.excPeak f ((h.placePulses f).getD []) : Nat) : Rat) 2)
  let h := h.capFigures
  let h := h.putFigure Obj.ctrlLoadAvg (h.loadAvg * 100000) 1
  let pk := h.loadPeak
  let h := (h.put Obj.ctrlPeakLoad (min 255 pk.1)).putB Obj.ctrlPeakExact pk.2
  let h := h.forEach (List.range 64) (fun q h =>
    if h.flag (Obj.stEnable q) then
      let ms := ((h.outMembers q) ++ (h.recMembers q)).eraseDups.length
      ((h.put (Obj.stMembers q) ms).put (Obj.stFrameMax q) (h.frameMax q)).putFigure (Obj.stRatePlanned q) (h.streamLoad q 0) 1000
    else ((h.put (Obj.stMembers q) 0).put (Obj.stFrameMax q) 0).put (Obj.stRatePlanned q) 0)
  let h := h.put Obj.channelStreams h.channelStreams
  h.loadFigures.ownedFigures

/-! ### The PERIOD of a time cue (R371) -/

/-- The cue is counted by the plan of `h`. -/
def Hub.cueCounted (h : Hub) (c : Nat) : Bool :=
  (List.range 48).any (fun k =>
    let o := k / 12 * 4 + h.injNumber k
    let named := (h.injKind k = 1 && h.injNumber k = c) ||
      (h.injKind k = 2 && h.get (Obj.ctlSource o) = 2 && h.get (Obj.ctlCue o) = c)
    named && h.streamsOn.any (fun q => (h.recMembers q).any (fun n => chCore n = k)))

end Sys2Proof.Machine
end

