-- ==== Sys2Proof/Machine/Checks.lean ====
section
/-! DEFINITION. The checks of a write and of a read (R423 to R426): existence, the die, the access class and the commit, the
length, the range, in that order; and the house check of the writes that a budget counts. -/
namespace Sys2Proof.Machine

/-- The value meets the restriction its object places on it alone (R423 step 5). -/
def Rng.ok : Rng → Nat → Bool
  | .any, _ => true
  | .bool, v => v < 2
  | .between lo hi, v => lo ≤ v && v ≤ hi
  | .sbetween bits lo hi, v => lo ≤ toSigned bits v && toSigned bits v ≤ hi
  | .oneOf l, v => l.contains v
  | .mask m, v => v ||| m = m
  | .maskBetween m lo hi, v => v ||| m = m && lo ≤ v && v ≤ hi
  | .time96, v => time96Ok v
  | .grid500, v => time96Ok v && uOfTime96 v % uGrid = 0
  | .both a b, v => a.ok v || b.ok v

/-- The die an object belongs to, by its place in DIE_STATE; none for an object of the package. -/
def keyDie (k : Nat) : Option Nat :=
  let i := k / 256
  let s := k % 256
  let at_ (lo n per base : Nat) : Option Nat := if lo ≤ i && i < lo + n then some (base + (i - lo) / per) else none
  if i = 0x3002 || i = 0x3003 || i = 0x3005 || (0x3100 ≤ i && i ≤ 0x3106) then some (s - 1)
  else if 0x7100 ≤ i && i ≤ 0x7104 then some (4 + (s - 1))
  else [at_ 0x2000 384 96 0, at_ 0x2180 144 36 0, at_ 0x3040 96 24 0, at_ 0x3140 48 12 0, at_ 0x3310 4 1 0, at_ 0x3340 48 12 0,
        at_ 0x4020 16 8 4, at_ 0x5060 32 8 0, at_ 0x6040 16 4 0, at_ 0x6810 8 2 0, at_ 0x7020 2 1 4, at_ 0x7160 8 4 4,
        at_ 0x7800 8 4 4, at_ 0x7810 16 8 4, at_ 0x7910 8 4 4, at_ 0x8010 2 1 4, at_ 0x8020 2 1 6].findSome? id

/-- The part has the die an object belongs to (R9). (DEDUCED: log 54.) -/
def Part.hasKey (p : Part) (k : Nat) : Bool :=
  match keyDie k with
  | some i => p.has i
  | none => true

/-- The objects that exist under the boot ROM loader (R86). (DEDUCED: log 80.) -/
def loaderKey (k : Nat) : Bool :=
  let i := k / 256
  (0x1000 ≤ i && i < 0x1100) || (0x1200 ≤ i && i < 0x1300) || (0x9000 ≤ i && i < 0x9100)

/-- The object exists in the active BREV and on this part (R423 step 1). (DEDUCED: log 80.) -/
def keyExists (mb : ModeBlock) (h : Hub) (k : Nat) : Bool :=
  (Catalog.ofKey k).isSome && h.part.hasKey k && (!mb.loader || loaderKey k)

/-- The die is FAILED (Table 2.9). -/
def Hub.dieFailed (h : Hub) (i : Nat) : Bool := 4 ≤ h.die i && h.die i ≤ 8

/-- The object belongs to a FAILED die (R423 step 2, R82). (DEDUCED: log 54.) -/
def Hub.keyFailed (h : Hub) (k : Nat) : Bool :=
  match keyDie k with
  | some i => h.dieFailed i
  | none => false

/-- The modes in which RW-stopped objects are written (R15, Table 14.3). -/
def Mode.stopped : Mode → Bool
  | .configure | .hold | .service => true
  | _ => false

/-- A commit is PREPARED or CONFIRMED. -/
def Hub.commitPending (h : Hub) : Bool := h.get Obj.commitState ≠ 0

/-- The access class and the commit state permit the service (R423 step 3, R425, R426, R430); `stage` is STAGE.
(DEDUCED: log 54.) -/
def accessRefusal (mb : ModeBlock) (h : Hub) (a : Access) (stage : Bool) : Nat :=
  match a with
  | .ro => Abort.writeToReadOnly
  | .wo => if stage then Abort.notStageable else 0
  | .live => if stage && h.commitPending then Abort.commitPending else 0
  | .cue => if h.commitPending then Abort.commitPending else 0
  | .stopped => if !mb.mode.stopped then Abort.wrongMode else if h.commitPending then Abort.commitPending else 0

/-- The code that only some other value of the object admits: the restrictions of a definition that a range cannot state.
`h` is the configuration the value would join. (DEDUCED: log 162.) -/
def Hub.valueBad (h : Hub) (k v : Nat) : Bool :=
  let i := k / 256
  let s := k % 256
  if k = Obj.brevSelect then !(v = 0 || h.part.brevSupported.contains v)
  else if k = Obj.hubId then v = 0xFFFF || v % 1024 = 1023
  else if k = Obj.fwBootSlot 0 || k = Obj.fwBootSlot 1 then (h.fwSlot (s - 1) v).state ≠ 2
  else if k = Obj.softTrigger then v ≥ 16
  else if k = Obj.calRecordSelect then !h.part.records.contains v
  else if k = Obj.fireInject || k = Obj.armInject then !injectOk v
  else if i = 0x4000 || i = 0x4001 then
    (s = 4 || s = 5) &&
      (let g := h.put k v
       g.get (Obj.tbSource 0) = 4 && g.get (Obj.tbSource 1) = 4 && g.get (Obj.tbSourcePort 0) ≠ g.get (Obj.tbSourcePort 1))
  else if 0x6100 ≤ i && i < 0x6120 then
    3 ≤ s && s ≤ 5 && perCycle v (h.get (Obj.loopCycle (i - 0x6100))) (s - 2) = 0
  else if 0x6810 ≤ i && i < 0x6818 then s = 6 && 2 ^ h.get (Obj.flPwmBits (i - 0x6810)) ≤ v
  else if 0x6850 ≤ i && i < 0x6854 then 1 ≤ s && s ≤ 0x40 && bitOf v 63
  else if 0x7800 ≤ i && i < 0x7808 then s = 2 && v = 1 && (i - 0x7800) % 4 ≥ 2
  else if 0x7810 ≤ i && i < 0x7820 then
    let l := i - 0x7810
    (h.laneEth l && ((s = 0x02 && v ≠ 1) || (s = 0x1E && v ≠ 0) || (s = 0x20 && v = 3))) ||
      (s = 0x03 && v < h.get (Obj.laneRateDiv l))
  else if 0x7910 ≤ i && i < 0x7918 then
    if s = 3 || s = 5 || s = 9 then
      let a := netValue 4 v
      a / 2 ^ 28 = 14 || a = 2 ^ 32 - 1 || a / 2 ^ 24 = 127
    else if s = 6 || s = 8 || s = 0x0A then
      let a := netValue 16 v
      a / 2 ^ 120 = 255 || a = 1
    else if s = 0x0D then bitOf (netValue 6 v) 40
    else false
  else false

/-- The firmware objects that are written in SERVICE alone (R447). -/
def fwKey (k : Nat) : Bool := 0x1019 ≤ k / 256 && k / 256 ≤ 0x101E

/-- Steps 1 to 5 of R423 for a value of `len` bytes: the abort code, 0 where all pass. (DEDUCED: log 70, 87.) -/
def writeCheck (mb : ModeBlock) (h : Hub) (stage : Bool) (k len v : Nat) : Nat :=
  if !keyExists mb h k then Abort.noSuchObject
  else if h.keyFailed k then Abort.dieUnavailable
  else
    match Catalog.ofKey k with
    | none => Abort.noSuchObject
    | some r =>
      let a := accessRefusal mb h r.access stage
      if a ≠ 0 then a
      else if fwKey k && mb.mode ≠ .service then Abort.wrongMode
      else if len < r.lenLo || r.lenHi < len then Abort.lengthMismatch
      else if !r.rng.ok v || h.valueBad k v then Abort.valueOutOfRange
      else 0

/-- The RW-stopped objects that enter a budget of the house check (R368, R426): CUE_ROLE, the lane rates, CAP_READ_PRIORITY and
IP_VERSION. -/
def budgeted (k : Nat) : Bool :=
  let i := k / 256
  let s := k % 256
  k = Obj.cueRole || k = Obj.capReadPriority || (0x7800 ≤ i && i < 0x7808 && (s = 1 || s = 2)) ||
    (0x7810 ≤ i && i < 0x7820 && s = 2) || (0x7910 ≤ i && i < 0x7918 && s = 1)

/-- Step 6 of R423: the house check of a write that a budget counts, with the code and what the check leaves (R371, R426).
(DEDUCED: log 70.) -/
def Hub.budgetCheck (h : Hub) (k v : Nat) : Nat × Hub :=
  let i := k / 256
  let period := 0x4100 ≤ i && i < 0x4120 && k % 256 = 2
  if budgeted k then h.checkPlan (h.put k v)
  else if period && h.cueCounted (i - 0x4100) then
    let r := h.checkPlan (h.put k v)
    if r.1 ≠ 0 || !h.commitPending then r else r.2.checkPlan ((h.put k v).staged)
  else if period && h.commitPending && (h.staged).cueCounted (i - 0x4100) then h.checkPlan ((h.put k v).staged)
  else (0, h)

/-- A service that reads: the abort code (R423 steps 1 and 2, R425). (DEDUCED: log 64.) -/
def readCheck (mb : ModeBlock) (h : Hub) (k : Nat) : Nat :=
  if !keyExists mb h k then Abort.noSuchObject
  else if h.keyFailed k then Abort.dieUnavailable
  else
    match Catalog.ofKey k with
    | none => Abort.noSuchObject
    | some r => if r.access = .wo then Abort.readOfWriteOnly else 0

end Sys2Proof.Machine
end

