-- ==== Sys2Proof/Machine/Footlights.lean ====
section
/-! DEFINITION. Footlights strings, pattern engines and the frame of the control engine (R293 to R314, R266). -/
namespace Sys2Proof.Machine

def Hub.modPat (h : Hub) (g : Nat) (f : PatSt → PatSt) : Hub := { h with pats := vupd h.pats g f }

/-! ### Targets and duties (R297, R302) -/

/-- The enabled loop that names a string. -/
def Hub.strLoop (h : Hub) (s : Nat) : Option Nat :=
  (List.range 32).find? (fun l => h.flag (Obj.loopEnable l) && h.get (Obj.loopOutputKind l) = 3 &&
    h.get (Obj.loopOutputA l) = s)

/-- The target that SOURCE gives a string (R297); a loop's takes effect a frame after its cycle (R298). -/
def Hub.strTarget (h : Hub) (s : Nat) : Nat :=
  if h.get (Obj.flSource s) = 1 then
    match h.strLoop s with
    | some l => (h.loop l).strO
    | none => 0
  else h.get (Obj.flTarget s)

/-! ### What reaches a string's FE die (R298 to R301) -/

/-- The LOCAL instant of an instant of ARRAY near now. -/
def Hub.localOf (h : Hub) (u : Nat) : Nat := h.now 2 + u - h.now 0

/-- Target and duty reach the FE die, whose arbiter lets the Lead's through (R32): the target is in force at once, a new duty from
the first period start on (R301). -/
def Hub.strOrders (h : Hub) (s : Nat) : Hub :=
  if !h.obeys (s / 2) then h else
  let t := h.now 2
  let per := h.pwmPeriod s
  let tgt := h.strTarget s
  let d := h.strDuty s
  let cur := h.dutyNow s
  h.modStr s (fun v =>
    let v := { v with tgt := tgt, duty := cur }
    if d = v.want then v else { v with want := d, wantAt := v.pwmFrom + ceilDiv (t - v.pwmFrom) per * per })

/-- The PWM counter of a string restarts at the ARRAY instant `u` and takes the duty wanted (R300). -/
def Hub.pwmRestart (h : Hub) (s u : Nat) : Hub :=
  let t := h.localOf u
  let d := h.strDuty s
  h.modStr s (fun v => { v with pwmFrom := t, duty := d, want := d, wantAt := t })

/-! ### GATE (R295, R296) -/

/-- The pin of a string's GATE ball. -/
def gatePin (s : Nat) : Nat := 0x200 + s

/-- GATE takes a level at the LOCAL instant `t`. -/
def Hub.setGateAt (h : Hub) (s : Nat) (on : Bool) (t : Nat) : Hub :=
  if (h.str s).gate = on then h else
  (h.modStr s (fun v => { v with gate := on, gateAt := t })).emit (.pin (gatePin s) on (h.arrayOf t))

/-- GATE takes a level now; one that is high falls with the on interval it last stood in (R295). -/
def Hub.setGate (h : Hub) (s : Nat) (on : Bool) : Hub :=
  let t := h.now 2
  let seen := max (h.str s).gateSeen (h.str s).gateAt
  let e := match (h.pwmEdges s seen).find? (fun x => !x.2) with
    | some x => min x.1 t
    | none => t
  h.setGateAt s on (if on then t else e)

/-- The controller of a string may switch at the LOCAL instant `t` of an on interval: it is on, not latched, and not off for an OPEN
or an OVERCURRENT. -/
def Hub.gateMay (h : Hub) (s t : Nat) : Bool :=
  let v := h.str s
  v.on && h.flag (Obj.flEnable s) && !h.bit (Obj.flStatus s) 4 && h.feUp (s / 2) && h.get (Obj.flEffTarget s) ≠ 0 &&
    v.openAt.isNone && t ≥ v.offTo

/-- The controller of a string switches now: it may, and the PWM is in its on interval. -/
def Hub.gateRuns (h : Hub) (s : Nat) : Bool := h.gateMay s (h.now 2) && h.pwmInOn s (h.now 2)

/-- A cause of a string's fault ends. -/
def Hub.strFaultEnd (h : Hub) (s cause : Nat) : Hub :=
  let h := h.putBit (Obj.flStatus s) (2 + cause) false
  if h.bit (Obj.flStatus s) 2 || h.bit (Obj.flStatus s) 3 then h else h.modStr s (fun v => { v with faultAt := none })

/-- The hysteretic controller at the LOCAL instant `t` of an on interval (R295): V_S, which only the string knows, in nV, against
V_T (1 ± HYST / 2); each interval lasts at least 150 ns. (DESIGN CHOICE: log 165.) -/
def Hub.gateDecide (h : Hub) (s t : Nat) : Hub :=
  let v := h.str s
  if !h.gateMay s t || t < v.gateAt + 150 * 65536 then h
  else
    let d := h.drawNat
    let vs := d.1 * 1023 * 40
    let vt := h.get (Obj.flEffTarget s) * 200000000
    let c := h.get (Obj.flHystCode s)
    if v.gate && vs > vt * (40 + c) then ((d.2.modStr s (fun v => { v with ocRun := 0 })).strFaultEnd s 1).setGateAt s false t
    else if !v.gate && vs < vt * (40 - c) then d.2.setGateAt s true t else d.2

/-- GATE follows the PWM up to now (R295, R301): it falls at the end of the on interval in which it was last seen high, and through
the last 10 µs at the end of each; at the start of each the controller decides. (DESIGN CHOICE: log 165.) -/
def Hub.gateFollow (h : Hub) (s : Nat) : Hub :=
  let t := h.now 2
  let from_ := max (h.str s).gateSeen (t - uFrame)
  if !(h.str s).gate && !(h.str s).on then h.modStr s (fun v => { v with gateSeen := t }) else
  let h := if (h.str s).gate && ((h.pwmEdges s (h.str s).gateSeen).any (fun x => !x.2 && x.1 ≤ from_)) then h.setGate s false else h
  let h := h.forEach ((h.pwmEdges s from_).filter (fun x => x.1 ≤ t)) (fun x h =>
    if x.2 then h.gateDecide s x.1 else h.setGateAt s false x.1)
  h.modStr s (fun v => { v with gateSeen := t })

/-- GATE up to now and at it: the controller decides in an on interval, and outside it GATE is held low.
(DESIGN CHOICE: log 165.) -/
def Hub.gateStep (h : Hub) (s : Nat) : Hub :=
  let h := h.gateFollow s
  if h.gateRuns s then h.gateDecide s (h.now 2) else h.setGate s false

/-- FL_SOFT_START in 2⁻¹⁶ ns. -/
def Hub.softTime (h : Hub) : Nat := h.get Obj.flSoftStart * uMs

/-- The effective target at instant `u` (R302). (DESIGN CHOICE: log 105.) -/
def Hub.effTarget (h : Hub) (s u : Nat) : Nat × Hub :=
  let v := h.str s
  let tgt := v.tgt
  if !v.on || h.bit (Obj.flStatus s) 4 || !h.feUp (s / 2) then (0, h)
  else
    match v.stop with
    | some (t, from_) =>
      let len := min h.softTime (10 * uMs)
      if u ≥ t + len then (0, h)
      else
        let q := h.ratNearest ((from_ * (len - (u - t)) : Nat) / (len : Rat))
        (q.1.toNat, q.2)
    | none =>
      match v.soft with
      | some t =>
        if u < t then (0, h)
        else if u ≥ t + h.softTime then (tgt, h)
        else
          let q := h.ratNearest ((tgt * (u - t) : Nat) / (h.softTime : Rat))
          (min q.1.toNat tgt, q.2)
      | none => (tgt, h)

/-- EFF_TARGET, STATUS and GATE of a string at instant `u`. -/
def Hub.refreshStr (h : Hub) (s u : Nat) : Hub :=
  let e := h.effTarget s u
  let v := h.str s
  let h := e.2.put (Obj.flEffTarget s) e.1
  let soft := v.on && (match v.stop, v.soft with
    | some (t, _), _ => decide (u < t + min h.softTime (10 * uMs))
    | none, some t => decide (t ≤ u && u < t + h.softTime)
    | none, none => false)
  let stopped := match v.stop with
    | some (t, _) => decide (u ≥ t + min h.softTime (10 * uMs))
    | none => false
  let h := if stopped then h.modStr s (fun v => { v with on := false, stop := none, soft := none }) else h
  let h := (h.putBit (Obj.flStatus s) 0
    (e.1 ≠ 0 && v.openAt.isNone && pwmOn (h.dutyNow s) (h.get (Obj.flPwmBits s)) ≠ 0)).putBit
    (Obj.flStatus s) 1 soft
  (h.putBit (Obj.flStatus s) 6 ((h.strLoop s).isSome || (h.strEngine s).isSome)).gateStep s

/-- A string turns on with a soft start that begins at `u` + s ms (R302). -/
def Hub.strStart (h : Hub) (s u : Nat) : Hub :=
  h.modStr s (fun v => { v with on := true, soft := some (u + s * uMs), stop := none })

/-- The strings start at a run cue; their counters restart together (R300, R302). -/
def Hub.flStart (h : Hub) (u : Nat) : Hub :=
  h.forEach ((List.range 8).filter (fun s => h.obeys (s / 2))) (fun s h =>
    let h := (h.pwmRestart s u).strOrders s
    if h.flag (Obj.flEnable s) && !h.bit (Obj.flStatus s) 4 then h.strStart s u else h)

/-- The strings soft-stop from instant `u` (R303). -/
def Hub.flSoftStop (h : Hub) (u : Nat) : Hub :=
  h.forEach (List.range 8) (fun s h =>
    let e := h.get (Obj.flEffTarget s)
    if (h.str s).on && (h.str s).stop.isNone then h.modStr s (fun v => { v with stop := some (u, e) }) else h)

/-- Every GATE is held low at once (R303). -/
def Hub.flOff (h : Hub) : Hub :=
  h.forEach (List.range 8) (fun s h =>
    let h := h.modStr s (fun v => { v with
      on := false, soft := none, stop := none, ocRun := 0, openAt := none, faultAt := none })
    let h := h.setGate s false
    (h.put (Obj.flEffTarget s) 0).put (Obj.flStatus s) (h.get (Obj.flStatus s) / 16 % 8 * 16))

/-- The strings after a commit whose cue point is `u` (R300, R302); an FE die whose arbiter does not let the Lead's commands through
discards what reaches it (R32, R334). -/
def Hub.flCommit (h old : Hub) (drives : Bool) (u s : Nat) : Hub :=
  if !h.obeys (s / 2) then h else
  let was := old.flag (Obj.flEnable s)
  let on := h.flag (Obj.flEnable s)
  let pwm := old.get (Obj.flPwmBits s) ≠ h.get (Obj.flPwmBits s) || old.get (Obj.flPwmPhase s) ≠ h.get (Obj.flPwmPhase s)
  let h := (if pwm then h.pwmRestart s u else h).strOrders s
  let h := if on && !was && drives && !h.bit (Obj.flStatus s) 4 then h.strStart s u
    else if was && !on then h.modStr s (fun v => { v with on := false, soft := none, stop := none }) else h
  h.refreshStr s u

/-! ### String faults (R296) -/

/-- A fault onset with its cause: 0 open, 1 overcurrent; FL_FAULT at most once per second per string. -/
def Hub.strFault (h : Hub) (s cause : Nat) : Hub :=
  let now := h.time.ticks
  let logIt := match (h.str s).faultLog with
    | some t => decide (now ≥ t + tSec)
    | none => true
  let h := h.modStr s (fun v => { v with
    faultAt := if v.faultAt.isSome then v.faultAt else some now, faultLog := if logIt then some now else v.faultLog })
  let h := ((h.putBit (Obj.flStatus s) (2 + cause) true).putBit (Obj.flStatus s) 5 true).bump (Obj.flFaultCount s)
  if logIt then h.log 0x0A01 1 (srcFe (s / 2)) (s + cause * 8) else h

/-- The string's controller switches now. -/
def Hub.strRuns (h : Hub) (s : Nat) : Bool := (h.str s).on && !h.bit (Obj.flStatus s) 4 && h.feUp (s / 2)

/-- V_S has exceeded 300 mV, `dt` ticks on; `again` says that no switching cycle has ended normally since the last one. The
16th consecutive one is a fault. (DESIGN CHOICE: log 105.) -/
def execFlOvercurrent (s : Fin 8) (dt : Nat) (again : Bool) (st : State) : Host.Outcome State Fault Refusal :=
  onHubM (fun _ h =>
    if !h.strRuns s then h else
    let h := h.waitTicks dt
    let h := if again then h else (h.modStr s (fun v => { v with ocRun := 0 })).strFaultEnd s 1
    let n := (h.str s).ocRun + 1
    let t := h.now 2
    let h := (h.modStr s (fun v => { v with ocRun := n, offTo := t + uUs })).setGate s false
    if n ≥ 16 && !h.bit (Obj.flStatus s) 3 then h.strFault s 1 else h) st

/-- `dt` ticks on GATE has been on for 50 µs, all of it below the lower threshold, with an effective target of 51 or more.
(DESIGN CHOICE: log 105.) -/
def execFlOpen (s : Fin 8) (dt : Nat) (st : State) : Host.Outcome State Fault Refusal :=
  onHubM (fun _ h =>
    let h := (h.waitTicks dt).gateFollow s
    if !(h.str s).gate || !h.gateRuns s || h.now 2 < (h.str s).gateAt + 50 * uUs || h.get (Obj.flEffTarget s) < 51 then h else
    let now := h.time.ticks
    let h := ((h.modStr s (fun v => { v with openAt := some now })).setGate s false).putBit (Obj.flStatus s) 0 false
    if h.bit (Obj.flStatus s) 2 then h else h.strFault s 0) st

/-- 1 ms after an OPEN turn-off the controller retries; `ok` says that the string then regulates. (DESIGN CHOICE: log 105.) -/
def execFlOpenRetry (s : Fin 8) (ok : Bool) (st : State) : Host.Outcome State Fault Refusal :=
  onHubM (fun _ h =>
    match (h.str s).openAt with
    | none => h
    | some t =>
      if h.bit (Obj.flStatus s) 4 then h else
      let h := h.waitTick (t + tMs)
      let h := h.modStr s (fun v => { v with openAt := none })
      if ok then h.strFaultEnd s 0 else h) st

/-- A fault has lasted 10 ms without a break: the string is off and latched. -/
def execFlLatchedOff (s : Fin 8) (st : State) : Host.Outcome State Fault Refusal :=
  onHubM (fun _ h =>
    match (h.str s).faultAt with
    | none => h
    | some t =>
      if h.bit (Obj.flStatus s) 4 then h else
      let h := h.waitTick (t + 10 * tMs)
      let now := h.time.ticks
      let h := h.modStr s (fun v => { v with
        on := false, soft := none, stop := none, openAt := none, faultAt := none, ocRun := 0, latchedAt := now })
      let h := h.setGate s false
      let h := (((h.putBit (Obj.flStatus s) 4 true).putBit (Obj.flStatus s) 0 false).putBit (Obj.flStatus s) 1 false).put
        (Obj.flEffTarget s) 0
      let h := match h.strLoop s with
        | some l => h.putBit (Obj.loopStatus l) 7 true
        | none => h
      h.log 0x0A02 2 (srcFe (s / 2)) s) st

/-- FAULT_CLEAR written 1 to a string: released at the raw-frame boundary with a soft start (R296, R302). -/
def Hub.applyFlFaultClear (h : Hub) (drives : Bool) (s : Nat) : Hub :=
  let was := h.bit (Obj.flStatus s) 4
  let h := h.putBit (Obj.flStatus s) 5 false
  if !was then h else
  let ms := satNat (2 ^ 32 - 1) ((h.time.ticks - (h.str s).latchedAt) / tMs)
  let h := ((h.putBit (Obj.flStatus s) 4 false).putBit (Obj.flStatus s) 2 false).putBit (Obj.flStatus s) 3 false
  let h := match h.strLoop s with
    | some l => h.putBit (Obj.loopStatus l) 7 false
    | none => h
  let b := h.boundary
  let h := if drives && h.flag (Obj.flEnable s) && h.obeys (s / 2) then (h.strOrders s).strStart s b else h
  h.log 0x0A03 0 (srcFe (s / 2)) (s + ms * 2 ^ 32)

/-! ### Pattern engines (R305 to R310) -/

/-- Fields of a step word (Table 10.2). -/
def stepType (w : Nat) : Nat := field w 0 4
def stepSel (w : Nat) : Nat := field w 4 8
def stepLevel (w : Nat) : Nat := field w 12 17
def stepDur (w : Nat) : Nat := field w 29 24
def stepArg (w : Nat) : Nat := field w 53 6
def stepCue (w : Nat) : Nat := field w 53 5
def stepShift (w : Nat) : Nat := field w 59 3
def stepDir (w : Nat) : Bool := bitOf w 62

/-- The word of step i of engine g; past step 63 it acts as END. -/
def Hub.stepWord (h : Hub) (g i : Nat) : Nat := if i > 63 then 7 else h.get (Obj.engStep g i)

/-- The step is timed. -/
def isTimed (w : Nat) : Bool := stepType w ≤ 3

/-- Engine g enters step i in frame n. -/
def Hub.patEnter (h : Hub) (g i n : Nat) : Hub :=
  let h := h.modPat g (fun p => { p with l0 := p.levels, i := 1, entry := n })
  (h.put (Obj.engEngStep g) (min i 63)).put (Obj.engEngStepTime g) (time96 (n * uFrame) 0)

/-- A LOOP step (R307): the counter after it and whether the body runs again. DURATION 0 repeats without end. -/
def loopStep (counters : List (Nat × Nat)) (i dur : Nat) : List (Nat × Nat) × Bool :=
  if dur = 0 then (counters, true)
  else
    let c := match counters.find? (fun e => e.1 = i) with
      | some e => e.2
      | none => 0
    let c := (if c = 0 then dur else c) - 1
    ((i, c) :: counters.filter (fun e => e.1 ≠ i), decide (c > 0))

/-- A fire that a WAIT_CUE step entered in frame `entry` acts on in frame n (R309). -/
def PatSt.fired (p : PatSt) (c entry n : Nat) : Bool :=
  p.fires.any (fun e => e.1 = c && e.2 ≥ entry * uFrame && e.2 < n * uFrame)

/-- More than 8 control steps in a frame: FAULT; the levels are held (R308). -/
def Hub.patFault (h : Hub) (g : Nat) : Hub :=
  (h.put (Obj.engEngState g) 4).log 0x0A04 2 srcPkg (g + h.get (Obj.engEngStep g) * 256)

/-- The control steps of a frame: after a ninth comes FAULT (R308). `i` is the step the engine stands at; past step 63 it acts as
END. -/
def Hub.patControl (g n : Nat) : Nat → Nat → Hub → Hub
  | 0, _, h => h.patFault g
  | fuel + 1, i, h =>
    let w := h.stepWord g i
    match stepType w with
    | 4 => patControl g n fuel (stepArg w) (h.patEnter g (stepArg w) n)
    | 5 =>
      let r := loopStep (h.pat g).counters i (stepDur w)
      let j := if r.2 then stepArg w else i + 1
      let h := h.modPat g (fun p => { p with counters := r.1 })
      patControl g n fuel j (if j > 63 then h else h.patEnter g j n)
    | 6 =>
      if (h.pat g).fired (stepCue w) (h.pat g).entry n then
        patControl g n fuel (i + 1) (if i + 1 > 63 then h else h.patEnter g (i + 1) n)
      else h.put (Obj.engEngState g) 2
    | 7 => h.put (Obj.engEngState g) 3
    | _ => h.put (Obj.engEngState g) 1

/-- The strings a SEL names, ascending. -/
def selList (sel : Nat) : List Nat := (List.range 8).filter (bitOf sel)

/-- The level of string s at step frame i (Table 10.3). -/
def Hub.patLevel (h : Hub) (w i s : Nat) (l0 : List Nat) : Nat × Hub :=
  let a := l0.getD s 0
  let lv := stepLevel w
  let d := stepDur w
  match stepType w with
  | 0 => (lv, h)
  | 1 => ((divRoundAway ((a : Int) * d + ((lv : Int) - a) * i) d).toNat, h)
  | 2 =>
    let c := h.withinTol (((lv : Int) - a : Int) : Rat) (sineTurn (i * 2 ^ 32 / d + 2 ^ 30))
    ((ratRoundAway ((a : Rat) + ((((lv : Int) - a : Int) : Rat) - c.1) / 2)).toNat, c.2)
  | _ =>
    let l := selList (stepSel w)
    let m := l.length
    let j := l.idxOf s
    let k := if stepDir w then (j + stepShift w) % m else (j + 7 * m - stepShift w) % m
    (l0.getD (l.getD k 0) 0, h)

/-- A timed step produces its levels for step frame i. -/
def Hub.patProduce (h : Hub) (g w : Nat) : Hub :=
  let p := h.pat g
  let h := h.forEach (selList (stepSel w)) (fun s h =>
    let r := h.patLevel w p.i s p.l0
    r.2.modPat g (fun q => { q with levels := listSet q.levels s r.1 }))
  h.modPat g (fun q => { q with i := q.i + 1 })

/-- The engine is RUNNING or WAITING. -/
def Hub.patActive (h : Hub) (g : Nat) : Bool := h.get (Obj.engEngState g) = 1 || h.get (Obj.engEngState g) = 2

/-- A timed step has produced its last frame: the next step is entered (R306). -/
def Hub.patStepDone (h : Hub) (g : Nat) : Hub :=
  let i := h.get (Obj.engEngStep g)
  let w := h.stepWord g i
  let p := h.pat g
  if h.get (Obj.engEngState g) = 1 && isTimed w && p.i > stepDur w then
    if i ≥ 63 then h.put (Obj.engEngState g) 3 else h.patEnter g (i + 1) (p.entry + stepDur w)
  else h

/-- A WAIT_CUE step has waited DURATION frames without a fire: the engine goes on (R309). `n` is the frame. -/
def Hub.patTimeout (h : Hub) (g n : Nat) : Hub :=
  let i := h.get (Obj.engEngStep g)
  let w := h.stepWord g i
  let p := h.pat g
  if h.get (Obj.engEngState g) = 2 && stepType w = 6 && stepDur w ≠ 0 && n ≥ p.entry + stepDur w &&
      !p.fired (stepCue w) p.entry n then
    let h := (h.bump (Obj.engCueTimeouts g)).log 0x0A05 1 srcPkg (g + i * 256 + stepCue w * 65536)
    if i ≥ 63 then h.put (Obj.engEngState g) 3 else (h.patEnter g (i + 1) n).put (Obj.engEngState g) 1
  else h

/-- An engine starts at step 0 with every held string at ENG_INIT_LEVEL (R310). -/
def Hub.patBegin (h : Hub) (g n : Nat) : Hub :=
  let lv := h.get (Obj.engEngInitLevel g)
  let m := h.get (Obj.engEngMask g)
  let ls := (List.range 8).map (fun s => if bitOf m s then lv else 0)
  let h := h.modPat g (fun p => { p with levels := ls, counters := [], start := false })
  (h.patEnter g 0 n).put (Obj.engEngState g) 1

/-- Engine g in frame n (R308). -/
def Hub.patFrame (h : Hub) (n g : Nat) : Hub :=
  let h := if (h.pat g).start then h.patBegin g n else (h.patStepDone g).patTimeout g n
  if !h.patActive g then h else
  let h := h.patControl g n 9 (h.get (Obj.engEngStep g))
  let w := h.stepWord g (h.get (Obj.engEngStep g))
  if h.get (Obj.engEngState g) = 1 && isTimed w then h.patProduce g w else h

/-- All engines stop and return to IDLE (R310). -/
def Hub.patsStop (h : Hub) : Hub :=
  h.forEach (List.range 4) (fun g h => (h.modPat g (fun p => { p with start := false })).put
    (Obj.engEngState g) 0)

/-- The engines at a run start (R310). -/
def Hub.patsStart (h : Hub) : Hub :=
  h.forEach (List.range 4) (fun g h =>
    if h.get (Obj.engEngStart g) = 1 then h.modPat g (fun p => { p with start := true }) else h)

/-- ENG_GO in force (R310). -/
def Hub.applyEngGo (h : Hub) (g v : Nat) : Hub :=
  if v = 1 then h.modPat g (fun p => { p with start := true })
  else (h.modPat g (fun p => { p with start := false })).put (Obj.engEngState g) 0

/-- A commit that changes a running engine's steps, mask or initial level restarts it (R310). -/
def Hub.patCommit (h old : Hub) (g : Nat) : Hub :=
  let changed := old.get (Obj.engEngMask g) ≠ h.get (Obj.engEngMask g) ||
    old.get (Obj.engEngInitLevel g) ≠ h.get (Obj.engEngInitLevel g) ||
    (List.range 64).any (fun i => old.get (Obj.engStep g i) ≠ h.get (Obj.engStep g i))
  if changed && h.patActive g then h.modPat g (fun p => { p with start := true }) else h

/-- A fire of cue c at instant `u` reaches the engines. -/
def Hub.patCue (h : Hub) (c u : Nat) : Hub :=
  h.forEach (List.range 4) (fun g h => h.modPat g (fun p => { p with fires := (c, u) :: p.fires.filter (fun e => e.1 ≠ c || e.2 + 2 * uFrame > u) }))

/-- A timed pattern step reaches its DURATION, at its frame. -/
def execPatternStepDone (g : Fin 4) (s : State) : Host.Outcome State Fault Refusal :=
  onHubM (fun mb h =>
    if !mb.drives then h else
    let w := h.stepWord g (h.get (Obj.engEngStep g))
    let p := h.pat g
    if h.get (Obj.engEngState g) = 1 && isTimed w && p.i > stepDur w then
      (h.waitFor 0 ((p.entry + stepDur w) * uFrame)).patStepDone g
    else h) s

/-- A WAIT_CUE step reaches its timeout, at its frame. -/
def execPatternCueTimeout (g : Fin 4) (s : State) : Host.Outcome State Fault Refusal :=
  onHubM (fun mb h =>
    if !mb.drives then h else
    let w := h.stepWord g (h.get (Obj.engEngStep g))
    let n := (h.pat g).entry + stepDur w
    if h.get (Obj.engEngState g) = 2 && stepDur w ≠ 0 then (h.waitFor 0 (n * uFrame)).patTimeout g n else h) s

/-- The number of the next frame of the control engine. -/
def Hub.engFrame (h : Hub) : Nat := max h.eng.frame (ceilDiv (h.now 0 - 262144) uFrame)

/-- An engine whose steps give more than 8 control steps in the next frame enters FAULT in that frame. -/
def execPatternFault (g : Fin 4) (s : State) : Host.Outcome State Fault Refusal :=
  onHubM (fun mb h =>
    if !mb.drives || !((h.pat g).start || h.patActive g) then h else
    let n := h.engFrame
    let r := (h.waitFor 0 (n * uFrame)).patFrame n g
    if r.get (Obj.engEngState g) = 4 then r else h) s

/-! ### The frame (R263, R266, R308) -/

/-- The next frame: what the frame before computed reaches the strings (R264, R305), loops and pattern engines run where they do,
and every string's effective target and GATE follow. -/
def Hub.engineFrame (h : Hub) (mb : ModeBlock) : Hub :=
  let n := h.engFrame
  let t := n * uFrame
  let h := (h.waitFor 0 t).ctlRise t
  let h := if mb.drives then h.loopsSettle else h
  let h := h.forEach (List.range 8) (fun s h => (h.strOrders s).refreshStr s t)
  let h := if mb.drives then h.forEach (List.range 4) (fun g h => h.patFrame n g) |>.loopFrame n t else h
  { h with eng := { h.eng with frame := n + 1 } }

/-- Every 10 µs the control engine evaluates its frame. -/
def execEngineFrame (s : State) : Host.Outcome State Fault Refusal :=
  onHubM (fun mb h => if mb.up then h.engineFrame mb else h) s

end Sys2Proof.Machine
end

