-- ==== Sys2Proof/Machine/ModeOps.lean ====
section
/-! DEFINITION. What transitions share: outputs made safe, the entry into SAFE (R57, R62, R63), and the change between RUN and
RUN-SIMPLEX that follows a role (R58, R65). -/
namespace Sys2Proof.Machine

/-- Excitation, loops, control outputs, pattern engines and footlights stop at once; the outputs stand at their safe levels.
(DESIGN CHOICE: log 189.) -/
def Hub.outputsOff (h : Hub) (u : Nat) : Hub := (((h.excAllOff).loopsStop u).patsStop).flOff

/-- Excitation, loops and control outputs stop, and the footlights soft-stop from `u`. -/
def Hub.outputsStop (h : Hub) (u : Nat) : Hub := (((h.excAllOff).loopsStop u).patsStop).flSoftStop u

/-- A self-test stops: a test already finished keeps its result, which only the silicon knows, and the others report RUN 0.
(DESIGN CHOICE: log 26.) -/
def Hub.selfTestStop (h : Hub) : Hub :=
  h.forEach (List.range 8) (fun i h =>
    let d := h.drawBool
    if d.1 && h.part.has i then
      let r := d.2.drawNat
      r.2.put (Obj.selfTest i) (r.1 % 2 ^ 32 / 2 * 2 + 1)
    else d.2.put (Obj.selfTest i) 0)

/-- What ends or goes on at the entry into SAFE (R63). -/
def Hub.intoSafe (h : Hub) (m : Mode) : Hub :=
  let h := h.outputsOff (h.now 0)
  match m with
  | .calibrate => h.calInterrupt
  | .hold => (h.streamsResume h.boundary).seqResumeAt h.boundary
  | .selfTest => (h.selfTestStop).lanesSelfTestEnd
  | .service => h.loopsEnd
  | _ => h

/-- SAFE can be entered from the mode (Table 2.3). -/
def canSafe (m : Mode) : Bool := !(m = .curtainDown || m = .boot || m = .shutdown)

/-- A SAFE cause: its bit is set, SAFE_ENTERED is logged, and the hub enters SAFE unless it is there (R57, R62). `code` is the
cause code of the transition. (DEDUCED: log 28.) -/
def toSafe (mb : ModeBlock) (h : Hub) (bit code : Nat) : ModeBlock × Hub :=
  if !canSafe mb.mode then (mb, h)
  else
    let sc := setBit mb.safeCause bit true
    if mb.mode = .safe then ({ mb with safeCause := sc }, h.log 0x0212 2 srcPkg sc)
    else
      let h := (h.intoSafe mb.mode).log 0x0212 2 srcPkg sc
      let won := if bit = 0 then mb.wonAt else some (h.time.ticks, true)
      enterMode { mb with safeCause := sc, safeFrom := mb.mode, wonAt := won } h .safe code

/-! ### Temperature (R62, R64, R76) -/

/-- TJ_MAX of die `i` is reported, in 0.1 °C: OT_WARN and OT_SAFE follow it, and the onset of a warning is logged. -/
def Hub.reportTj (h : Hub) (i : Nat) (tj : Int) : Hub :=
  let warn := decide (tj ≥ h.getI 16 Obj.otWarnThreshold)
  let onset := warn && !h.bit Obj.powerStatus 8
  let h := { h with pow := { h.pow with tjDie := i } }
  let h := ((h.putI 16 Obj.tjMax tj).putBit Obj.powerStatus 8 warn).putBit Obj.powerStatus 9 (decide (tj ≥ 1250))
  if onset then h.log 0x020D 1 srcPkg (dieSource i + ofSigned 16 tj * 65536) else h

/-- The conditions after a report: the over-temperature ends below OT_WARN_THRESHOLD. -/
def ModeBlock.tempConds (mb : ModeBlock) (h : Hub) : ModeBlock :=
  if h.bit Obj.powerStatus 8 then mb else { mb with conds := { mb.conds with overTemp := false } }

/-- TJ_MAX stands at `tj`, on die `i`: OT_WARN, and from 125.0 °C on SAFE with cause OVER_TEMP, logged at the onset. -/
def warmTo (mb : ModeBlock) (h : Hub) (i : Nat) (tj : Int) : ModeBlock × Hub :=
  let again := mb.conds.overTemp && bitOf mb.safeCause 1
  let h := h.reportTj i tj
  let mb := mb.tempConds h
  if tj < 1250 || again then (mb, h)
  else
    let h := h.log 0x020E 2 srcPkg (dieSource i + ofSigned 16 tj * 65536)
    toSafe { mb with conds := { mb.conds with overTemp := canSafe mb.mode || mb.conds.overTemp } } h 1 0x0212

/-- A new OT_WARN_THRESHOLD meets the temperature that stands. -/
def otWarnEffect (mb : ModeBlock) (h : Hub) : ModeBlock × Hub :=
  let h := h.reportTj h.pow.tjDie (h.getI 16 Obj.tjMax)
  (mb.tempConds h, h)

/-- A role change between RUN and RUN-SIMPLEX keeps a HOLD request that waits for its cue (R65). -/
def roleMode (mb : ModeBlock) (h : Hub) (from_ into : Mode) (code : Nat) : ModeBlock × Hub :=
  if mb.mode = from_ then
    let r := enterMode mb h into code
    ({ r.1 with next := mb.next, cue := mb.cue, wonAt := some (h.time.ticks, false) }, r.2)
  else (mb, h)

/-- Captures have one copy from now on: what it lacks of their rows, nothing fills (R338). (DEDUCED: log 208.) -/
def Hub.capturesAlone (h : Hub) : Hub :=
  h.forEach (List.range 16) (fun s h => h.modSlot s (fun v => { v with rows := v.rows.map (fun r => { r with alone := true }) }))

/-- RUN becomes RUN-SIMPLEX. -/
def toSimplex (mb : ModeBlock) (h : Hub) : ModeBlock × Hub :=
  let r := roleMode mb h .run .runSimplex 0x0B01
  if r.1.mode = .runSimplex && mb.mode = .run then (r.1, r.2.capturesAlone) else r

/-- RUN-SIMPLEX becomes RUN. -/
def toDuplex (mb : ModeBlock) (h : Hub) : ModeBlock × Hub := roleMode mb h .runSimplex .run 0x0B03

/-- Two changes of the mode block and the hub in turn. -/
def thenBoth (r : ModeBlock × Hub) (f : ModeBlock → Hub → ModeBlock × Hub) : ModeBlock × Hub := f r.1 r.2

end Sys2Proof.Machine
end

