-- ==== Sys2Proof/Machine/Redundancy.lean ====
section
/-! DEFINITION. Lead, Understudy and fail-over (R315 to R342): roles, the RELINQUISH line, hand-over, arbiters, the peer link,
the cross-compare and readmission. A hub die is written in a PARAM by its SOURCE code, and a cause by its bit number. -/
namespace Sys2Proof.Machine

def Hub.arb (h : Hub) (f : Nat) : ArbSt := vget h.red.arbs f
def Hub.modArb (h : Hub) (f : Nat) (g : ArbSt → ArbSt) : Hub := { h with red := { h.red with arbs := vupd h.red.arbs f g } }
def Hub.hdie (h : Hub) (x : Nat) : DieRed := vget h.red.dies x
def Hub.modRed (h : Hub) (g : RedSt → RedSt) : Hub := { h with red := g h.red }

/-- The causes of Table 11.9 by bit number. -/
def causeWatchdog : Nat := 0
def causeGrEcc : Nat := 1
def causeQueuePoison : Nat := 2
def causeMdEcc : Nat := 3
def causeMdFailed : Nat := 4
def causeCmp : Nat := 5
def causeIslandSilent : Nat := 6
def causeClockFault : Nat := 7
def causeDieLink : Nat := 8
def causePeerLink : Nat := 9
def causeEndedByLead : Nat := 10
def causeHostRequest : Nat := 11
def causeBist : Nat := 12

/-- A cause without recovery (Table 11.3). -/
def fatalCause (c : Nat) : Bool := c = 4 || c = 7 || c = 12

/-- A role whose die carries the hub: LEAD or UNDERSTUDY. -/
def carries (r : Nat) : Bool := r = 2 || r = 3

/-- The die link from FE die f to hub die x is valid. (DEDUCED: log 109.) -/
def Hub.linkOk (h : Hub) (x f : Nat) : Bool := h.bit (Obj.hdLinkState x) f

/-- DUPLEX_STATUS follows the roles and the links (Table 11.10). -/
def Hub.refreshDuplex (h : Hub) : Hub :=
  let dies := (List.range 2).filter (fun x => carries (h.role x))
  let bitsOf (p : Nat → Bool) : Nat := sumNat ((List.range 4).map (fun f => if f < h.part.fe && p f then 2 ^ f else 0))
  let deg := bitsOf (fun f => dies.any (fun x => h.role x = 3 && !h.linkOk x f))
  let lost := bitsOf (fun f => dies.all (fun x => !h.linkOk x f))
  h.put Obj.duplexStatus (pack [(1, b2n (dies.length = 2)), (1, b2n h.red.peerUp), (4, deg), (4, lost)])

/-- The frames in transit on hub die x's lanes end there by the aborted-packet mark: the peer's copies carry them (R322, R331). -/
def Hub.endFrames (h : Hub) (x : Nat) : Hub :=
  h.forEach (List.range 8) (fun q h =>
    let l := x * 8 + q
    if (h.lane l).frameNow.isNone then h else (h.modLane l (fun v => { v with frameNow := none })).sendAbortMark l)

/-- A hub die takes a role; each change is logged (R317). A SHADOW's queue passes whole packets on as though sent, and a die that has
relinquished or FAILED sends no frame on (Table 11.1). -/
def Hub.setRole (h : Hub) (x r : Nat) : Hub :=
  let old := h.role x
  if old = r then h else
  let h := if r = 5 || r = 6 then h.endFrames x else h
  let h := h.put (Obj.dieRole x) r
  let h := if r = 2 then h.put Obj.leadDie (srcHd x) else h
  let h := if r = 4 then (h.modQueue x (fun q => { q with packets := [] })).put Obj.shadowMatched 0 else h
  let h := if old = 4 then h.modRed (fun v => { v with readmit := none }) else h
  let h := h.modHdie x (fun v => { v with line := r = 5 || r = 6 })
  (h.refreshDuplex).log 0x0B01 0 (srcHd x) (srcHd x + old * 256 + r * 4096 + h.get (Obj.relinquishCause x) * 65536)

/-- The RELINQUISH line of hub die x as its peer reads it: asserted by the die, or because the die is unpowered, held in reset or
without its clock (R321). -/
def Hub.lineReads (h : Hub) (x : Nat) : Bool :=
  (h.hdie x).line || h.pow.rstLow || h.die (4 + x) ≤ 1 || h.die (4 + x) = 4 || h.die (4 + x) = 8

/-- The latest cause of a die (Table 11.9). -/
def Hub.setCause (h : Hub) (x c : Nat) : Hub := h.put (Obj.relinquishCause x) (2 ^ c)

/-- A die FAILED for an unrecoverable cause, with the DIE_STATE that Table 11.2 gives. -/
def Hub.failDie (h : Hub) (x c : Nat) : Hub :=
  let dark (a : ArbSt) : ArbSt := { a with ok0 := a.ok0 && x ≠ 0, ok1 := a.ok1 && x ≠ 1 }
  let h := h.when (c = causeClockFault) (fun h => h.modRed (fun r => { r with arbs := r.arbs.map dark }))
  let h := if c = causeClockFault then h.setDie (4 + x) 8 else if c = causeBist then h.setDie (4 + x) 6
    else if h.die (6 + x) ≥ 4 then h else h.setDie (6 + x) 5
  h.setRole x 6

/-- Where a die that gives up its role goes: RELINQUISHED, and on to FAILED for a cause without recovery. -/
def Hub.dropRole (h : Hub) (x c : Nat) : Hub :=
  let h := h.setRole x 5
  if fatalCause c then h.failDie x c else h

/-! ### Hand-over (R321, R328) -/

/-- The first frame boundary after instant `u` (R263). -/
def frameAfter (u : Nat) : Nat := (u / uFrame + 1) * uFrame

/-- The instant at which a decision made now asserts RELINQUISH: one in the last 500 ns before a frame boundary asserts on the
first tick after it (R321). -/
def Hub.assertTick (h : Hub) : Hub :=
  let b := frameAfter (h.now 0)
  if b - h.now 0 ≤ uGrid then h.waitFor 0 (b + 1) else h

/-- A message of hub die x on all its die links (R321, R328). (DEDUCED: log 111.) -/
def Hub.sendRole (h : Hub) (x kind t : Nat) : Hub :=
  h.forEach ((List.range 4).filter (fun f => f < h.part.fe)) (fun f h => h.emit (.dieLink x f kind t))

/-- Hub die x asserts its line and, on the same tick, sends RELINQUISH on its die links (R321). (DEDUCED: log 111.) -/
def Hub.assertLine (h : Hub) (x : Nat) : Hub :=
  (h.modHdie x (fun v => { v with line := true })).sendRole x 0 (frameAfter (h.now 0))

/-- RELINQUISH of the Lead reads asserted: the hand-over runs toward its switch instant, the first frame boundary after it, and the
Understudy sends TAKE naming it (R328). A fault of the Lead before then turns a role swap into the hand-over of that fault (R317).
(DEDUCED: log 111.) -/
def Hub.asserted (h : Hub) (c : Nat) (swap : Bool) : Hub :=
  match h.red.handover with
  | some v =>
    if v.swap && !swap then (h.setCause h.leadDie c).modRed (fun r => { r with handover := some { v with cause := c, swap := false } })
    else h
  | none =>
    let t := frameAfter (h.now 0)
    (((h.setCause h.leadDie c).assertLine h.leadDie).sendRole (peerOf h.leadDie) 1 t).modRed (fun r => { r with
      handover := some { at_ := t, cause := c, swap := swap } })

/-- The Lead decides to relinquish, and asserts its line (R321). (DEDUCED: log 111.) -/
def Hub.beginHandover (h : Hub) (c : Nat) (swap : Bool) : Hub :=
  if h.red.handover.isSome then h.asserted c swap else h.assertTick.asserted c swap

/-- A hub die finds itself faulty with cause `c` (Table 11.2). A Lead without an Understudy asserts its line too and keeps its role
(R317, R321), and a cause without recovery stays the one under which it holds SAFE (R64). (DEDUCED: log 112.) -/
def selfFault (mb : ModeBlock) (h : Hub) (x c : Nat) : ModeBlock × Hub :=
  match h.role x with
  | 2 =>
    if h.understudy then (mb, h.beginHandover c false)
    else
      let h := ((h.assertTick.setCause x c).assertLine x).modRed (fun r => { r with
        sole := if canSafe mb.mode && !r.sole.any fatalCause then some c else r.sole })
      toSafe { mb with conds := { mb.conds with soleDie := canSafe mb.mode || mb.conds.soleDie } } h 2 0x0212
  | 3 => toSimplex mb (((h.assertTick.setCause x c).assertLine x).dropRole x c)
  | 4 => (mb, ((h.assertTick.setCause x c).assertLine x).dropRole x c)
  | 5 => (mb, if fatalCause c then (h.setCause x c).failDie x c else h.setCause x c)
  | 1 => (mb, if fatalCause c then ((h.setCause x c).assertLine x).failDie x c else h)
  | _ => (mb, h)

/-- The hand-over takes place at its switch instant t (R328, R331): roles, arbiters, records, background calibration, and the
mode; a SAFE cause of the old Lead ends (R64). Where the Understudy has lost its role before t, the Lead keeps its own, and a fault
of its own leads to SAFE (R317). (DEDUCED: log 111, 160; DESIGN CHOICE: log 152.) -/
def handOver (mb : ModeBlock) (h : Hub) : ModeBlock × Hub :=
  match h.red.handover with
  | none => (mb, h)
  | some v =>
    let h := h.waitFor 0 v.at_
    let h := h.modRed (fun r => { r with handover := none })
    let old := h.leadDie
    if !h.understudy then
      let h := h.modHdie old (fun d => { d with line := false })
      if v.swap then (mb, h) else selfFault mb h old v.cause
    else
    let mb := { mb with conds := { mb.conds with soleDie := false } }
    let new := peerOf old
    let h := (h.modRed (fun r => { r with switched := some v.at_ })).endFrames old
    let h := if v.swap then (h.setRole new 2).setRole old 3 else (h.dropRole old v.cause).setRole new 2
    let h := h.modHdie old (fun d => { d with line := !v.swap })
    let h := h.forEach (List.range 4) (fun f h => h.modArb f (fun a => { a with
      sel := new, take := none, silent := a.silent && a.take.isNone }))
    let h := (h.bump Obj.handovers).put Obj.lastHandover (time96 v.at_ 0)
    let h := h.logAt (time96 v.at_ 0) 0x0B02 1 srcPkg (srcHd new + 2 ^ v.cause * 65536 + b2n v.swap * 2 ^ 32)
    let h := h.bgHandover.enterWaiting
    if mb.mode = .calibrate then calReturn mb h.calInterrupt false
    else if v.swap then (mb, h) else toSimplex mb h

/-- FE die f receives TAKE, `dt` ticks on. One that comes after the switch instant is in force at once (R328); an FE die that
heard no commands follows it (R334). (DEDUCED: log 110.) -/
def execTakeMessage (f : Fin 4) (dt : Nat) (s : State) : Host.Outcome State Fault Refusal :=
  onHubM (fun _ h =>
    if !h.feUp f then h else
    let h := h.waitTicks dt
    let back (x : Nat) (a : ArbSt) : ArbSt := { a with silent := false, ok0 := a.ok0 || x = 0, ok1 := a.ok1 || x = 1 }
    match h.red.handover with
    | some v => h.modArb f (fun a => { back (peerOf h.leadDie) a with take := some v.at_ })
    | none => h.modArb f (fun a => { back h.leadDie a with sel := h.leadDie, take := none })) s

/-- An arbiter loses the selected die's clock or its blocks at its die link and selects the other die at once; the Understudy takes
it as an assertion of the Lead's RELINQUISH line (R329), with the cause of the link, under which the roles swap (Table 11.2). A
timebase clock that has stopped altogether is reported by its own die (R199). A simplex part's arbiters stay on HD0 (R33).
(DEDUCED: log 111.) -/
def execArbiterFailover (f : Fin 4) (_clock : Bool) (s : State) : Host.Outcome State Fault Refusal :=
  onHubM (fun _ h =>
    if !h.feUp f then h else
    let sel := (h.arb f).sel
    let h := h.modArb f (fun a => { a with ok0 := a.ok0 && sel ≠ 0, ok1 := a.ok1 && sel = 0 })
    if h.part.simplex then h else
    let h := h.modArb f (fun a => { a with sel := peerOf sel, take := none })
    if sel = h.leadDie && h.understudy then h.asserted causeDieLink true else h) s

/-- An FE die has received no command block for 100 µs: drivers off, control outputs at SAFE_LEVEL, strings soft-stopped (R334).
(DEDUCED: log 110.) -/
def execFeCommandTimeout (f : Fin 4) (s : State) : Host.Outcome State Fault Refusal :=
  onHubM (fun _ h =>
    if !h.feUp f then h else
    let u := h.now 0
    let h := h.forEach (List.range 24) (fun e h => h.excOff (f * 24 + e))
    let h := h.ctlRest h ((List.range 4).map (f * 4 + ·)) u
    let h := h.forEach (List.range 2) (fun k h =>
      let t := h.get (Obj.flEffTarget (f * 2 + k))
      if (h.str (f * 2 + k)).on then h.modStr (f * 2 + k) (fun v => { v with stop := some (u, t) }) else h)
    h.modArb f (fun a => { a with silent := true })) s

/-! ### Ending a role (R43, R322, R326) -/

/-- The Lead ends the Understudy's role: it is SHADOW from the next frame boundary on, and RUN becomes RUN-SIMPLEX there. -/
def endUnderstudy (mb : ModeBlock) (h : Hub) : ModeBlock × Hub :=
  let x := peerOf h.leadDie
  if h.role x ≠ 3 then (mb, h) else
  let h := h.waitFor 0 (ceilDiv (h.now 0) uFrame * uFrame)
  toSimplex mb ((h.setCause x causeEndedByLead).setRole x 4)

/-- The ticks among `l` within the last second. -/
def Hub.lastSecond (h : Hub) (l : List Nat) : List Nat := l.filter (fun t => h.time.ticks < t + tSec)

/-- A hub die finds itself faulty: 1 an uncorrectable green-room error, whose bank and line address `item` gives, 2 the sixteenth
poisoned word in 1 s, 3 the sixteenth uncorrectable memory-die error in 1 s. The other causes come from rows of their own.
(DEDUCED: log 112.) -/
def relinquish (mb : ModeBlock) (h : Hub) (x c item : Nat) : ModeBlock × Hub :=
  if !mb.up then (mb, h)
  else if c = causeGrEcc then
    let h := (h.grError x item).noteFault x
    if h.role x = 6 then (mb, h) else selfFault mb (h.modHdie x (fun v => { v with restarting := true })) x c
  else if c = causeQueuePoison && (h.lastSecond (h.queue x).poison).length ≥ 16 then selfFault mb h x c
  else if c = causeMdEcc && (h.lastSecond (h.hdie x).mdErrs).length ≥ 16 then selfFault mb h x c
  else (mb, h)

/-- A hub die relinquishes. (DEDUCED: log 112.) -/
def execRelinquish (x : Fin 2) (c : Fin 13) (item : Nat) (s : State) : Host.Outcome State Fault Refusal :=
  onBoth (fun mb h => relinquish mb h x c item) s

/-- An island of hub die x has reported nothing for 20 µs (R323). -/
def execIslandSilent (x : Fin 2) (s : State) : Host.Outcome State Fault Refusal :=
  onBoth (fun mb h =>
    if !mb.up then (mb, h) else
    selfFault mb (h.noteFault x) x causeIslandSilent) s

/-- Hub die x's timebase clock has stopped or departed from nominal (R199). Its firmware or its loader logs that, in any mode.
(DEDUCED: log 112.) -/
def execClockFault (x : Fin 2) (s : State) : Host.Outcome State Fault Refusal :=
  onBoth (fun mb h =>
    if h.role x = 6 || (h.role x = 0 && h.die (4 + x) ≠ 7) then (mb, h) else
    let h := h.forEach (List.range 4) (fun b h => h.putBit (Obj.tbStatus b) 7 true)
    selfFault mb (h.log 0x070A 3 (srcHd x) (srcHd x)) x causeClockFault) s

/-- The memory-die interface of hub die x is lost and its retrain fails (R325). -/
def execMdInterfaceLost (x : Fin 2) (s : State) : Host.Outcome State Fault Refusal :=
  onBoth (fun mb h =>
    if h.die (6 + x) ≠ 3 then (mb, h) else selfFault mb (h.setDie (6 + x) 5) x causeMdFailed) s

/-- More than 1,000 green-room errors have been corrected on hub die x in 1 s (R325). -/
def execEccRate (x : Fin 2) (n : Nat) (s : State) : Host.Outcome State Fault Refusal :=
  onHubM (fun mb h =>
    if !mb.up || n ≤ 1000 then h
    else h.log 0x0B08 1 (srcHd x) (srcHd x + satNat 65535 n * 65536)) s

/-! ### Die links (R49, R334) -/

/-- A die link is declared failed after 16 misses in 1,024 grid periods. (DEDUCED: log 109.) -/
def execDieLinkFailed (x : Fin 2) (f : Fin 4) (s : State) : Host.Outcome State Fault Refusal :=
  onHubM (fun mb h =>
    let a := h.alignOf x f
    if !mb.up || a.failed || (a.recent.filter id).length < 16 then h else
    let h := (h.modAlign x f (fun a => { a with failed := true })).putBit (Obj.hdLinkState x) f false
    let h := h.modArb f (fun a => { a with ok0 := a.ok0 && x ≠ 0, ok1 := a.ok1 && x ≠ 1 })
    let h := (h.refreshDuplex).log 0x0B07 2 (srcHd x) (f + srcHd x * 256)
    if h.role x = 2 && h.understudy && h.linkOk (peerOf x) f then h.beginHandover causeDieLink true else h) s

/-! ### The peer link (R322) -/

/-- The peer link is lost; `crc` says by 8 consecutive CRC failures. -/
def peerLinkLost (mb : ModeBlock) (h : Hub) (crc : Bool) : ModeBlock × Hub :=
  if !mb.up || !h.red.peerUp then (mb, h) else
  let lead := h.leadDie
  let x := peerOf lead
  let now := h.time.ticks
  let h := h.modRed (fun r => { r with peerUp := false, peerLostAt := now, readmit := none })
  let h := h.forEach (List.range 2) (fun y h => (h.bump (Obj.hdPeerLinkLosses y)).when crc (·.bumpBy (Obj.hdPeerCrcErrors y) 8))
  let h := (h.refreshDuplex).log 0x0B06 2 (srcHd lead) (srcHd lead)
  if h.role x = 3 then
    if h.lineReads lead then (mb, h)
    else
      let r := toSimplex mb h
      let h := r.2.waitFor 0 (frameAfter (r.2.now 0))
      (r.1, (h.setCause x causePeerLink).setRole x 5)
  else if h.role x = 4 then (mb, (h.setCause x causePeerLink).setRole x 5)
  else (mb, h)

/-- The peer link is lost. -/
def execPeerLinkLost (crc : Bool) (s : State) : Host.Outcome State Fault Refusal :=
  onBoth (fun mb h => peerLinkLost mb h crc) s

/-- 100 ms have passed and the peer link is retried; `ok` says that it returns. A die relinquished for it recovers. -/
def execPeerLinkRetry (ok : Bool) (s : State) : Host.Outcome State Fault Refusal :=
  onHubM (fun mb h =>
    if !mb.up || h.red.peerUp || h.part.simplex then h else
    let per := 100 * tMs
    let t := h.red.peerLostAt + ((h.time.ticks - h.red.peerLostAt) / per + 1) * per
    let h := h.waitTick t
    if !ok then h else
    let h := (h.modRed (fun r => { r with peerUp := true })).refreshDuplex
    let x := peerOf h.leadDie
    if h.role x = 5 && h.get (Obj.relinquishCause x) = 2 ^ causePeerLink then h.setRole x 4 else h) s

/-! ### Recovery and readmission (Table 11.3, R332) -/

/-- The recovery of a cause has nothing left to wait for. (DEDUCED: log 112.) -/
def Hub.recovered (h : Hub) (x c : Nat) : Bool :=
  !fatalCause c && !(h.hdie x).restarting && (c ≠ causePeerLink || h.red.peerUp)

/-- What recovery does beside the role: a queue flush, or a raw-frame boundary (Table 11.3). -/
def Hub.recover (h : Hub) (x c : Nat) : Hub :=
  if c = causeQueuePoison then
    let h := h.waitFor 0 (frameAfter (h.now 0))
    (h.flushQueue x 1).modQueue x (fun q => { q with poison := [] })
  else if c = causeIslandSilent then h.waitBoundaryTick
  else if c = causeMdEcc then h.modHdie x (fun v => { v with mdErrs := [] })
  else h

/-- The FE dies take hub die x's blocks again, as far as its links are valid (R327). -/
def Hub.linksBack (h : Hub) (x : Nat) : Hub :=
  h.forEach (List.range 4) (fun f h =>
    if !h.linkOk x f then h
    else h.modArb f (fun a => { a with ok0 := a.ok0 || x = 0, ok1 := a.ok1 || x = 1 }))

/-- A relinquished die has recovered from its cause and becomes SHADOW; the condition of a Lead that holds SAFE ends (R64). -/
def roleRecovery (mb : ModeBlock) (h : Hub) (x : Nat) : ModeBlock × Hub :=
  let c := (h.get (Obj.relinquishCause x)).log2
  if !mb.up then (mb, h)
  else if h.role x = 5 && h.recovered x c && h.red.peerUp then (mb, ((h.recover x c).linksBack x).setRole x 4)
  else if h.role x = 2 then
    match h.red.sole with
    | some d =>
      if h.recovered x d then
        ({ mb with conds := { mb.conds with soleDie := false } },
          ((h.recover x d).modHdie x (fun v => { v with line := false })).modRed (fun r => { r with sole := none }))
      else (mb, h)
    | none => (mb, h)
  else (mb, h)

/-- A die's recovery completes. -/
def execRoleRecovery (x : Fin 2) (s : State) : Host.Outcome State Fault Refusal :=
  onBoth (fun mb h => roleRecovery mb h x) s

/-- The first frame boundary at least 1 ms from now. -/
def Hub.readmitCue (h : Hub) : Nat := ceilDiv (h.now 0 + uMs) uFrame * uFrame

/-- The SHADOW die has matched long enough. -/
def Hub.shadowReady (h : Hub) : Bool :=
  h.role (peerOf h.leadDie) = 4 && h.get Obj.shadowMatched ≥ h.get Obj.readmitFrames

/-- An automatic readmission is named once its condition is met. -/
def Hub.nameReadmit (h : Hub) : Hub :=
  if h.shadowReady && h.red.readmit.isNone && h.flag Obj.readmitAuto && h.get Obj.readmitsLeft > 0 then
    let u := h.readmitCue
    h.modRed (fun r => { r with readmit := some (u, true) })
  else h

/-- Why a READMIT_REQUEST is refused, 0 when it is accepted. -/
def Hub.readmitRefusal (h : Hub) : Nat :=
  if h.part.simplex then Abort.noUnderstudy else if h.shadowReady then 0 else Abort.readmitNotReady

/-- READMIT_REQUEST in force. -/
def Hub.applyReadmit (h : Hub) : Hub :=
  let u := h.readmitCue
  h.modRed (fun r => { r with readmit := if r.readmit.isSome then r.readmit else some (u, false) })

/-- The readmission cue point is reached (R332). A Lead that holds SAFE for a cause that has not ended hands over (R64). -/
def readmission (mb : ModeBlock) (h : Hub) : ModeBlock × Hub :=
  match h.red.readmit with
  | none => (mb, h)
  | some (u, auto) =>
    let h := h.waitFor 0 u
    let h := h.modRed (fun r => { r with readmit := none })
    let x := peerOf h.leadDie
    if h.role x ≠ 4 then (mb, h) else
    let now := h.time.ticks
    let h := h.setRole x 3
    let h := if auto then (h.put Obj.readmitsLeft (h.get Obj.readmitsLeft - 1)).modRed (fun r => { r with autoAt := now }) else h
    let h := h.log 0x0B03 0 srcPkg (srcHd x + h.get Obj.readmitsLeft * 256)
    let h := match h.red.sole with
      | some c => (h.beginHandover c false).modRed (fun r => { r with sole := none })
      | none => h
    toDuplex mb h

/-- The readmission takes place. -/
def execReadmission (s : State) : Host.Outcome State Fault Refusal := onBoth readmission s

/-- 24 h of LOCAL time have passed without an automatic readmission. -/
def execReadmitsRestore (s : State) : Host.Outcome State Fault Refusal :=
  onHubM (fun mb h =>
    if !mb.up || h.get Obj.readmitsLeft ≥ 3 then h
    else ((h.waitTick (h.red.autoAt + 86400 * tSec)).put Obj.readmitsLeft 3).nameReadmit) s

/-- Why a ROLE_SWAP_REQUEST is refused (R333). -/
def Hub.swapRefusal (h : Hub) : Nat := if h.part.simplex || !h.understudy then Abort.noUnderstudy else 0

/-! ### Cross-compare (R324, R326) -/

/-- The dies compare: the Lead has a peer that takes part. (DEDUCED: log 108.) -/
def Hub.compares (h : Hub) : Bool :=
  let r := h.role (peerOf h.leadDie)
  h.red.peerUp && h.role h.leadDie = 2 && (r = 3 || r = 4)

/-- Outputs of FE die f were suppressed on a hub die in frame n, or a die link to it has failed (R324). -/
def Hub.feSkipped (h : Hub) (n f : Nat) : Bool :=
  (h.alignOf 0 f).failed || (h.alignOf 1 f).failed || (vget h.fes f).suppressed.contains n

/-- A mismatch in frame n (R326): `att` has bit x for each hub die that logged a fault, `sum` is its checksum.
(DESIGN CHOICE: log 106; DEDUCED: log 107.) -/
def mismatch (mb : ModeBlock) (h : Hub) (n sum att : Nat) : ModeBlock × Hub :=
  let now := h.time.ticks
  let h := h.bump Obj.cmpMismatches
  let due := match h.red.cmpLog with
    | some t => decide (now ≥ t + tSec)
    | none => true
  let h := if due then (h.modRed (fun r => { r with cmpLog := some now })).log 0x0B04 2 srcPkg
      (n % 2 ^ 48 + sum * 2 ^ 48 + att * 2 ^ 51) else h
  let lead := h.leadDie
  let peer := peerOf lead
  let h := h.modRed (fun r => { r with readmit := none })
  let h := if h.role peer = 4 then h.put Obj.shadowMatched 0 else h
  let bound (h : Hub) : Hub := h.waitFor 0 (ceilDiv (h.now 0) uFrame * uFrame)
  if att = 0 then
    let h := h.bump Obj.cmpUnattributed
    if h.role peer = 3 then endUnderstudy mb h else (mb, h)
  else if att = 3 then
    if h.role peer = 3 then thenBoth (endUnderstudy mb h) (fun mb h => selfFault mb h lead causeCmp)
    else thenBoth (selfFault mb h peer causeCmp) (fun mb h => selfFault mb h lead causeCmp)
  else selfFault mb (if h.role (att - 1) = 3 then bound h else h) (att - 1) causeCmp

/-- The dies to which a mismatch in frame n is attributed. (DEDUCED: log 107.) -/
def Hub.attributed (h : Hub) (n : Nat) : Nat :=
  let at_ (x : Nat) : Bool := (h.hdie x).faultFrames.any (fun m => m = n || m + 1 = n)
  b2n (at_ 0) + 2 * b2n (at_ 1)

/-- The comparison of the latest finished frame: `bad` has bit i for each checksum that differs, 0 to 3 FE dies, 4 CORE.
(DEDUCED: log 107, 108.) -/
def crossCompare (mb : ModeBlock) (h : Hub) (bad : Nat) : ModeBlock × Hub :=
  let n := h.now 0 / uFrame - 1
  if !mb.up || !h.compares || h.now 0 < uFrame || n < h.red.cmpNext then (mb, h) else
  let h := h.modRed (fun r => { r with cmpNext := n + 1 })
  let fes := (List.range 4).filter (fun f => h.feUp f)
  let skip := fes.filter (h.feSkipped n)
  let h := (h.bump Obj.cmpFrames).bumpBy Obj.cmpSkipped (skip.length + b2n (!skip.isEmpty))
  let real := (List.range 5).filter (fun i => bitOf bad i && (i = 4 || (fes.contains i && !skip.contains i)))
  match real with
  | [] =>
    if h.role (peerOf h.leadDie) = 4 then (mb, (h.put Obj.shadowMatched (min (2 ^ 32 - 1) (h.get Obj.shadowMatched + 1))).nameReadmit)
    else (mb, h)
  | i :: more =>
    let att := h.attributed n
    let h := (h.bumpBy Obj.cmpMismatches more.length).when (att = 0) (·.bumpBy Obj.cmpUnattributed more.length)
    mismatch mb h n i att

/-- The result checksums of a frame are compared, `dt` ticks on. -/
def execCrossCompare (dt : Nat) (bad : Fin 32) (s : State) : Host.Outcome State Fault Refusal :=
  onBoth (fun mb h => crossCompare mb (h.waitTicks dt) bad) s

/-- The two dies compare all four bases at the next LOCAL second (R198). A difference is an unattributed mismatch; no rule gives
its record a checksum. (DESIGN CHOICE: log 106.) -/
def execTimebaseCompare (differ : Bool) (s : State) : Host.Outcome State Fault Refusal :=
  onBoth (fun mb h =>
    if !mb.up || !h.compares then (mb, h) else
    let k := max (h.red.seconds + 1) (ceilDiv h.time.ticks tSec)
    let h := (h.waitTick (k * tSec)).modRed (fun r => { r with seconds := k })
    if !differ then (mb, h) else
    let d := h.drawNat
    mismatch mb d.2 (h.now 0 / uFrame) (d.1 % 8) 0) s

/-! ### Selection at BOOT (R318, R319, R338) -/

/-- Hub die x is eligible, reaching the FE dies of `reach`. -/
def Hub.eligibleDie (h : Hub) (x reach : Nat) : Bool := h.die (4 + x) = 3 && h.die (6 + x) = 3 && reach ≠ 0

/-- A die that is not eligible (Table 11.2). -/
def Hub.notEligible (h : Hub) (x reach : Nat) : Hub :=
  let h := h.assertLine x
  if h.die (4 + x) ≥ 4 || h.die (6 + x) ≥ 4 then h.setRole x 6
  else (h.when (reach = 0) (·.setCause x causeDieLink)).setRole x 5

/-- The FE dies that UP dies reach. -/
def Hub.reachOf (h : Hub) (reach : Nat) : Nat :=
  sumNat ((List.range 4).map (fun f => if bitOf reach f && h.feUp f then 2 ^ f else 0))

/-- The links a die reaches become its LINK_STATE. -/
def Hub.setReach (h : Hub) (x reach : Nat) : Hub :=
  let h := h.put (Obj.hdLinkState x) reach
  h.forEach (List.range 4) (fun f h => h.modAlign x f (fun _ => { failed := !bitOf reach f }))

/-- The die preferred at equal reach. -/
def Hub.preferred (h : Hub) (sel : Bool) : Nat :=
  match h.get Obj.rolePref with
  | 1 => 0
  | 2 => 1
  | _ => b2n sel

/-- The arbiters follow the Lead before CONFIGURE (R79). -/
def Hub.arbsToLead (h : Hub) : Hub := h.forEach (List.range 4) (fun f h => h.modArb f (fun _ => { sel := h.leadDie, ok0 := h.linkOk 0 f, ok1 := h.linkOk 1 f && !h.part.simplex }))

/-- The election (R318): `sel` is the level of ROLE_SEL, `r0` and `r1` the FE dies that the hub dies reach. -/
def Hub.elect (h : Hub) (sel : Bool) (r0 r1 : Nat) : Hub :=
  let h := (h.putB Obj.roleSelLevel sel).modRed (fun r => { r with peerUp := h.die 4 = 3 && h.die 5 = 3 })
  let a := h.reachOf r0
  let b := h.reachOf r1
  let h := (h.setReach 0 a).setReach 1 b
  let e0 := h.eligibleDie 0 a && h.role 0 = 1
  let e1 := h.eligibleDie 1 b && h.role 1 = 1
  let p := h.preferred sel
  let lead :=
    if e0 && e1 then if ones 4 a > ones 4 b then 0 else if ones 4 b > ones 4 a then 1 else p
    else if e1 then 1 else 0
  let put (h : Hub) (x : Nat) (e : Bool) : Hub :=
    if h.role x ≠ 1 then h else if !e then h.notEligible x (if x = 0 then a else b) else if x = lead then h.setRole x 2 else h.setRole x 3
  (put (put h lead (if lead = 0 then e0 else e1)) (peerOf lead) (if lead = 0 then e1 else e0)).arbsToLead

/-- The election is still to come, and the bring-up of both hub dies is over (R318, R320). -/
def Hub.electable (h : Hub) : Bool :=
  (h.role 0 = 1 || h.role 1 = 1) && h.role 0 ≠ 2 && h.role 1 ≠ 2 && h.die 4 ≥ 3 && (h.part.simplex || h.die 5 ≥ 3)

/-- The election runs once both hub dies have come up or failed; a simplex part's HD0 is the Lead. -/
def execRoleElection (sel : Bool) (r0 r1 : Fin 16) (s : State) : Host.Outcome State Fault Refusal :=
  onHubM (fun mb h =>
    if mb.mode ≠ .boot || !h.electable then h
    else if h.part.simplex then
      let a := h.reachOf r0
      ((((h.putB Obj.roleSelLevel sel).setReach 0 a).setRole 0 2).arbsToLead)
    else h.elect sel r0 r1) s

/-- The peer link has not come up within 10 ms (R319): no two dies that cannot talk both lead. -/
def execPeerLinkBootTimeout (sel : Bool) (r0 r1 : Fin 16) (s : State) : Host.Outcome State Fault Refusal :=
  onHubM (fun mb h =>
    if mb.mode ≠ .boot || h.part.simplex || !h.electable then h else
    let h := (h.putB Obj.roleSelLevel sel).modRed (fun r => { r with peerUp := false, peerLostAt := h.time.ticks })
    let a := h.reachOf r0
    let b := h.reachOf r1
    let h := (h.setReach 0 a).setReach 1 b
    let e0 := h.eligibleDie 0 a && h.role 0 = 1
    let e1 := h.eligibleDie 1 b && h.role 1 = 1
    let h := if e0 then h.setRole 0 2 else if h.role 0 = 1 then h.notEligible 0 a else h
    let h := if h.role 1 ≠ 1 then h
      else if !e1 then h.notEligible 1 b
      else if !e0 && h.lineReads 0 then h.setRole 1 2
      else (h.setCause 1 causePeerLink).setRole 1 5
    h.arbsToLead) s

end Sys2Proof.Machine
end

