-- ==== Sys2Proof/Machine/TimeCues.lean ====
section
/-! DEFINITION. Time cues, PPS_OUT and REFCLK_OUT (R219 to R224, R228, R229). -/
namespace Sys2Proof.Machine

/-- An instant of base `b` near now, as an instant of ARRAY in 2⁻¹⁶ ns. (DEDUCED: log 85.) -/
def Hub.toArray (h : Hub) (b u : Nat) : Nat :=
  if b = 0 then u
  else uOfAcc ((h.acc 0 : Int) - ((h.acc b : Int) - u * 2 ^ 24) * h.incr 0 / h.incr b).toNat

/-- An instant of ARRAY near now, as an instant of base `b` in 2⁻¹⁶ ns. (DEDUCED: log 85.) -/
def Hub.fromArray (h : Hub) (b u : Nat) : Nat :=
  if b = 0 then u
  else uOfAcc ((h.acc b : Int) + ((u * 2 ^ 24 : Nat) - (h.acc 0 : Int)) * h.incr b / h.incr 0).toNat

/-- The base a cue follows: the DOMAIN of INSTANT. -/
def Hub.cueBase (h : Hub) (c : Nat) : Nat := h.get (Obj.cueInstant c) % 4

/-- A cue is ARMED. -/
def Hub.cueArmed (h : Hub) (c : Nat) : Bool := h.get (Obj.cueState c) % 4 = 1

/-- Instants of the cue earlier than `lead`, in the cue's base (R221). -/
def Hub.cuePassed (h : Hub) (c lead : Nat) : Nat :=
  let i0 := uOfTime96 (h.get (Obj.cueInstant c))
  let per := h.get (Obj.cuePeriod c)
  let n := h.get (Obj.cueCount c)
  if i0 ≥ lead then 0
  else if per = 0 then 1
  else
    let k := ceilDiv (lead - i0) per
    if n = 0 then k else min k n

/-- The cue has no instant from index `k` on. -/
def Hub.cueOver (h : Hub) (c k : Nat) : Bool :=
  if h.get (Obj.cuePeriod c) = 0 then k ≥ 1 else h.get (Obj.cueCount c) ≠ 0 && k ≥ h.get (Obj.cueCount c)

/-- The cue is armed from the values in force at the next boundary: the first instant used is the first at or after that
boundary + 2 µs; earlier ones are missed (R221). (DEDUCED: log 97.) -/
def Hub.armCue (h : Hub) (c : Nat) : Hub :=
  let g := h.boundary
  let k := h.cuePassed c (h.fromArray (h.cueBase c) (g + 2 * uUs))
  let h := (h.bumpBy (Obj.cueMissedCount c) k).put (Obj.cueFireCount c) 0
  let h := { h with time := { h.time with
      cueNext := vset h.time.cueNext c k, cueLate := vset h.time.cueLate c none, cueArmedAt := vset h.time.cueArmedAt c g } }
  if h.cueOver c k then
    ((h.put (Obj.cueState c) 3).put (Obj.cueArm c) 0).log 0x0708 1 srcPkg (c + h.get (Obj.cueMissedCount c) * 256)
  else (h.put (Obj.cueState c) 1).put (Obj.cueArm c) 1

/-- A write of ARM. -/
def Hub.applyCueArm (h : Hub) (c v : Nat) : Hub :=
  if v = 1 then h.armCue c else (h.put (Obj.cueArm c) 0).put (Obj.cueState c) 0

/-- A write to INSTANT, PERIOD or COUNT re-arms an armed cue (R221). (DEDUCED: log 86.) -/
def Hub.rearmCue (h : Hub) (c : Nat) : Hub := if h.cueArmed c then h.armCue c else h

/-- A fire reaches its targets, each in the modes its own chapter allows (R222). `u` is its instant in ARRAY and `e` where its pin
edges and its injected holds are placed. -/
def Hub.cueTargets (h : Hub) (mb : ModeBlock) (c u e : Nat) : Hub :=
  let h := if mb.injects then h.sourceEdge 1 c none true (if h.cueBase c = 0 then u else e) else h
  let h := h.srcEdge 3 c u
  let h := if mb.drives then ((h.ctlCue c e).loopCue c u).patCue c u else h
  if h.get Obj.ppsOutSource = 3 && h.get Obj.ppsOutCue = c then h.modPins (fun p => { p with ppsDue := some u }) else h

/-- The cue reaches I_k and fires, at the step where a step has passed I_k over; after its last instant it is DONE (R220, R221).
(DEDUCED: log 158.) -/
def Hub.cueFire (h : Hub) (mb : ModeBlock) (c : Nat) : Hub :=
  if !mb.up || !h.cueArmed c then h else
  let b := h.cueBase c
  let k := vget h.time.cueNext c
  let ik := h.cueInstantAt c k
  let late := vget h.time.cueLate c
  let mark := late.isSome || h.bit (Obj.cueState c) 2
  let h := h.waitFor b ik
  let more := if h.cueInstantAt c (k + 1) ≤ h.now b then late else none
  let h := { h with time := { h.time with cueNext := vset h.time.cueNext c (k + 1), cueLate := vset h.time.cueLate c more } }
  let h := (h.bump (Obj.cueFireCount c)).put (Obj.cueLastFire c) (time96 ik b)
  let h := h.putBit (Obj.cueState c) 2 mark
  let h := match late with
    | some u => h.cueTargets mb c u (h.placed u)
    | none => h.cueTargets mb c (h.toArray b ik) (h.placedIn b ik)
  if h.cueOver c (k + 1) then (h.put (Obj.cueState c) (2 + b2n mark * 4)).put (Obj.cueArm c) 0 else h

/-- The cue's instant has been reached. -/
def Hub.cueDue (h : Hub) (c : Nat) : Bool :=
  h.cueArmed c && decide (h.cueInstantAt c (vget h.time.cueNext c) ≤ h.now (h.cueBase c))

/-- Cue c fires, after the lower-numbered ones due on the same tick (R220); a cue that has fired so has done with this instant. -/
def Hub.cueReport (h : Hub) (mb : ModeBlock) (c : Nat) : Hub :=
  let j := h.time.cueJoint
  if j.1 = h.time.ticks && j.2.contains c then { h with time := { h.time with cueJoint := (j.1, j.2.erase c) } }
  else if !mb.up || !h.cueArmed c then h
  else
    let h := h.waitFor (h.cueBase c) (h.cueInstantAt c (vget h.time.cueNext c))
    let first := (List.range c).filter h.cueDue
    let h := h.forEach first (fun d h => h.cueFire mb d)
    let now := h.time.ticks
    let h := { h with time := { h.time with cueJoint := (now, if j.1 = now then j.2 ++ first else first) } }
    h.cueFire mb c

/-- A time cue fires. (DEDUCED: log 85.) -/
def execTimeCueFire (c : Fin 32) (s : State) : Host.Outcome State Fault Refusal := onHubM (fun mb h => h.cueReport mb c) s

/-! ### PPS_OUT and REFCLK_OUT (R223, R224) -/

/-- The pin of PPS_OUT. -/
def pinPpsOut : Nat := 3

/-- PPS_OUT rises for the edge due at `u`, advanced by PPS_OUT_DELAY; a pulse still high is extended (R223). -/
def Hub.ppsRise (h : Hub) (u : Nat) : Hub :=
  if !h.gateOk (h.get Obj.ppsOutGate) then h else
  let e := h.placed ((u : Int) - uOfPs (h.getI 32 Obj.ppsOutDelay)).toNat
  let h := if h.time.pins.ppsOut then h else h.emit (.pin pinPpsOut true e)
  h.modPins (fun p => { p with ppsOut := true, ppsEnd := e + h.get Obj.ppsOutWidth * uUs })

/-- PPS_OUT rises at the next whole second of ARRAY or SITE, or at a fire of its cue. -/
def execPpsOutPulse (s : State) : Host.Outcome State Fault Refusal :=
  onHubM (fun mb h =>
    if !mb.up then h else
    match h.get Obj.ppsOutSource with
    | 0 => h
    | 3 =>
      match h.time.pins.ppsDue with
      | some u => (h.modPins (fun p => { p with ppsDue := none })).ppsRise u
      | none => h
    | n =>
      let b := n - 1
      let u := (h.now b / uSec + 1) * uSec
      let h := h.waitFor b u
      h.ppsRise (h.toArray b u)) s

/-- PPS_OUT falls: PPS_OUT_WIDTH after its edge, or at once where its gate fails or its source is off. -/
def execPpsOutPulseEnd (s : State) : Host.Outcome State Fault Refusal :=
  onHubM (fun _ h =>
    if !h.time.pins.ppsOut then h else
    let open_ := h.gateOk (h.get Obj.ppsOutGate) && h.get Obj.ppsOutSource ≠ 0
    let h := if open_ then h.waitFor 0 h.time.pins.ppsEnd else h
    let e := if open_ then h.time.pins.ppsEnd else h.now 0
    (h.modPins (fun p => { p with ppsOut := false })).emit (.pin pinPpsOut false e)) s

end Sys2Proof.Machine
end

