-- ==== Sys2Proof/Machine/Commit.lean ====
section
/-! DEFINITION. What an object's new value brings about when it comes into force, the staging set, and the commit with its states
(R425, R430 to R434, R449). -/
namespace Sys2Proof.Machine

/-! ### The effect of a value (R40, R41) -/

/-- The two lanes of a pair. -/
def pairLanes (p : Nat) : List Nat := [p / 4 * 8 + p % 4 * 2, p / 4 * 8 + p % 4 * 2 + 1]

/-- A write that changes SOURCE or SOURCE_PORT of ARRAY or SITE (Table 7.3). (DEDUCED: log 87.) -/
def sourceEffect (mb : ModeBlock) (old h : Hub) (b k : Nat) : ModeBlock × Hub :=
  if old.get k = h.get k then (mb, h) else syncCue mb ((h.restartSource b 5).ptpRefresh)

/-- A write of MODE_CUE while the hub waits in SYNC: the run cue is decided anew (R59). (DEDUCED: log 30.) -/
def modeCueEffect (mb : ModeBlock) (h : Hub) : ModeBlock × Hub :=
  if mb.mode = .sync then syncCue { mb with cue := none } h else (mb, h)

/-- A value of a lane's LOOPBACK comes into force: it starts or ends a loopback in SERVICE and nothing elsewhere (R411).
(DEDUCED: log 75.) -/
def Hub.loopbackEffect (h : Hub) (mb : ModeBlock) (l : Nat) : Hub :=
  let v := h.get (Obj.laneLoopback l)
  if mb.mode ≠ .service then h.put (Obj.laneLoopback l) 0
  else if v = 0 then h.loopEnd l
  else if v ≠ 3 then h.loopNear l v
  else if h.laneNative l then
    let now := h.time.ticks
    (h.modLane l (fun s => { s with floopSent := some now })).sendMsg l 0x50 [1]
  else h.put (Obj.laneLoopback l) 0

/-- What the value of object `k` now in force brings about beside being read; `old` is the hub before it. Time cues have an
effect of their own (`cueEffect`), and the objects of a plan take effect with their group at a commit.
(DEDUCED: log 42, 75, 104.) -/
def keyEffect (mb : ModeBlock) (old h : Hub) (k : Nat) : ModeBlock × Hub :=
  let i := k / 256
  let s := k % 256
  let v := h.get k
  if k = Obj.modeCue then modeCueEffect mb h
  else if k = Obj.otWarnThreshold then otWarnEffect mb h
  else if k = Obj.pfwThreshold then (mb, { h with pow := { h.pow with pfw := v } })
  else if k = Obj.cueRole then (mb, h.armFollows)
  else if k = Obj.calBgEnable then (mb, if v = 0 && old.get k ≠ 0 then h.applyBgDisable else h)
  else if k = Obj.readmitAuto || k = Obj.readmitFrames then (mb, h.nameReadmit)
  else if (i = 0x4000 || i = 0x4001) && (s = 4 || s = 5) then sourceEffect mb old h (i - 0x4000) k
  else if 0x6000 ≤ i && i < 0x6020 && s = 0x02 then (mb, h.loopPut mb (i - 0x6000) k v)
  else if 0x6000 ≤ i && i < 0x6020 && s = 0x1A then (mb, h.applyTuneBase (i - 0x6000) (old.get k))
  else if 0x6040 ≤ i && i < 0x6050 && s = 0x02 then (mb, h.applyHostLevel mb (i - 0x6040))
  else if 0x6810 ≤ i && i < 0x6818 && (s = 0x03 || s = 0x04) then
    (mb, (h.strOrders (i - 0x6810)).refreshStr (i - 0x6810) (h.now 0))
  else if 0x7800 ≤ i && i < 0x7808 then (mb, (h.forEach (pairLanes (i - 0x7800)) (fun l h => h.laneReconf l)).ptpRefresh.loadFigures)
  else if k = Obj.capReadPriority then (mb, h.loadFigures)
  else if 0x7810 ≤ i && i < 0x7820 then
    let l := i - 0x7810
    if s = 0x01 then (mb, (h.laneEnabled mb l).ptpRefresh)
    else if s = 0x02 then (mb, (h.laneReconf l).ptpRefresh.loadFigures)
    else if s = 0x03 || s = 0x04 || s = 0x05 then (mb, (h.laneReconf l).ptpRefresh)
    else if s = 0x1E then (mb, (h.lpmWritten l).lpTry l)
    else if s = 0x20 then (mb, h.loopbackEffect mb l)
    else (mb, h)
  else if 0x7910 ≤ i && i < 0x7918 then
    if s = 0x01 || (0x03 ≤ s && s ≤ 0x0A) || s = 0x0D then (mb, (h.ethReset (i - 0x7910)).loadFigures)
    else (mb, h)
  else (mb, h)

/-- The plan's figures follow a counted PERIOD (R371). -/
def Hub.cueFigures (h : Hub) (c : Nat) : Hub := if h.cueCounted c then h.planFigures h else h

/-! ### The groups of a commit (R39, R434): `old` is the hub before, `u` the cue point -/

/-- A control output after a commit (R280, R281): the ball follows POLARITY, the level its SOURCE, and a pulse is over where that is
no longer CUE. An output under LOOP that no enabled loop drives, or whose loop is in OFF or SAFE, stands at SAFE_LEVEL; one that such
a loop of a PAIR drove before takes a new SAFE_LEVEL at the loop's next cycle. -/
def Hub.ctlCommit (h old : Hub) (drives : Bool) (u o : Nat) : Hub :=
  let ball := h.bit (Obj.ctlStatus o) 1
  let h := h.refreshBall o
  let h := if h.bit (Obj.ctlStatus o) 1 = ball || h.die (o / 4) ≥ 4 then h else h.emit (.pin (ctlPin o) (h.bit (Obj.ctlStatus o) 1) u)
  let src := h.get (Obj.ctlSource o)
  let h := if src = 2 then h else h.modCtl o (fun v => { v with pulseEnd := none })
  let same := decide (old.get (Obj.ctlSafeLevel o) = h.get (Obj.ctlSafeLevel o))
  let rests (g : Hub) : Bool := g.get (Obj.ctlSource o) = 1 && (match g.ctlLoop o with
    | some l => h.get (Obj.loopLoopState l) = 0 || h.get (Obj.loopLoopState l) = 5
    | none => true)
  if !drives then if same then h else h.ctlRest h [o] u
  else if rests h then
    if rests old && (same || (h.ctlPair o).isSome) then h
    else h.when (h.obeys (o / 4)) (fun h => h.ctlRest (if (old.ctlPair o).isSome then old else h) [o] u)
  else if src = 0 && old.get (Obj.ctlSource o) ≠ 0 then h.setCtl o (h.flag (Obj.ctlHostLevel o)) u
  else h

/-- The range mode or limits of a channel differ. (DEDUCED: log 148.) -/
def Hub.rangeChanged (h old : Hub) (n : Nat) : Bool :=
  [Obj.chRangeMode n, Obj.chRangeFixed n, Obj.chRangeCoarsest n, Obj.chRangeFinest n].any (fun k => h.get k ≠ old.get k)

/-- A commit gives the channel a synchronising reset (Table 5.5b). (DEDUCED: log 148, 188.) -/
def Hub.filterChanged (h old : Hub) (n : Nat) : Bool :=
  [Obj.chFilterPreset n, Obj.chCicOrder n, Obj.chPhaseDelay n, Obj.chOutScale n].any (fun k => h.get k ≠ old.get k) ||
    (old.flag (Obj.chGated n) && !h.flag (Obj.chGated n))

/-- A commit replaces the chain of a channel by the window averager: its histories end (R111). (DEDUCED: log 188.) -/
def Hub.gatedNow (h old : Hub) (n : Nat) : Bool := h.flag (Obj.chGated n) && !old.flag (Obj.chGated n)

/-- A core whose background list no longer holds CALBUS has no drift monitor (R180). -/
def Hub.driftCommit (h : Hub) (k : Nat) : Hub :=
  if (List.range (h.get (Obj.coreBgCount k))).any (fun p => h.bgEntry k p = 3) then h
  else (h.put (Obj.calcDrift k) 0).modCore k (fun v => { v with calbus := [] })

/-- A detector whose configuration a commit changes begins anew at the cue point (R163). -/
def Hub.detCommit (h old : Hub) (d : Nat) : Hub :=
  if [Obj.detSource d, Obj.detType d, Obj.detParamA d, Obj.detParamB d].any (fun k => h.get k ≠ old.get k) then
    h.modDet d (fun v => { v.restart with inbox := [], gap := false })
  else h

/-- The mirror's slots whose channels a commit changes are cleared (R458, R459). (DEDUCED: log 141.) -/
def Hub.mirCommit (h old : Hub) : Hub :=
  let t := h.time.ticks
  let a := old.mirFwd
  let b := h.mirFwd
  let h := h.forEach (List.range 496) (fun i h =>
    if a[i]? = b[i]? then h
    else h.modMir (fun v => { v with fwd0 := vset v.fwd0 i (MirItem.clear t), fwd1 := vset v.fwd1 i (MirItem.clear t) }))
  h.forEach (List.range 48) (fun k h =>
    if old.injEntries k = h.injEntries k then h
    else h.forEach [4 * k, 4 * k + 1, 4 * k + 2, 4 * k + 3] (fun e h =>
      h.modMir (fun v => { v with inj := vset v.inj e (MirItem.clear t) })))

/-- The acquisition side of a commit: excitation, ranges, resets, streams of the channels, detectors.
(DEDUCED: log 104; DESIGN CHOICE: log 207.) -/
def Hub.inputsCommit (h old : Hub) (mb : ModeBlock) (u : Nat) : Hub :=
  let h := h.when mb.drives (·.forEach (List.range 96) (fun d h => h.excCommit old d))
  let h := h.when mb.samples (·.forEach ((List.range 384).filter (fun n => h.rangeChanged old n)) (fun n h => h.clipRange n))
  let h := h.forEach ((List.range 384).filter (fun n => h.gatedNow old n)) (fun n h => h.modChain n (fun v => { v with ctxs := [] }))
  let h := h.when mb.samples (·.resetChannels ((List.range 384).filter (fun n => h.filterChanged old n)) (u / uGrid) 2 false)
  let h := h.forEach (List.range 48) (fun k h => h.driftCommit k)
  let h := h.forEach ((List.range 144).map (· + 384)) (fun n h => h.diagCommit old u n)
  let h := h.forEach (List.range 384) (fun n h => (h.moveStream old u n).moveRecords old u (Obj.chRecStream n))
  let h := h.forEach (List.range 528) (fun n h => h.moveRecords old u (Obj.chStream n))
  h.forEach (List.range 64) (fun d h => h.detCommit old d)

/-- The output side of a commit: control outputs, engines, strings, sequencer, comparators, slots, streams, forwarding, loops.
(DEDUCED: log 104.) -/
def Hub.outputsCommit (h old : Hub) (mb : ModeBlock) (u : Nat) : Hub :=
  let h := h.forEach (List.range 16) (fun o h => h.ctlCommit old mb.drives u o)
  let h := h.forEach (List.range 4) (fun g h => h.patCommit old g)
  let h := h.forEach (List.range 8) (fun s h => h.flCommit old mb.drives u s)
  let h := h.seqCommit old
  let h := h.forEach (List.range 32) (fun k h => h.cmpCommit old k)
  let h := (h.forEach (List.range 16) (fun s h => h.slotCommit old u s)).managerRest
  let h := h.forEach (List.range 64) (fun q h => h.streamCommit old mb u q)
  let h := h.forEach (List.range 128) (fun j h => h.fwdCommit old j)
  h.forEach (List.range 32) (fun l h => h.loopCommit old mb u l)

/-- A cue of whose objects some are staged: ARM acts, and INSTANT, PERIOD and COUNT re-arm an armed cue once (R221).
(DEDUCED: log 86, 104.) -/
def Hub.cueCommit (h : Hub) (keys : List Nat) (c : Nat) : Hub :=
  if keys.contains (Obj.cueArm c) then h.applyCueArm c (h.get (Obj.cueArm c))
  else if keys.contains (Obj.cueInstant c) || keys.contains (Obj.cuePeriod c) || keys.contains (Obj.cueCount c) then h.rearmCue c
  else h

/-- The staging set takes effect at `u`, all of it at once (R434). (DEDUCED: log 104; DESIGN CHOICE: log 207.) -/
def applyStaged (mb : ModeBlock) (h : Hub) (u : Nat) : ModeBlock × Hub :=
  let keys := h.srv.staging.map (·.key)
  let old := h
  let new := h.staged
  let h := (h.forEach (List.range 64) (fun q h => h.streamLayout new q)).staged
  let h := h.forEach keys (fun k h => h.stagedLast u k)
  let h := ((((h.inputsCommit old mb u).outputsCommit old mb u).planFigures old).mirCommit old)
  let h := h.forEach (List.range 32) (fun c h => h.cueCommit keys c)
  keys.foldl (fun r k => keyEffect r.1 old r.2 k) (mb, h)

/-! ### The staging set (R430) -/

/-- The entry for the key is replaced, or joins the set. -/
def stageInto (l : List StagedEntry) (e : StagedEntry) : List StagedEntry :=
  if l.any (fun x => x.key = e.key) then l.map (fun x => if x.key = e.key then e else x) else l ++ [e]

/-- The staging set holds at most 4,096 entries and 256 KB of values. -/
def stagingFits (l : List StagedEntry) : Bool := l.length ≤ 4096 && sumNat (l.map (·.len)) ≤ 262144

/-- The staging set replaced; STAGED_ENTRIES follows. -/
def Hub.setStaging (h : Hub) (l : List StagedEntry) : Hub := (h.modSrv (fun v => { v with staging := l })).put Obj.stagedEntries l.length

/-- A value of `len` bytes is staged: STAGING_FULL beyond the limits. -/
def Hub.stageValue (h : Hub) (k len v : Nat) : Nat × Hub :=
  let l := stageInto h.srv.staging { key := k, len := len, val := v }
  if stagingFits l then (0, h.setStaging l) else (Abort.stagingFull, h)

/-! ### The commit (R431 to R434) -/

/-- The pending commit returns to OPEN with an outcome (Table 14.13). -/
def Hub.closeCommit (h : Hub) (code time : Nat) : Hub :=
  let w := pack [(16, h.get Obj.commitId), (96, h.get Obj.commitCue), (16, code), (96, time), (32, 0)]
  (((h.put Obj.lastCommit w).put Obj.commitState 0).put Obj.commitId 0).put Obj.commitCue 0

/-- A commit is armed. -/
def Hub.armCommit (h : Hub) (id cue st : Nat) : Hub :=
  ((h.put Obj.commitState st).put Obj.commitId id).put Obj.commitCue cue

/-- What a COMMIT request is answered with: result, cue point in force and HC_ITEM (Table 14.7). -/
structure CommitReply where
  result : Nat := 0
  cue : Nat := 0
  item : Nat := 0
deriving DecidableEq, Repr, Inhabited

/-- The first raw-frame boundary at least COMMIT_MIN_LEAD from now (R431). -/
def Hub.firstCue (h : Hub) : Nat := ceilDiv (h.now 0 + h.get Obj.commitMinLead * uMs) uGrid * uGrid

/-- Why a cue point is not valid (R433); 0 where it is. -/
def Hub.cueRefusal (h : Hub) (w : Nat) : Nat :=
  if !time96Ok w || uOfTime96 w % uGrid ≠ 0 then Abort.valueOutOfRange
  else if uOfTime96 w < h.now 0 + h.get Obj.commitMinLead * uMs then Abort.cuePointPassed
  else 0

/-- PREPARE, or PREPARE_CONFIRM where `confirm` (R431, Table 14.4). -/
def Hub.prepare (h : Hub) (confirm : Bool) (id w : Nat) : CommitReply × Hub :=
  if h.commitPending then ({ result := Abort.commitPending, cue := w }, h)
  else if w = 0 && !confirm then ({ result := Abort.cuePointPassed }, h)
  else
    let bad := if w = 0 then 0 else h.cueRefusal w
    if bad ≠ 0 then ({ result := bad, cue := w }, h)
    else
      let r := h.checkPlan h.staged
      let busy := r.1 = 0 && (h.staged).slotsBusy h
      if r.1 ≠ 0 then ({ result := r.1, cue := w, item := r.2.get Obj.hcItem }, r.2)
      else if busy then ({ result := Abort.busy, cue := w }, r.2)
      else
        let cue := if w = 0 then time96 r.2.firstCue 0 else w
        ({ cue := cue }, r.2.armCommit id cue (if confirm then 2 else 1))

/-- CONFIRM (Table 14.4). -/
def Hub.confirm (h : Hub) (id w : Nat) : CommitReply × Hub :=
  let st := h.get Obj.commitState
  let u := uOfTime96 w
  if st = 0 || h.get Obj.commitId ≠ id || h.get Obj.commitCue ≠ w then ({ result := Abort.noCommitPending, cue := w }, h)
  else if st = 2 then ({ result := if h.now 0 < u then 0 else Abort.noCommitPending, cue := w }, h)
  else if h.now 0 + 2 * uMs ≤ u then ({ cue := w }, h.put Obj.commitState 2)
  else ({ result := Abort.cuePointPassed, cue := w }, h)

/-- A commit that is CONFIRMED or PREPARED is discarded with an abort code. -/
def Hub.commitDrop (h : Hub) (code : Nat) : Hub :=
  if !h.commitPending then h else
  let id := h.get Obj.commitId
  let cue := h.get Obj.commitCue
  (h.closeCommit code h.stamp).logAt cue 0x0E03 1 srcPkg (id + code * 65536)

/-- A commit that is CONFIRMED or PREPARED is discarded as the hub enters SHUTDOWN (Table 14.4). -/
def Hub.commitDiscard (h : Hub) : Hub := h.commitDrop Abort.wrongMode

/-- An entry of an RW-stopped object is in the staging set. -/
def Hub.stagedStopped (h : Hub) : Bool :=
  h.srv.staging.any (fun e => match Catalog.ofKey e.key with
    | some r => r.access = .stopped
    | none => false)

/-- The cue point of a CONFIRMED commit (Table 14.4, R434). (DESIGN CHOICE: log 206.) -/
def commitApply (mb : ModeBlock) (h : Hub) : ModeBlock × Hub :=
  if h.get Obj.commitState ≠ 2 then (mb, h)
  else
    let w := h.get Obj.commitCue
    let id := h.get Obj.commitId
    let h := h.waitFor 0 (uOfTime96 w)
    if h.stagedStopped && !mb.mode.stopped then (mb, h.commitDiscard)
    else if h.staged.slotsBusy h then (mb, h.commitDrop Abort.busy)
    else
      let n := h.srv.staging.length
      let r := applyStaged mb h (uOfTime96 w)
      (r.1, (((r.2.setStaging []).closeCommit 0 w).modSrv (fun v => { v with appliedAt := some r.2.time.ticks })).logAt w 0x0E01 0
        srcPkg (id + n * 65536))

/-- A confirmed commit's cue point is reached: the staging set is applied, or discarded with WRONG_MODE, or
with BUSY where it changes a slot that holds a capture by then (Table 8.11). (DEDUCED: log 69, 183.) -/
def execCommitApply (s : State) : Host.Outcome State Fault Refusal := onBoth commitApply s

/-- A PREPARED commit reaches cue point − 2 ms without a CONFIRM and expires. -/
def execCommitExpire (s : State) : Host.Outcome State Fault Refusal :=
  onHub (fun _ h =>
    if h.get Obj.commitState ≠ 1 then h else
    let id := h.get Obj.commitId
    let h := h.waitFor 0 (uOfTime96 (h.get Obj.commitCue) - 2 * uMs + 1)
    (h.closeCommit Abort.commitTimedOut h.stamp).log 0x0E02 1 srcPkg id) s

/-- An ABORT of the pending commit with its ID: the abort code, 0 where it has been aborted. `hub` is the origin's ID. -/
def Hub.abortCommit (h : Hub) (id hub : Nat) : Nat × Hub :=
  if !h.commitPending || h.get Obj.commitId ≠ id then (Abort.noCommitPending, h)
  else (0, (h.closeCommit Abort.commitCancelled h.stamp).log 0x0E04 0 srcPkg (id + hub * 65536))

/-! ### The saved configuration (R449) -/

/-- Objects stored in NVM by rules of their own. -/
def storedKey (k : Nat) : Bool :=
  [Obj.brevSelect, Obj.hubId, Obj.fwBootSlot 0, Obj.fwBootSlot 1, Obj.nodeId 0, Obj.nodeId 1, Obj.pfwThreshold, Obj.rolePref].contains k

/-- The objects CONFIG_SAVE stores: writable ones whose value differs from the default. (DESIGN CHOICE: log 67.) -/
def Hub.savable (h : Hub) : List (Nat × Nat) :=
  h.objs.filter (fun e => !storedKey e.1 && (match Catalog.ofKey e.1 with
    | some r => r.access = .live || r.access = .cue || r.access = .stopped
    | none => false))

/-- CONFIG_SAVE 1: the set is stored; the number of bytes the store takes is the store's own. (DESIGN CHOICE: log 67.) -/
def Hub.configStore (h : Hub) : Hub :=
  let l := h.savable
  let d := h.drawNat
  ((d.2.modSrv (fun v => { v with saved := some l })).put Obj.configSavedTime h.stamp).log 0x0E08 0 srcPkg (d.1 % 2 ^ 32)

/-- The values of the set exceed 256 KB. (DESIGN CHOICE: log 67.) -/
def Hub.configTooLarge (h : Hub) : Bool := sumNat (h.savable.map (fun e => Catalog.len e.1)) > 262144

/-- At the entry into CONFIGURE from BOOT the saved set is staged and committed as a PREPARE_CONFIRM with cue point 0; `ok` says
that its check word holds. (DEDUCED: log 68, 69.) -/
def Hub.configLoad (h : Hub) (ok : Bool) : Hub :=
  match h.srv.saved with
  | none => h
  | some l =>
    let es := l.map (fun e => { key := e.1, len := Catalog.len e.1, val := e.2 : StagedEntry })
    if !ok then
      let d := h.drawNat
      d.2.log 0x0E09 2 srcPkg (d.1 % 65536)
    else if !stagingFits es then h.log 0x0E09 2 srcPkg Abort.stagingFull
    else
      let r := (h.setStaging es).prepare true 0 0
      if r.1.result = 0 then r.2 else r.2.log 0x0E09 2 srcPkg (r.1.result + r.1.item * 65536)

end Sys2Proof.Machine
end

