-- ==== Sys2Proof/Machine/Mirror.lean ====
section
/-! DEFINITION. The mirror port and the scrubbers of the green room and the memory dies (R453 to R476). -/
namespace Sys2Proof.Machine

/-! ### Items (R456 to R459) -/

/-- The output period of a local or diagnostic channel in 2⁻¹⁶ ns: T of its preset, P where it is gated (R105, R130). -/
def Hub.outPeriod (h : Hub) (n : Nat) : Nat :=
  if n ≥ 384 then h.diagPeriod n
  else if h.flag (Obj.chGated n) then h.pulsePeriod (n / 4) * uGrid
  else presetRaw (h.get (Obj.chFilterPreset n)) * uGrid

/-- No write for four output periods. (DEDUCED: log 141.) -/
def Hub.itemStale (h : Hub) (n : Nat) (m : MirItem) : Bool := 65536 * 4 * (h.time.ticks - m.wrote) ≥ 4 * h.outPeriod n

/-- The word of a channel item (Table 15.3). -/
def itemWord (m : MirItem) (n : Nat) (stale fwd : Bool) : Nat :=
  pack [(32, m.word), (96, time96 m.instant 0), (16, m.gen), (16, n), (1, b2n m.valid), (1, b2n stale), (1, b2n m.lost), (1, b2n fwd)]

/-- An unused slot: CHANNEL 0xFFFF, all else 0. -/
def unusedItem : Nat := 0xFFFF * 2 ^ 144

/-- Channel slot i as the hub die that drives the port holds it (R458, R463). -/
def Hub.slotItem (h : Hub) (i : Nat) : Nat :=
  let t := h.time.ticks
  if i < 528 then
    let m := (vget h.mir.items i).settle t
    itemWord m i (h.itemStale i m) false
  else
    match (h.mirFwd)[i - 528]? with
    | none => unusedItem
    | some n =>
      let m := (vget (if h.mir.lead = 0 then h.mir.fwd0 else h.mir.fwd1) (i - 528)).settle t
      itemWord m n (h.bit (Obj.fwdStatus (h.get (Obj.chFwdEntry n))) 0) true

/-- Injected item j (Table 15.5). -/
def Hub.injItem (h : Hub) (j : Nat) : Nat :=
  match (h.injEntries (j / 4))[j % 4]? with
  | some i =>
    if !h.part.has (j / 48) then unusedItem else
    let m := (vget h.mir.inj j).settle h.time.ticks
    pack [(32, m.word), (96, time96 m.instant 0), (16, m.gen), (16, j / 4 * 8 + i)]
  | none => unusedItem

/-- Detector item d (Table 15.4). -/
def Hub.detItem (h : Hub) (d : Nat) : Nat :=
  pack [(32, h.get (Obj.detResultA d)), (32, h.get (Obj.detResultB d)), (96, h.get (Obj.detResultTime d)),
        (8, h.get (Obj.detStatus d)), (8, 0), (16, h.get (Obj.detUpdates d))]

/-- The status items: first word address, words and value (Table 15.2). -/
def statusItems (mb : ModeBlock) (h : Hub) : List (Nat × Nat × Nat) :=
  let flags := pack [(1, b2n h.mir.torn), (1, b2n h.mir.seen), (1, h.leadDie), (1, h.get Obj.duplexStatus),
                     (4, mb.mode.code), (3, h.quality 0), (1, b2n mb.loader)]
  [(0, 2, pack [(16, 1), (16, h.get Obj.hubIdActive)]), (2, 2, flags), (4, 6, h.nowWord 0), (10, 6, h.nowWord 1),
   (16, 6, h.nowWord 2), (22, 2, h.cbNewest), (24, 2, h.get Obj.dieState), (26, 2, h.get Obj.duplexStatus),
   (28, 2, h.get Obj.tjMax), (30, 2, h.get Obj.mirTornCount)]

/-- The item that contains a word, with its first word and its value as it stands now; none in the mailbox, the reserved areas
and what the boot ROM loader does not serve. -/
def itemAt (mb : ModeBlock) (h : Hub) (a : Nat) : Option (Nat × Nat × Nat) :=
  if a < 0x20 then (statusItems mb h).find? (fun e => e.1 ≤ a && a < e.1 + e.2.1)
  else if mb.loader then none
  else if 0x400 ≤ a && a < 0x800 then some (a / 16 * 16, 16, h.detItem ((a - 0x400) / 16))
  else if 0x800 ≤ a && a < 0x1400 then some (a / 16 * 16, 16, h.injItem ((a - 0x800) / 16))
  else if 0x4000 ≤ a then some (a / 16 * 16, 16, h.slotItem ((a - 0x4000) / 16))
  else none

/-- A word of the mailbox (Table 14.9). -/
def MailboxSt.word (m : MailboxSt) (o : Nat) : Nat :=
  if o ≤ 32 then vget m.req o
  else if o = 33 then m.doorbell
  else if o = 34 then m.respSeq
  else if o = 35 then m.respCount
  else if o = 36 then b2n m.busy + 2 * b2n m.rejected
  else if o < 64 then 0
  else
    let pdu := vget m.resp ((o - 64) / 32)
    pdu.getD ((o - 64) % 32 * 2) 0 + 256 * pdu.getD ((o - 64) % 32 * 2 + 1) 0

/-- The words of an item. -/
def itemWords (n v : Nat) : List Nat := (List.range n).map (fun w => field v (16 * w) 16)

/-! ### The port (R453 to R455, R460, R462) -/

/-- The port is powered and serves items. (DEDUCED: log 138.) -/
def mirServes (mb : ModeBlock) : Bool := mb.up

/-- The port passes to the new Lead, whose holding register is empty. (DESIGN CHOICE: log 139.) -/
def Hub.mirPass (h : Hub) : Hub :=
  let x := h.leadDie
  h.modMir (fun v => { v with lead := x, switch := none, held := none })

/-- TORN is set; MIR_TORN is logged at the first and then at most once in 60 s. (DESIGN CHOICE: log 139.) -/
def Hub.mirTorn (h : Hub) (a : Nat) : Hub :=
  let due := match h.mir.tornLog with
    | some t => decide (h.time.ticks ≥ t + 60 * tSec)
    | none => true
  let h := h.modMir (fun v => { v with torn := true })
  if !due then h else
  let now := h.time.ticks
  (h.modMir (fun v => { v with tornLog := some now })).log 0x0F01 0 srcPkg (a + h.get Obj.mirTornCount * 65536)

/-- What a read cycle of word `a` returns, and the hub after it (R460). (DEDUCED: log 138.) -/
def mirRead (mb : ModeBlock) (h : Hub) (a : Nat) : Nat × Hub :=
  match itemAt mb h a with
  | none =>
    (if 0x200 ≤ a && a < 0x400 && h.flag Obj.mailboxEnable then h.mir.mbox.word (a - 0x200) else 0, h)
  | some (first, n, v) =>
    let ws := itemWords n v
    if a = first then
      let h := h.modMir (fun r => { r with held := some (first, ws) })
      (ws.getD 0 0, if first = 2 then h.modMir (fun r => { r with torn := false, seen := false }) else h)
    else
      match h.mir.held with
      | some (b, held) =>
        if b = first then (held.getD (a - first) 0, h)
        else (ws.getD (a - first) 0, (h.bump Obj.mirTornCount).mirTorn a)
      | none => (ws.getD (a - first) 0, (h.bump Obj.mirTornCount).mirTorn a)

/-- A read cycle of word `a`, `dt` ticks on. A cycle that begins after a switch instant has found the port idle, so the port has
passed by then. MIR_D is driven only with MIR_ENABLE. (DEDUCED: log 138.) -/
def execMirrorRead (a : Fin 32768) (dt : Nat) (s : State) : Host.Outcome State Fault Refusal :=
  onHubM (fun mb h =>
    if !mirServes mb then h else
    let h := h.waitTicks dt
    let h := if h.mir.switch.any (fun t => t ≤ h.now 0) then h.mirPass else h
    let r := mirRead mb h a
    let h := r.2.bump Obj.mirReads
    if h.flag Obj.mirEnable then h.emit (.mirror r.1) else h) s

/-- The port passes to the new Lead after a hand-over: `dt` ticks after the switch instant it is idle, or after 1 µs a read of
word `a` is still in progress, whose data is undefined (R462). (DESIGN CHOICE: log 139.) -/
def execMirrorPortHandover (dt : Fin 250) (idle : Bool) (a : Fin 32768) (s : State) : Host.Outcome State Fault Refusal :=
  onHubM (fun mb h =>
    match h.mir.switch with
    | none => h
    | some t =>
      if !mirServes mb then h
      else if idle then ((h.waitFor 0 t).waitTicks dt).mirPass
      else
        let h := ((h.waitFor 0 (t + uUs)).mirPass).mirTorn a
        if !h.flag Obj.mirEnable then h else
        let d := h.drawNat
        d.2.emit (.mirror (d.1 % 65536))) s

/-- The hub die roles change at the switch instant, and the mirror learns of it (R328, R462). -/
def handOverAll (mb : ModeBlock) (h : Hub) : ModeBlock × Hub :=
  let n := h.get Obj.handovers
  let t := h.red.handover.map (·.at_)
  let r := handOver mb h
  if r.2.get Obj.handovers = n then r
  else (r.1, r.2.modMir (fun v => { v with seen := true, switch := t }))

/-! ### The scrubbers (R325, R469, R473, R476) -/

/-- The ticks that pass before a scrub finds something, `dt`; a pass ends its period after it began (R469, R473).
(DEDUCED: log 142.) -/
def Hub.scrubWait (h : Hub) (pass : Bool) (since period dt : Nat) : Nat :=
  if pass then since + period - h.time.ticks else dt

/-- The green-room scrubber of hub die x, `dt` ticks on: `fixed` are the banks of the single-bit errors it corrects, one entry
each, `bad` the places of uncorrectable ones, bank in bits 2 to 0 and line address [23:3] above, and `pass` says that a pass has
ended. -/
def grScrub (mb : ModeBlock) (h : Hub) (x dt : Nat) (fixed : List (Fin 8)) (bad : List Nat) (pass : Bool) : ModeBlock × Hub :=
  if !mb.up || h.die (4 + x) ≠ 3 then (mb, h) else
  let h := h.waitTicks (h.scrubWait pass (vget h.mir.grFrom x) (h.get Obj.grScrubPeriod * tSec) dt)
  let h := h.forEach fixed (fun b h => (h.bump (Obj.hdGrEccCorrected x)).bump (Obj.bankEccCorrected x b))
  let h := h.when pass (fun h => (h.bump (Obj.scrubPasses x)).modMir (fun v => { v with grFrom := vset v.grFrom x h.time.ticks }))
  bad.foldl (fun r a =>
    selfFault r.1 ((r.2.grError x a).noteFault x) x causeGrEcc) (mb, h)

/-- The green-room scrubber reads. (DESIGN CHOICE: log 144.) -/
def execGrScrub (x : Fin 2) (dt : Nat) (fixed : List (Fin 8)) (bad : List Nat) (pass : Bool) (s : State) :
    Host.Outcome State Fault Refusal :=
  onBoth (fun mb h => grScrub mb h x dt fixed bad pass) s

/-- The region of a memory-die byte address: 0 capture, 1 trace, 2 channel table, 3 working area and reserved (Table 15.10).
(DEDUCED: log 142.) -/
def mdRegion (a : Nat) : Nat :=
  if a < 0xF0000000 then 0 else if a < 0xF8000000 then 1 else if a < 0xF8040000 then 2 else 3

/-- Memory die m's copy of a row of a capture slot is marked LOCAL_MISS (R255). (DEDUCED: log 142.) -/
def Hub.mdRowLost (h : Hub) (m slot row : Nat) : Hub :=
  let mark (r : CapRow) : CapRow := if m = 0 then { r with miss0 := 15 } else { r with miss1 := 15 }
  { h with slots := vupd h.slots slot (fun v => { v with rows := v.rows.modify row mark }) }

/-- Word `i` of those a trace buffer holds reads 0 on memory die m. (DEDUCED: log 142.) -/
def Hub.mdTraceLost (h : Hub) (m b i : Nat) : Hub :=
  ({ h with eng := { h.eng with traces := vupd h.eng.traces b (fun t => { t with bad := (m, i) :: t.bad }) } }).bump
    (Obj.mdTraceWordsLost m)

/-- An entry of the channel table is rewritten: from the cache, from the peer's table, or to its defaults (R473).
(DEDUCED: log 142.) -/
def Hub.mdTableRepair (h : Hub) (m n : Nat) : Hub :=
  if n < 528 || h.mirFwd.contains n then h.bump (Obj.mdTableRepairs m)
  else if h.role (peerOf m) = 3 || h.role (peerOf m) = 4 then h
  else
    let h := h.forEach [Obj.chSrcHub n, Obj.chSrcChannel n, Obj.chUnpack n, Obj.chFwdEntry n, Obj.chUserTag n]
      (fun k h => h.put k (Catalog.dflt k))
    h.log 0x0F04 1 (srcMd m) (srcMd m + n * 256)

/-- The capture slot in whose megabytes a byte address of the capture area lies (R472); an address of no slot holds no row.
(DEDUCED: log 142.) -/
def Hub.slotAt (h : Hub) (a : Nat) : Option Nat :=
  (List.range 16).find? (fun s =>
    h.get (Obj.mdSlotBase s) ≤ a / 2 ^ 20 && a / 2 ^ 20 < h.get (Obj.mdSlotBase s) + h.get (Obj.slotSize s))

/-- An uncorrectable error of memory die m. -/
def Hub.mdLost (h : Hub) (m : Nat) (e : MdError) : Hub :=
  let a := e.addr.val
  let now := h.time.ticks
  let h := ((h.mdError m (mdRegion a) a).noteFault m).modHdie m (fun v => { v with mdErrs := now :: v.mdErrs.take 15 })
  match mdRegion a with
  | 0 =>
    match h.slotAt a with
    | some slot => h.mdRowLost m slot e.place
    | none => h
  | 1 => h.mdTraceLost m ((a - 0xF0000000) / 0x1000000) e.place
  | 2 => h.mdTableRepair m ((a - 0xF8000000) / 64)
  | _ => h

/-- The patrol scrub of memory die m, `dt` ticks on: `n` single-bit errors corrected, the uncorrectable ones, and whether a pass
has ended. (DEDUCED: log 142, 143; DESIGN CHOICE: log 144.) -/
def execMdScrub (m : Fin 2) (dt n : Nat) (bad : List MdError) (pass : Bool) (s : State) : Host.Outcome State Fault Refusal :=
  onHubM (fun mb h =>
    if !mb.up || h.die (6 + m) ≠ 3 then h else
    let wait := h.scrubWait pass (vget h.mir.mdFrom m) (h.get Obj.mdScrubPeriod * 3600 * tSec) dt
    let h := (h.waitTicks wait).bumpBy (Obj.hdMdEccCorrected m) n
    let h := h.forEach bad (fun e h => h.mdLost m e)
    if pass then
      ((h.bump (Obj.mdScrubPasses m)).put (Obj.mdLastScrub m) h.stamp).modMir (fun v => { v with mdFrom := vset v.mdFrom m h.time.ticks })
    else h) s

end Sys2Proof.Machine
end

