-- ==== Sys2Proof/Machine/PowerUp.lean ====
section
/-! DEFINITION. Supply, wake-up, the rail, reset and bring-up: what survives a power session, the entry into BOOT, the dies'
bring-up, and the end of BOOT (R67 to R82, R176, R448). -/
namespace Sys2Proof.Machine

/-! ### What survives (R68, R80) -/

/-- Objects whose value stands in NVM. -/
def nvmKey (k : Nat) : Bool :=
  [Obj.bootCount, Obj.brevSelect, Obj.hubId, Obj.fwBootSlot 0, Obj.fwBootSlot 1, Obj.nodeId 0, Obj.nodeId 1, Obj.rolePref,
   Obj.calLastForeground, Obj.configSavedTime].contains k

/-- Objects of a swing core that is PERMANENT, which NVM keeps (R140). -/
def Hub.permanentKey (h : Hub) (k : Nat) : Bool :=
  (List.range 4).any (fun f => h.swingSt f = 4 && [Obj.swingState f, Obj.swingCore f, Obj.retiredCores f,
    Obj.coreCoreStatus (f * 12 + h.get (Obj.swingCore f))].contains k)

/-- The hub with nothing but what NVM keeps and the facts of its supply; `ring` says that the green room keeps its callboard.
(DEDUCED: log 53.) -/
def Hub.cold (h : Hub) (ring : Bool) : Hub :=
  { part := h.part
    objs := h.objs.filter (fun e => nvmKey e.1 || h.permanentKey e.1)
    cb := { ring := if ring then h.cb.ring else [], nvm := h.cb.nvm, lastSeq := h.cb.lastSeq
            waiting := if ring then h.cb.waiting else [] }
    cal := { nvm0 := h.cal.nvm0, nvm1 := h.cal.nvm1, nvmNext := h.cal.nvmNext }
    pow := { h.pow with
      rail := false, lastPower := none, attempts := Vector.replicate 8 0, poweredAt := Vector.replicate 8 none
      running := Vector.replicate 2 0xFF, rstLow := false }
    srv := { saved := h.srv.saved }
    out := h.out
    free := h.free }

/-- Every present die OFF, the others ABSENT (Table 2.9). -/
def Hub.diesOff (h : Hub) : Hub := h.forEach (List.range 8) (fun i h => h.setDie i (b2n (h.part.has i)))

/-- A record takes its place among others, newest EVENT_SEQ first. -/
def insertRec (top : Nat) (r : CbRecord) : List CbRecord → List CbRecord
  | [] => [r]
  | x :: l => if seqAge top r.seq ≤ seqAge top x.seq then r :: x :: l else x :: insertRec top r l

/-- The callboard records not yet in NVM are written to it, but for those of `bad`, whose EVENT_SEQ fails its ECC check (R66, R75,
R80). The NVM ring drops its oldest records, and CB_LOST counts those that the other ring no longer holds (R86). -/
def Hub.flushCb (h : Hub) (bad : List Nat) : Hub :=
  let h := h.keepWaiting
  let goes (r : CbRecord) : Bool := !r.inNvm && !bad.contains r.seq
  let new := (h.cb.ring.filter goes).map (fun (r : CbRecord) => { r with inNvm := true })
  let all := new.foldr (insertRec h.cb.lastSeq) h.cb.nvm
  let gone := (all.drop 16384).filter (fun r => !h.cb.ring.any (fun o => o.seq = r.seq))
  { h with cb := { h.cb with
      ring := h.cb.ring.map (fun r => if goes r then { r with inNvm := true } else r)
      nvm := all.take 16384 } }.bumpBy Obj.cbLost gone.length

/-- The EVENT_SEQ of the ring's records that fail their ECC check, which only the green room knows. (DEDUCED: log 53.) -/
def Hub.ringErrors (h : Hub) : List Nat × Hub :=
  h.cb.ring.foldl (fun (a : List Nat × Hub) r =>
    let d := a.2.drawBool
    (if d.1 then r.seq :: a.1 else a.1, d.2)) ([], h)

/-- The hub dies that hold a role other than OFF, with their roles and causes. (DEDUCED: log 192.) -/
def Hub.rolesHeld (h : Hub) : List (Nat × Nat × Nat) :=
  ([0, 1].filter (fun x => h.role x ≠ 0)).map (fun x => (x, h.role x, h.get (Obj.relinquishCause x)))

/-- ROLE_CHANGE for each role that the entry into BOOT ends (Table 11.2). In CURTAIN-DOWN no die is powered, and the entry into BOOT
from there changes no role. (DEDUCED: log 192.) -/
def Hub.rolesOff (h : Hub) (time : Nat) (l : List (Nat × Nat × Nat)) : Hub :=
  h.forEach l (fun e h => h.logAt time 0x0B01 0 (srcHd e.1) (srcHd e.1 + e.2.1 * 256 + e.2.2 * 65536))

/-- The mode block of a mode entered without a request that is still to be answered. -/
def freshMode (m : Mode) (time cause : Nat) : ModeBlock := { mode := m, entryTime := time, cause := cause }

/-- The LOCAL instant 0. -/
def localZero : Nat := time96 0 2

/-- BOOT begins with the rail: BOOT_COUNT, RESET_CAUSE and the bases (R57, R68, Table 2.7). `bit` is the value of its bit of
RESET_CAUSE. -/
def Hub.startBoot (h : Hub) (bit : Nat) : Hub :=
  let last := h.pow.lastEnd
  let h := ((h.cold false).diesOff.bump Obj.bootCount).put Obj.resetCause (bit + last)
  h.bootBases.modPow (fun p => { p with rail := true, lastEnd := 0, retries := 0, retryDue := false, armed := false })

/-- The wake condition is met: CURTAIN-DOWN to BOOT. -/
def wake (h : Hub) (bit : Nat) : ModeBlock × Hub :=
  let h := h.startBoot bit
  enterAt (freshMode .curtainDown 0 0) h .boot localZero 0x02F1

/-! ### Supply (R69 to R75) -/

/-- VIN_OK rises at first power, on the inputs `a` and `b`: BOOT if WAKE is high, CURTAIN-DOWN otherwise. (DEDUCED: log 19.) -/
def execPowerOn (a b wakeHigh buck0 buck1 : Bool) (s : State) : Host.Outcome State Fault Refusal :=
  onBoth (fun mb h =>
    if mb.mode ≠ .curtainDown || h.pow.vinA || h.pow.vinB || !(a || b) then (mb, h) else
    let h := h.modPow (fun p => { p with vinA := a, vinB := b, armed := true, bucks := b2n buck0 + 2 * b2n buck1 })
    if wakeHigh then wake h 1 else (mb, h)) s

/-- WAKE rises in CURTAIN-DOWN; `long` says that it was low for at least 10 µs (R69). (DEDUCED: log 19.) -/
def execWakeRise (long buck0 buck1 : Bool) (s : State) : Host.Outcome State Fault Refusal :=
  onBoth (fun mb h =>
    if mb.mode ≠ .curtainDown || !(h.pow.vinA || h.pow.vinB) || !(long || h.pow.armed) then (mb, h)
    else wake (h.modPow (fun p => { p with bucks := b2n buck0 + 2 * b2n buck1 })) 2) s

/-- The hub stands in CURTAIN-DOWN, with what NVM keeps. (DEDUCED: log 19.) -/
def curtainDown (h : Hub) (time cause : Nat) : ModeBlock × Hub :=
  (freshMode .curtainDown time cause, ((h.cold false).diesOff).modPow (fun p => { p with armed := false, retryDue := false }))

/-- The 5.0 V rail fails: every die loses power at once, and a retry is due; after the third failed retry CURTAIN-DOWN (R74).
(DESIGN CHOICE: log 18; DEDUCED: log 52.) -/
def execRailFault (s : State) : Host.Outcome State Fault Refusal :=
  onBoth (fun mb h =>
    if !h.pow.rail then (mb, h)
    else if mb.mode = .boot then
      if h.pow.retries ≥ 3 then
        let d := h.drawNat
        curtainDown d.2 localZero (d.1 % 65536)
      else
        let cause := h.get Obj.resetCause
        let low := h.pow.rstLow
        let h := (((h.cold false).diesOff).put Obj.resetCause cause).bootBases
        ({ freshMode .boot localZero mb.cause with latched := mb.latched, latchedRoles := mb.latchedRoles },
          h.modPow (fun p => { p with retryDue := true, rstLow := low }))
    else
      let h := (((h.cold false).diesOff).bump Obj.bootCount).bootBases
      let d := h.drawNat
      (freshMode .boot localZero (d.1 % 65536), d.2.modPow (fun p => { p with retries := 0, retryDue := true, lastEnd := 0 }))) s

/-- 100 ms after the fault the rail is started again, at most three times. (DESIGN CHOICE: log 18; DEDUCED: log 52.) -/
def execRailRetry (s : State) : Host.Outcome State Fault Refusal :=
  onBoth (fun mb h =>
    if mb.mode ≠ .boot || !h.pow.retryDue then (mb, h)
    else
      (mb, ((h.waitTick (100 * tMs)).putBit Obj.resetCause 4 true).modPow (fun p =>
        { p with retries := p.retries + 1, retryDue := false, rail := true }))) s

/-- One supply input is lost; with the other valid nothing else changes but the record. `mv` is its last voltage (R71). -/
def execVinLost (i : Fin 2) (dt mv : Nat) (s : State) : Host.Outcome State Fault Refusal :=
  onHub (fun m h =>
    let ok := if i = 0 then h.pow.vinA else h.pow.vinB
    let other := if i = 0 then h.pow.vinB else h.pow.vinA
    if !ok || (!other && m ≠ .curtainDown) then h else
    let h := h.modPow (fun p => if i = 0 then { p with vinA := false } else { p with vinB := false })
    if m = .curtainDown then h else (h.waitTicks dt).log 0x0209 1 srcPkg (i + mv % 65536 * 65536)) s

/-- A lost input returns while the other is valid. -/
def execVinRestored (i : Fin 2) (dt : Nat) (s : State) : Host.Outcome State Fault Refusal :=
  onHub (fun m h =>
    let ok := if i = 0 then h.pow.vinA else h.pow.vinB
    let other := if i = 0 then h.pow.vinB else h.pow.vinA
    if ok || !other then h else
    let h := h.modPow (fun p => if i = 0 then { p with vinA := true } else { p with vinB := true })
    if m = .curtainDown then h else (h.waitTicks dt).log 0x020A 0 srcPkg i) s

/-- One of two fitted controllers faults: the rail stays in regulation (R73). -/
def execBuckFault (k : Fin 2) (dt : Nat) (s : State) : Host.Outcome State Fault Refusal :=
  onHub (fun m h =>
    if m = .curtainDown || !h.pow.rail || h.pow.bucks ≠ 3 || h.bit Obj.powerStatus (5 + k) then h
    else ((h.waitTicks dt).putBit Obj.powerStatus (5 + k) true).log 0x020C 2 srcPkg k) s

/-! ### RST_N (R80) -/

/-- RST_N has been low for 1 µs: the hub is in BOOT, its powered dies held in reset and its outputs off. (DEDUCED: log 53.) -/
def execRstNLow (dt : Nat) (s : State) : Host.Outcome State Fault Refusal :=
  onBoth (fun mb h =>
    if mb.mode = .curtainDown || h.pow.rstLow then (mb, h) else
    let old := h.waitTicks (dt + tUs)
    let h := ((((old.cold true).diesOff.bump Obj.bootCount).put Obj.resetCause 4).bootBases).modPow (fun p =>
      { p with rail := old.pow.rail, rstLow := true, lastEnd := 0 })
    let h := h.forEach (List.range 8) (fun i h => if old.part.has i && old.die i ≠ 1 then h.setDie i 2 else h)
    ({ freshMode .boot localZero 0x02F2 with latched := some mb.mode, latchedRoles := old.rolesHeld }, h)) s

/-- RST_N rises: the bases restart at 0, the latched entry into BOOT is recorded, the ring's records go to NVM but for those
that fail their ECC check, and the powered dies begin their bring-up. (DEDUCED: log 192.) -/
def execRstNRise (s : State) : Host.Outcome State Fault Refusal :=
  onBoth (fun mb h =>
    if mb.mode ≠ .boot || !h.pow.rstLow then (mb, h) else
    let e := h.ringErrors
    let h := e.2.bootBases.enterWaiting
    let from_ := mb.latched.getD .boot
    let h := h.logAt localZero 0x0201 0 srcPkg (from_.code + Mode.boot.code * 256 + 0x02F2 * 65536)
    let h := (h.rolesOff localZero mb.latchedRoles).flushCb e.1
    let held := (List.range 8).any (fun i => h.die i = 2)
    let h := h.modPow (fun p => { p with rstLow := false, lastPower := if held then some 0 else none })
    let h := h.forEach (List.range 8) (fun i h =>
      if h.die i = 2 then h.modPow (fun p => { p with attempts := vset p.attempts i 1, poweredAt := vset p.poweredAt i (some 0) })
      else h)
    ({ mb with latched := none, latchedRoles := [], entryTime := localZero }, h)) s

/-! ### Bring-up (R77, R78, Table 2.5) -/

/-- The order in which the dies are powered. -/
def bringUpOrder : List Nat := [4, 5, 6, 7, 0, 1, 2, 3]

/-- The next present die is powered: the first once the rail stands, `dt` ticks on, and each later one 2.0 ms after the last. -/
def execDiePowerOn (dt : Nat) (s : State) : Host.Outcome State Fault Refusal :=
  onHubM (fun mb h =>
    if mb.mode ≠ .boot || !h.pow.rail || h.pow.rstLow then h else
    match bringUpOrder.find? (fun i => h.part.has i && h.die i = 1) with
    | none => h
    | some i =>
      let h := match h.pow.lastPower with
        | none => h.waitTicks dt
        | some t => h.waitTick (t + 2 * tMs)
      let now := h.time.ticks
      (h.setDie i 2).modPow (fun p => { p with
        lastPower := some now, attempts := vset p.attempts i 1, poweredAt := vset p.poweredAt i (some now) })) s

/-- The bring-up limit of a die, in ticks (R78). (DESIGN CHOICE: log 31.) -/
def bringUpLimit (i : Nat) : Nat := if i < 4 then 10 * tMs else if i < 6 then 50 * tMs else 30 * tMs

/-- A die has missed its limit: it is tried once more, and the second time it is FAILED: a hub die as FAILED_POWER, since nothing has
been heard of it, a memory or FE die as FAILED_LINK, whose bring-up is that of its links. R78 names no code.
(DESIGN CHOICE: log 179.) -/
def execDieBringupTimeout (i : Fin 8) (s : State) : Host.Outcome State Fault Refusal :=
  onHubM (fun mb h =>
    match vget h.pow.poweredAt i with
    | none => h
    | some t =>
      if mb.mode ≠ .boot || h.pow.rstLow || h.die i ≠ 2 then h else
      let h := h.waitTick (t + bringUpLimit i)
      let now := h.time.ticks
      if vget h.pow.attempts i < 2 then
        h.modPow (fun p => { p with attempts := vset p.attempts i 2, poweredAt := vset p.poweredAt i (some now) })
      else
        let st := if i.val = 4 || i.val = 5 then 4 else 5
        (h.setDie i st).log 0x0203 2 srcPkg (dieSource i + st * 256)) s

/-- Hub die x picks its firmware (R448): the slot of FW_BOOT_SLOT, else the other one, else its loader. FIRMWARE_SLOT_INVALID names
its hub die by number, 0 or 1. (DESIGN CHOICE: log 178.) -/
def Hub.pickFirmware (h : Hub) (x : Nat) : Option Nat × Hub :=
  let b := h.get (Obj.fwBootSlot x)
  let bad (h : Hub) (b : Nat) : Hub := h.log 0x0204 2 (srcHd x) (x + b * 256)
  if h.imageRefusal x b = 0 && (h.fwSlot x b).state ≠ 0 then (some b, h)
  else if h.imageRefusal x (1 - b) = 0 && (h.fwSlot x (1 - b)).state ≠ 0 then (some (1 - b), bad h b)
  else (none, bad (bad h b) (1 - b))

/-- A die has finished its bring-up, `dt` ticks on and within its limit: a hub die with firmware begins to negotiate, one
without stays in its loader. (DEDUCED: log 22; DESIGN CHOICE: log 31.) -/
def execDieBringupComplete (i : Fin 8) (dt : Nat) (s : State) : Host.Outcome State Fault Refusal :=
  onHubM (fun mb h =>
    match vget h.pow.poweredAt i with
    | none => h
    | some t =>
      if mb.mode ≠ .boot || h.pow.rstLow || h.die i ≠ 2 || h.time.ticks + dt > t + bringUpLimit i then h else
      let h := h.waitTicks dt
      if i.val = 4 || i.val = 5 then
        let x := i.val - 4
        let h := h.put Obj.pfwThreshold h.pow.pfw
        let r := h.pickFirmware x
        match r.1 with
        | some b => ((r.2.modPow (fun p => { p with running := vset p.running x b })).setDie i 3).setRole x 1
        | none => (r.2.setDie i 7).modHdie x (fun v => { v with line := true })
      else h.setDie i 3) s

/-! ### The end of BOOT (R57, R176, R201, R449) -/

/-- The stored BREV_SELECT is applied (R21, Table 2.5), and the stored HUB_ID. -/
def Hub.applyStored (h : Hub) : Hub :=
  let v := h.get Obj.brevSelect
  let h := (h.put Obj.hubIdActive (h.get Obj.hubId)).modPow (fun p => { p with
    bootBrev := v, bootSlots := #v[h.get (Obj.fwBootSlot 0), h.get (Obj.fwBootSlot 1)] })
  if v = 0 || h.part.brevSupported.contains v then h.put Obj.brevActive v
  else (h.put Obj.brevActive 0).log 0x0206 2 srcPkg v

/-- The copies of trim records whose check word fails, by hub die and record number: those that the command lists and those that
the NVM shows. -/
def Hub.trimsBad (h : Hub) (bad : List (Nat × Nat)) : List (Nat × Nat) :=
  let wrong (x : Nat) : List (Nat × Nat) :=
    ((h.nvmOf x).filter (fun r => isTrim r.number && r.check ≠ crc32 (r.header ++ r.payload))).map (fun r => (x, r.number))
  bad ++ (wrong 0 ++ wrong 1).filter (fun e => !bad.contains e)

/-- TRIM_CRC_FAILED for each: one bad copy is a WARNING, two an ERROR (Table 2.5). Its field `die` holds 0 for HD0 and 1 for HD1, not
the SOURCE code that other records of Table 2.14 call so by name. (DEDUCED: log 22; DESIGN CHOICE: log 45, 178.) -/
def Hub.trimFailures (h : Hub) (bad : List (Nat × Nat)) : Hub :=
  h.forEach bad (fun e h =>
    let both := bad.contains (0, e.2) && (h.part.simplex || bad.contains (1, e.2))
    h.log 0x0205 (if both then 2 else 1) (srcHd e.1) (e.1 + e.2 % 65536 * 65536))

/-- Every present die has come up or failed, and no hub die still negotiates. (DESIGN CHOICE: log 8.) -/
def Hub.bringUpOver (h : Hub) : Bool :=
  (List.range 8).all (fun i => !h.part.has i || h.die i ≥ 3) && h.role 0 ≠ 1 && h.role 1 ≠ 1

/-- BOOT ends with a Lead: CONFIGURE. (DESIGN CHOICE: log 8, 20.) -/
def bootDone (mb : ModeBlock) (h : Hub) (cfgOk : Bool) (trims : List (Nat × Nat)) : ModeBlock × Hub :=
  let x := h.leadDie
  let us := h.time.ticks / tUs
  let bad := h.trimsBad trims
  let h := ((h.applyStored.trimFailures bad).loadCal bad x).fullSkew
  let h := ((h.restartSource 0 6).restartSource 1 6).put Obj.startupElapsed us
  let h := (h.log 0x0202 0 srcPkg (us % 2 ^ 32 + h.get Obj.bootCount * 2 ^ 32)).modPow (fun p => { p with retries := 0 })
  let r := enterMode mb h .configure 0x0202
  let h := ((r.2.samplingStart.lanesStart r.1).arbsToLead.ptpRefresh.planFigures r.2).refreshDuplex
  let now := h.time.ticks
  let h := (h.modMir (fun v => { v with lead := x })).modSrv (fun v => { v with beatAt := now })
  (r.1, h.configLoad cfgOk)

/-- BOOT ends with a hub die in its loader and none running firmware: SERVICE. -/
def bootLoader (mb : ModeBlock) (h : Hub) : ModeBlock × Hub :=
  let x := if h.die 4 = 7 then 0 else 1
  let h := h.applyStored.put Obj.startupElapsed (h.time.ticks / tUs)
  let now := h.time.ticks
  let h := (h.modMir (fun v => { v with lead := x })).modSrv (fun v => { v with beatAt := now })
  let r := enterMode mb h .service 0x0204
  ({ r.1 with loader := true }, r.2)

/-- Bring-up and role selection are over. `cfgOk` says that the saved configuration's check word holds, `trims` which copies of
trim records fail theirs. Where neither a Lead nor a loader has come about, BOOT is held.
(DEDUCED: log 22; DESIGN CHOICE: log 45.) -/
def execBootComplete (cfgOk : Bool) (trims : List (Nat × Nat)) (s : State) : Host.Outcome State Fault Refusal :=
  onBoth (fun mb h =>
    if mb.mode ≠ .boot || !h.pow.rail || h.pow.rstLow || !h.bringUpOver then (mb, h)
    else if h.role 0 = 2 || h.role 1 = 2 then bootDone mb h cfgOk trims
    else if h.die 4 ≠ 3 && h.die 5 ≠ 3 && (h.die 4 = 7 || h.die 5 = 7) then bootLoader mb h
    else (mb, h)) s

end Sys2Proof.Machine
end

