-- ==== Sys2Proof/Machine/Modes.lean ====
section
/-! DEFINITION. Mode requests and mode transitions, the shutdowns, over-temperature, the watchdog and the self-test (R56 to R66,
R75, R76, R81, R337). -/
namespace Sys2Proof.Machine

/-! ### What a mode request is answered with (R56, R57, R59, R64, R182) -/

/-- A transition is in progress, or the hub is in SHUTDOWN. -/
def ModeBlock.busy (b : ModeBlock) : Bool := b.mode = .shutdown || b.next.isSome

/-- MODE_CUE has passed already (R59, R433). (DEDUCED: log 30.) -/
def Hub.modeCuePassed (h : Hub) : Bool := h.get Obj.modeCue ≠ 0 && uOfTime96 (h.get Obj.modeCue) < h.now 0

/-- A firmware slot or BREV_SELECT change awaits BOOT (R57). -/
def Hub.awaitsBoot (h : Hub) : Bool :=
  h.get Obj.brevSelect ≠ h.pow.bootBrev || (List.range 2).any (fun x => h.get (Obj.fwBootSlot x) ≠ vget h.pow.bootSlots x)

/-- A SAFE cause's condition is present (R64). -/
def SafeConds.any (c : SafeConds) : Bool := c.overTemp || c.soleDie

/-- CAL_REF_DECLARED suits a TRACE calibration (R182). -/
def Hub.calRefBad (h : Hub) : Bool :=
  let v := (h.getI 32 Obj.calRefDeclared).natAbs
  h.get Obj.calKind = 3 && (v < 100000 || v > 9500000)

/-- Table 2.3 lists the request for the current mode, and its conditions other than the house check hold: the abort code.
(DEDUCED: log 30.) -/
def tableRefusal (mb : ModeBlock) (h : Hub) (v : Nat) : Nat :=
  match v with
  | 0 | 1 => if mb.up then 0 else Abort.wrongMode
  | 2 => match mb.mode with
    | .sync | .run | .runSimplex | .hold => 0
    | .service => if mb.loader || h.awaitsBoot then Abort.wrongMode else 0
    | .safe => if mb.conds.any then Abort.causePersists else 0
    | _ => Abort.wrongMode
  | 3 | 9 => if mb.mode = .configure then 0 else Abort.wrongMode
  | 4 => if mb.mode ≠ .configure then Abort.wrongMode else if h.calRefBad then Abort.valueOutOfRange else 0
  | 6 | 7 => if !(mb.mode = .configure || mb.mode = .hold) then Abort.wrongMode
    else if h.modeCuePassed then Abort.cuePointPassed else 0
  | 8 => if !(mb.mode = .run || mb.mode = .runSimplex) then Abort.wrongMode
    else if h.modeCuePassed then Abort.cuePointPassed else 0
  | 10 => if canSafe mb.mode then 0 else Abort.wrongMode
  | _ => Abort.wrongMode

/-- The request loses to a SAFE cause or a role change of its own instant, HOLD to a SAFE cause alone (R65).
(DEDUCED: log 180.) -/
def ModeBlock.beaten (b : ModeBlock) (now v : Nat) : Bool :=
  b.rival = 2 || b.wonAt = some (now, true) || ((b.rival = 1 || b.wonAt = some (now, false)) && v ≠ 8)

/-- Why a mode request is refused, 0 when it is accepted, and the hub with what a house check has left. A request that takes effect
at the instant of a SAFE cause or a role change loses to it, but for HOLD (R65). (DEDUCED: log 30, 180.) -/
def modeRefusal (mb : ModeBlock) (h : Hub) (v : Nat) : Nat × Hub :=
  if mb.busy || mb.beaten h.time.ticks v then (Abort.busy, h)
  else
    let c := tableRefusal mb h v
    if c ≠ 0 then (c, h) else if v = 6 || v = 7 then h.checkPlan h else (0, h)

/-! ### Accepted requests -/

/-- The cue of an entry into HOLD or an exit from it (R59). -/
def Hub.holdCue (h : Hub) : Nat :=
  if h.get Obj.modeCue ≠ 0 then uOfTime96 (h.get Obj.modeCue) else ceilDiv (h.now 0 + uMs) uGrid * uGrid

/-- RUN or RUN-SIMPLEX, by the roles held (R58). -/
def Hub.runMode (h : Hub) : Mode := if carries (h.role 0) && carries (h.role 1) then .run else .runSimplex

/-- Streams, sequencer and captures close at boundary `u`; the queues drain for 20 ms from then (R66 steps 1 and 3). -/
def Hub.closeMeasurement (h : Hub) (u : Nat) : Hub :=
  ((h.seqStop).forEach (List.range 16) (fun s h => h.slotClose s u)).streamsStop

/-- What an orderly way out of a mode stops besides (R66, R140, R184, R337, R411). -/
def Hub.leaveMode (h : Hub) (m : Mode) : Hub :=
  match m with
  | .calibrate => h.calInterrupt
  | .selfTest => h.selfTestStop.lanesSelfTestEnd
  | .service => h.loopsEnd
  | _ => h

/-- RUN, RUN-SIMPLEX, HOLD or SAFE to CONFIGURE, at the next raw-frame boundary. (DEDUCED: log 29.) -/
def toConfigure (mb : ModeBlock) (h : Hub) : ModeBlock × Hub :=
  let h := h.waitBoundaryTick
  let u := h.now 0
  let wasOut := mb.drives || mb.streams
  let h := if wasOut then h.closeMeasurement u else h
  let h := if mb.drives then h.outputsStop u else h
  let still := mb.mode = .service || (mb.mode = .safe && (mb.safeFrom = .selfTest || mb.safeFrom = .service))
  let h := if mb.mode = .service then h.loopsEnd else h
  let drain := h.time.ticks + 20 * tMs
  let r := enterMode mb h .configure 0
  ({ r.1 with drainAt := if wasOut then some drain else mb.drainAt }, if still then r.2.samplingStart else r.2)

/-- The entry into SHUTDOWN by request (R66): steps 1 to 3 begin at the next raw-frame boundary. (DEDUCED: log 29.) -/
def startShutdown (mb : ModeBlock) (h : Hub) (kind : ShutKind) : ModeBlock × Hub :=
  let h := h.waitBoundaryTick
  let u := h.now 0
  let h := ((((h.closeMeasurement u).outputsStop u).leaveMode mb.mode).swingStop).commitDiscard
  let drain := h.time.ticks + 20 * tMs
  let r := enterMode mb h .shutdown 0
  ({ r.1 with shut := kind, drainAt := some drain }, r.2.samplingStop)

/-- The request for RUN: SYNC from CONFIGURE, a run cue from HOLD. -/
def acceptRun (mb : ModeBlock) (h : Hub) : ModeBlock × Hub :=
  if mb.mode = .hold then ({ mb with next := some .run, cue := some h.holdCue }, h)
  else
    let r := enterMode mb h .sync 0
    let h := r.2.fullSkew
    syncCue { r.1 with syncTick := h.time.ticks } h

/-- The request for SELF-TEST: sampling stops and every present die begins its tests. -/
def acceptSelfTest (mb : ModeBlock) (h : Hub) : ModeBlock × Hub :=
  let h := ((h.swingStop).samplingStop).lanesSelfTest
  let h := (h.forEach (List.range 8) (fun i h => h.put (Obj.selfTest i) 0)).put Obj.bistTime h.stamp
  enterMode mb h .selfTest 0

/-- A mode request that has been accepted. -/
def acceptMode (mb : ModeBlock) (h : Hub) (v : Nat) : ModeBlock × Hub :=
  match v with
  | 0 => startShutdown mb h .orderlyDown
  | 1 => startShutdown mb h .orderlyBoot
  | 2 => if mb.mode = .sync then enterMode mb h .configure 0 else toConfigure mb h
  | 3 => acceptSelfTest mb h
  | 4 =>
    let r := enterMode mb h .calibrate 0
    (r.1, r.2.fullSkew.calStart)
  | 6 => acceptRun mb h
  | 7 => acceptRun mb h
  | 8 => ({ mb with next := some .hold, cue := some h.holdCue }, h)
  | 9 => enterMode mb ((h.swingStop).samplingStop) .service 0
  | 10 => toSafe mb h 0 0
  | _ => (mb, h)

/-! ### Run start and HOLD (R57, R60, R61) -/

/-- SYNC_TIMEOUT has passed in SYNC without lock. -/
def execSyncTimeout (s : State) : Host.Outcome State Fault Refusal :=
  onBoth (fun mb h =>
    if mb.mode ≠ .sync || mb.cue.isSome then (mb, h) else
    let h := h.waitTick (mb.syncTick + h.get Obj.syncTimeout * tSec)
    let waited := (h.time.ticks - mb.syncTick) / tSec
    enterMode mb (h.log 0x0207 2 srcPkg (waited % 2 ^ 32)) .configure 0x0207) s

/-- Everything that starts at the run cue `u` (R60). -/
def Hub.runStart (h : Hub) (u : Nat) : Hub :=
  let h := h.resetChannels h.chList (u / uGrid) 0 true
  (((((((h.excStart u).flStart u).loopsStart u).patsStart).seqStart).slotsStart u).streamsStart u)

/-- The run cue is reached: the run starts if the lock level holds, otherwise the hub goes on waiting for it. -/
def execRunStart (s : State) : Host.Outcome State Fault Refusal :=
  onBoth (fun mb h =>
    match mb.cue with
    | none => (mb, h)
    | some u =>
      if mb.mode ≠ .sync then (mb, h) else
      let h := h.waitFor 0 u
      if !h.lockLevel then ({ mb with cue := none }, h)
      else enterAt mb (h.runStart u) h.runMode (time96 u 0) 0x02F4) s

/-- The HOLD cue is reached: streams close their frames and the sequencer freezes. -/
def execHoldEntry (s : State) : Host.Outcome State Fault Refusal :=
  onBoth (fun mb h =>
    match mb.cue with
    | none => (mb, h)
    | some u =>
      if !(mb.mode = .run || mb.mode = .runSimplex) || mb.next ≠ some .hold then (mb, h) else
      let h := h.waitFor 0 u
      enterAt mb (h.streamsHold.seqFreeze) .hold (time96 u 0) 0x02F4) s

/-- The run cue of an exit from HOLD is reached: streams and sequencer resume, and no channel is reset. -/
def execHoldExit (s : State) : Host.Outcome State Fault Refusal :=
  onBoth (fun mb h =>
    match mb.cue with
    | none => (mb, h)
    | some u =>
      if mb.mode ≠ .hold || mb.next ≠ some .run then (mb, h) else
      let h := h.waitFor 0 u
      enterAt mb ((h.streamsResume u).seqResume) h.runMode (time96 u 0) 0x02F4) s

/-! ### Temperature (R62, R64, R76) -/

/-- TJ_MAX is reported at `tj` on die `i`, `dt` ticks on: at or above OT_WARN_THRESHOLD OT_WARN is set and logged; below it the
over-temperature condition ends; from 125.0 °C on the hub enters SAFE. -/
def execOverTempWarning (i : Fin 8) (dt : Nat) (tj : Int) (s : State) : Host.Outcome State Fault Refusal :=
  onBoth (fun mb h => if !mb.up then (mb, h) else warmTo mb (h.waitTicks dt) i tj) s

/-- TJ_MAX reaches 125.0 °C on die `i`: SAFE with cause OVER_TEMP. -/
def execOverTempSafe (i : Fin 8) (dt : Nat) (tj : Int) (s : State) : Host.Outcome State Fault Refusal :=
  onBoth (fun mb h => if !mb.up || tj < 1250 then (mb, h) else warmTo mb (h.waitTicks dt) i tj) s

/-! ### Shutdown (R66, R75) -/

/-- The frames of die x's queue that nothing will send any more. (DESIGN CHOICE: log 23.) -/
def Hub.emptyQueue (h : Hub) (x : Nat) : Hub := (h.modQueue x (fun q => { q with packets := [] })).put (Obj.gapsPending x) 0

/-- An emergency shutdown begins with its cause (R75): outputs off, streams and captures stop where they stand, queued frames are
discarded. R75 has outputs turn off; a control output stands at its SAFE_LEVEL then, as everywhere that outputs are off
(Table 2.2, R276). The record of the cause names in its bits [47:32] the code of a foreground calibration that it interrupts
(Table 6.5). (DESIGN CHOICE: log 23, 189.) -/
def startEmergency (mb : ModeBlock) (h : Hub) (code param : Nat) : ModeBlock × Hub :=
  let cal := if h.get Obj.calStep = 0 then 0 else Abort.calInterrupted
  let u := h.now 0
  let h := (h.log code 3 srcPkg (param + cal * 2 ^ 32)).calDrop
  let h := (((h.leaveMode mb.mode).outputsOff u).seqStop.commitDiscard).swingStop
  let h := h.forEach (List.range 16) (fun s h => h.slotClose s u)
  let h := (h.forEach (List.range 64) (fun q h => h.put (Obj.stStatus q) 0)).samplingStop
  let h := (h.emptyQueue 0).emptyQueue 1
  let h := { h with lanes := h.lanes.map (fun (v : LaneSt) => { v with frameNow := none }) }
  let r := enterMode mb h .shutdown code
  ({ r.1 with shut := .emergency, drainAt := none }, r.2)

/-- An emergency shutdown can begin: not in CURTAIN-DOWN, and not while one runs. -/
def ModeBlock.canTrip (mb : ModeBlock) : Bool := mb.mode ≠ .curtainDown && !(mb.mode = .shutdown && mb.shut = .emergency)

/-- A die reaches 135 °C: TJ_MAX and the bits that follow it show that (R76). -/
def execThermalTrip (i : Fin 8) (dt : Nat) (s : State) : Host.Outcome State Fault Refusal :=
  onBoth (fun mb h =>
    if !mb.canTrip then (mb, h) else startEmergency mb ((h.waitTicks dt).reportTj i 1350) 0x020F (dieSource i)) s

/-- The OR output has stayed at `mv` for 5 µs: below PFW_THRESHOLD the power-fail warning is active (R72). -/
def execPowerFailWarning (dt mv : Nat) (s : State) : Host.Outcome State Fault Refusal :=
  onBoth (fun mb h =>
    if !mb.canTrip || mv ≥ h.get Obj.pfwThreshold then (mb, h)
    else startEmergency mb ((h.waitTicks dt).putBit Obj.powerStatus 2 true) 0x020B (mv % 65536)) s

/-- Unsent frames are discarded, and their count is logged (R66 step 3). -/
def Hub.discardQueues (h : Hub) : Hub :=
  let n := (h.queue h.leadDie).packets.length
  let h := (h.emptyQueue 0).emptyQueue 1
  if n = 0 then h else h.log 0x0211 2 srcPkg n

/-- The 20 ms of R66 step 3 have passed. -/
def execQueueDiscard (s : State) : Host.Outcome State Fault Refusal :=
  onBoth (fun mb h =>
    match mb.drainAt with
    | none => (mb, h)
    | some t => ({ mb with drainAt := none }, (h.waitTick t).discardQueues)) s

/-- The dies of the hub power down together with their lanes; the records not yet in NVM are written first (R75).
(DESIGN CHOICE: log 24.) -/
def Hub.powerDown (h : Hub) : Hub := ((h.flushCb []).lanesStop 0).lanesStop 1

/-- A die powers down, a hub die with its lanes. -/
def Hub.dieDown (h : Hub) (i : Nat) : Hub :=
  (h.when (i = 4 || i = 5) (fun h => h.lanesStop (i - 4))).setDie i 1

/-- The dies power down in the order of R66 step 5, 1 ms apart, absent ones and those already off skipped. -/
def Hub.diesDown (h : Hub) : Hub :=
  match [3, 2, 1, 0, 7, 6, 5, 4].filter (fun i => h.die i ≥ 2) with
  | [] => h
  | i :: r => (h.dieDown i).forEach r (fun j h => (h.waitTicks tMs).dieDown j)

/-- The orderly steps are complete, `dt` ticks on: BOOT or CURTAIN-DOWN. `bad` lists the calibration records whose NVM write
failed (R175); under the loader no record has been loaded, and none is written. (DESIGN CHOICE: log 24; DEDUCED: log 51.) -/
def execShutdownDone (dt : Nat) (bad : List (Nat × Nat)) (s : State) : Host.Outcome State Fault Refusal :=
  onBoth (fun mb h =>
    if mb.mode ≠ .shutdown || mb.shut = .emergency then (mb, h) else
    let h := match mb.drainAt with
      | some t => (h.waitTick t).discardQueues
      | none => h
    let h := (h.waitTicks dt).when (!mb.loader) (·.writeAll bad false)
    let into := if mb.shut = .orderlyBoot then Mode.boot else .curtainDown
    let time := h.stamp
    let h := h.log 0x0201 0 srcPkg (mb.mode.code + into.code * 256 + 0x02F5 * 65536)
    let h := ((h.when (mb.shut = .orderlyBoot) (fun h => h.rolesOff h.stamp h.rolesHeld)).flushCb []).diesDown
    if mb.shut = .orderlyBoot then (freshMode .boot localZero 0x02F5, h.startBoot 8) else curtainDown h time 0x02F5) s

/-- The emergency steps are complete: CURTAIN-DOWN. (DESIGN CHOICE: log 24.) -/
def execEmergencyDone (dt : Nat) (s : State) : Host.Outcome State Fault Refusal :=
  onBoth (fun mb h =>
    if mb.mode ≠ .shutdown || mb.shut ≠ .emergency then (mb, h) else
    let h := h.waitTicks dt
    let last := if mb.cause = 0x020F then 64 else 32
    let time := h.stamp
    let h := (h.log 0x0201 0 srcPkg (mb.mode.code + 0x02F6 * 65536)).powerDown
    curtainDown (h.modPow (fun p => { p with lastEnd := last })) time 0x02F6) s

/-! ### The watchdog (R81) -/

/-- Hub die x's house processor has not been serviced for 50 ms: it restarts, and a duplex part's die gives up its role. -/
def execWatchdogTimeout (x : Fin 2) (dt : Nat) (s : State) : Host.Outcome State Fault Refusal :=
  onBoth (fun mb h =>
    if !mb.up || h.die (4 + x) ≠ 3 || (h.hdie x).restarting then (mb, h) else
    let h := ((h.waitTicks dt).bump (Obj.hdWatchdogRestarts x)).modHdie x (fun d => { d with restarting := true })
    selfFault mb h x causeWatchdog) s

/-! ### The self-test (R337, R341) -/

/-- The result word of a die whose failed tests are `l`. -/
def bistWord (l : List Nat) : Nat :=
  match l with
  | [] => 3
  | c :: _ => 1 + min l.length 255 * 256 + c % 65536 * 65536

/-- The results of die `i`, whose failed tests are `l`: one BIST_FAILED for each. -/
def Hub.bistResult (h : Hub) (i : Nat) (l : List Nat) : Hub :=
  let h := h.put (Obj.selfTest i) (bistWord l)
  let h := h.forEach l (fun c h => h.log 0x0B09 2 srcPkg (dieSource i + c % 65536 * 256))
  if l.isEmpty then h else (h.when (i < 4) (·.ctlDead i)).setDie i 6

/-- FIELD_FAULT of a hub die's green-room banks after its BIST: which column failed, and whether one did, the failed test does
not say (Table 15.9). (DESIGN CHOICE: log 13.) -/
def Hub.bistBanks (h : Hub) (x : Nat) (failed : Bool) : Hub :=
  h.forEach (List.range 8) (fun b h =>
    let d := if failed then h.drawBool else (false, h)
    d.2.putBit (Obj.bankRepair x b) 16 d.1)

/-- The hub dies that the self-test takes the role from: failed themselves, with a failed memory die, or not reached by the
peer (`cut`). (DEDUCED: log 25; DESIGN CHOICE: log 27.) -/
def bistRoles (mb : ModeBlock) (h : Hub) (fails : List (Nat × Nat)) (cut : Nat) : ModeBlock × Hub :=
  (List.range 2).foldl (fun r x =>
    if fails.any (fun e => e.1 = 4 + x) then selfFault r.1 r.2 x causeBist
    else if fails.any (fun e => e.1 = 6 + x) then selfFault r.1 r.2 x causeMdFailed
    else if cut = x then selfFault r.1 r.2 x causePeerLink
    else r) (mb, h)

/-- All tests are finished, `dt` ticks on: `fails` lists each failed test by die and code, `cut` the hub die (0 or 1) that its
peer's result shows it cannot reach. (DEDUCED: log 25.) -/
def execSelfTestDone (dt : Nat) (fails : List (Nat × Nat)) (cut : Fin 3) (s : State) : Host.Outcome State Fault Refusal :=
  onBoth (fun mb h =>
    if mb.mode ≠ .selfTest then (mb, h) else
    let h := h.waitTicks dt
    let tested := (List.range 8).filter (fun i => h.part.has i && h.die i = 3)
    let fails := fails.filter (fun e => tested.contains e.1)
    let h := h.forEach tested (fun i h => h.bistResult i ((fails.filter (fun e => e.1 = i)).map (·.2)))
    let h := h.forEach ([0, 1].filter (fun x => tested.contains (4 + x))) (fun x h => h.bistBanks x (fails.any (fun e => e.1 = 4 + x)))
    let r := enterMode mb h.lanesSelfTestEnd .configure 0x02F3
    bistRoles r.1 r.2.samplingStart fails cut) s

end Sys2Proof.Machine
end

