-- ==== Sys2Proof/Machine/Acts.lean ====
section
/-! DEFINITION. What an accepted write does, object by object: each act has the refusals that its chapter adds to R423 and the
effect of the write (R425, R426, R447, R449). -/
namespace Sys2Proof.Machine

/-- A write that the checks of R423 let through: its own refusal, with what the test leaves; the effect; whether it is acted on
when it is accepted rather than at a raw-frame boundary (Table 14.3); whether the value is stored in NVM before the response; and
where the response is held (0 nowhere, 1 until the hand-over, 2 + l until lane l's far end has answered, 32 + l until loop l's next
cycle, to which the write itself waits, 64 until ARRAY is set). -/
structure Act where
  refuse : ModeBlock → Hub → Nat × Hub := fun _ h => (0, h)
  apply : ModeBlock → Hub → ModeBlock × Hub
  now : Bool := false
  stored : Bool := false
  held : ModeBlock → Hub → Nat := fun _ _ => 0

/-- The hub when the act takes effect: at once, or at the raw-frame boundary that follows the write's arrival (R40). -/
def Act.at_ (act : Act) (mb : ModeBlock) (h : Hub) : Hub := if act.now || act.held mb h ≥ 32 then h else h.waitBoundary

/-- A refusal that leaves the hub unchanged. -/
def plainly (f : ModeBlock → Hub → Nat) (mb : ModeBlock) (h : Hub) : Nat × Hub := (f mb h, h)

/-- An effect on the hub alone. -/
def hubOnly (f : ModeBlock → Hub → Hub) (mb : ModeBlock) (h : Hub) : ModeBlock × Hub := (mb, f mb h)

/-! ### Values in force and staged values -/

/-- An RW-live or RW-stopped object: the value comes into force with what it brings about. -/
def actStore (k v : Nat) : Act :=
  { apply := fun mb h => keyEffect mb h (h.put k v) k, now := decide (k = Obj.pfwThreshold), stored := storedKey k }

/-- NODE_ID of a CAN port: it applies after the response (Table 14.13). -/
def actNode (k v : Nat) : Act :=
  { apply := fun mb h => keyEffect mb h ((h.modSrv (fun s => { s with nodes := some (h.nodeOf 0, h.nodeOf 1) })).put k v) k
    stored := true }

/-- An RW-cue object: the value is staged. -/
def actStage (k len v : Nat) : Act :=
  { refuse := plainly (fun _ h => (h.stageValue k len v).1), apply := hubOnly (fun _ h => (h.stageValue k len v).2), now := true }

/-- INSTANT, PERIOD or COUNT of a time cue (R221, R371). -/
def actCue (c k v : Nat) : Act := { apply := hubOnly (fun _ h => ((h.put k v).rearmCue c).cueFigures c) }

/-- ARM of a time cue (R221). -/
def actCueArm (c v : Nat) : Act := { apply := hubOnly (fun _ h => (h.put (Obj.cueArm c) v).applyCueArm c v) }

/-- An RW-live object of loop l: in force, and answered, at the start of the loop's next cycle where it has one (R40, R264). -/
def actLoop (refuse : Hub → Nat) (l k v : Nat) : Act :=
  { refuse := plainly (fun _ h => refuse h), apply := hubOnly (fun mb h => h.loopPut mb l k v)
    held := fun mb h => if h.loopCycles mb l then 32 + l else 0 }

/-- LOOP_MODE (R276). -/
def actLoopMode (l m : Nat) : Act := actLoop (fun h => h.loopModeRefusal l m) l (Obj.loopLoopMode l) m

/-- MANUAL_OUTPUT (R276). -/
def actManual (l v : Nat) : Act := actLoop (fun h => h.manualRefusal l v) l (Obj.loopManualOutput l) v

/-- TUNE_BASE (R276). -/
def actTuneBase (l v : Nat) : Act := actLoop (fun h => h.tuneBaseRefusal l v) l (Obj.loopTuneBase l) v

/-- TARGET of generator l (R275). -/
def actTarget (l v : Nat) : Act := actLoop (fun _ => 0) l (Obj.genTarget l) v

/-- A test with a mark that it leaves where it lets the write through: the tick of its arrival (R370). -/
def stamping (f : Hub → Nat) (mark : Nat → Hub → Hub) (_ : ModeBlock) (h : Hub) : Nat × Hub :=
  if f h = 0 then (0, mark h.time.ticks h) else (f h, h)

/-- HOST_LEVEL (R280, R370). -/
def actHostLevel (o v : Nat) : Act :=
  { refuse := stamping (fun h => h.hostLevelRefusal o) (fun t h => h.modCtl o (fun v => { v with hostAt := some t }))
    apply := hubOnly (fun mb h => (h.put (Obj.ctlHostLevel o) v).applyHostLevel mb o) }

/-- LOOPBACK (R411). A write while a FLOOP_REQ is unanswered is turned away. (DEDUCED: log 74.) -/
def actLoopback (l v : Nat) : Act :=
  { refuse := plainly (fun mb h =>
      if v ≠ 0 && mb.mode ≠ .service then Abort.wrongMode
      else if v = 3 && !h.laneActive l then Abort.laneNotActive
      else if (h.lane l).floopSent.isSome then Abort.busy else 0)
    apply := hubOnly (fun mb h =>
      if v = 3 then
        let now := h.time.ticks
        (h.modLane l (fun s => { s with floopSent := some now })).sendMsg l 0x50 [1]
      else (h.put (Obj.laneLoopback l) v).loopbackEffect mb l)
    held := fun _ _ => if v = 3 then 2 + l else 0 }

/-- FW_TARGET_SLOT: a slot from which a hub die runs is refused (R447 step 1). -/
def Hub.slotRuns (h : Hub) (b : Nat) : Bool := h.part.hubDies.any (fun x => vget h.pow.running x = b)
def actFwTarget (v : Nat) : Act :=
  { refuse := plainly (fun _ h => if h.slotRuns v then Abort.fwSlotInUse else 0)
    apply := hubOnly (fun _ h => h.put Obj.fwTargetSlot v) }

/-! ### Write-only objects -/

/-- MODE_REQUEST (Table 2.3). -/
def actMode (v : Nat) : Act := { refuse := fun mb h => modeRefusal mb h v, apply := fun mb h => acceptMode mb h v, now := true }

/-- STAGE_CLEAR (R430). -/
def actStageClear : Act :=
  { refuse := plainly (fun _ h => if h.commitPending then Abort.commitPending else 0), apply := hubOnly (fun _ h => h.setStaging []) }

/-- CONFIG_SAVE 1 (R449). (DESIGN CHOICE: log 67.) -/
def actConfigSave : Act :=
  { refuse := plainly (fun mb h =>
      if mb.mode ≠ .configure then Abort.wrongMode else if h.configTooLarge then Abort.valueOutOfRange else 0)
    apply := hubOnly (fun _ h => h.configStore), stored := true }

/-- CONFIG_SAVE 2 (R449). (DESIGN CHOICE: log 67.) -/
def actConfigErase : Act := { apply := hubOnly (fun _ h => h.modSrv (fun v => { v with saved := none })), stored := true }

/-- The firmware slot in hand is one from which no hub die runs. -/
def Hub.fwBusy (h : Hub) : Nat := if h.slotRuns (h.get Obj.fwTargetSlot) then Abort.fwSlotInUse else 0

/-- FW_ERASE: both hub dies erase the slot (R447 step 2). (DEDUCED: log 72.) -/
def actFwErase : Act :=
  { refuse := plainly (fun _ h => h.fwBusy)
    apply := hubOnly (fun _ h =>
      (h.forEach h.part.hubDies (fun x h => h.modSlotFw x (h.get Obj.fwTargetSlot) (fun _ => {}))).put Obj.fwOffset 0)
    stored := true }

/-- FW_DATA: a block at FW_OFFSET of both dies' slots (R447 step 3). (DEDUCED: log 72.) -/
def actFwData (b : List Nat) : Act :=
  { refuse := plainly (fun _ h =>
      if h.fwBusy ≠ 0 then h.fwBusy
      else if h.get Obj.fwOffset + b.length > 3 * 1024 * 1024 then Abort.valueOutOfRange else 0)
    apply := hubOnly (fun _ h =>
      let o := h.get Obj.fwOffset
      (h.forEach h.part.hubDies (fun x h => h.modSlotFw x (h.get Obj.fwTargetSlot) (fun f =>
        { f with state := 1, factory := false, blocks := (o, b) :: f.blocks }))).put Obj.fwOffset (o + b.length))
    stored := true }

/-- The first check that die x's copy of slot b fails; an erased slot holds no image. (DEDUCED: log 72.) -/
def Hub.fwCheck (h : Hub) (x b : Nat) : Nat := if (h.fwSlot x b).state = 0 then Abort.fwImageInvalid else h.imageRefusal x b

/-- FW_VERIFY: each die checks its copy and logs its outcome; the slot becomes VALID on both dies, or INVALID (R447 step 4). The
code of a failure is that of the lower die. (DEDUCED: log 72, 73.) -/
def Hub.fwVerify (h : Hub) : Nat × Hub :=
  let b := h.get Obj.fwTargetSlot
  let codes := h.part.hubDies.map (fun x => h.fwCheck x b)
  let code := (codes.find? (· ≠ 0)).getD 0
  let g := h.forEach h.part.hubDies (fun x h =>
    let c := h.fwCheck x b
    let v := if (h.fwSlot x b).factory then (h.fwSlot x b).version else (h.fwSlot x b).imageVersion x b
    if c = 0 then h.log 0x0E05 0 (srcHd x) (srcHd x + b * 256 + v * 65536)
    else h.log 0x0E06 2 (srcHd x) (srcHd x + b * 256 + c * 65536))
  (code, g.forEach h.part.hubDies (fun x h => h.modSlotFw x b (fun f =>
    { f with state := if code = 0 then 2 else 3, version := if f.factory then f.version else f.imageVersion x b })))

/-- The act of FW_VERIFY: a failure leaves the slot INVALID. -/
def actFwVerify : Act := { refuse := fun _ h => h.fwVerify, apply := hubOnly (fun _ h => h) }

/-- FAULT_CLEAR of an excitation driver (R104). -/
def actExcFaultClear (d : Nat) : Act := { apply := hubOnly (fun _ h => h.applyExcFaultClear d) }

/-- SWING_REQUEST (R140). -/
def actSwing (f v : Nat) : Act :=
  { refuse := plainly (fun mb h => h.swingRefusal mb.mode f v), apply := hubOnly (fun _ h => h.applySwingRequest f v) }

/-- INJ_SOFT_START (R132, R370). -/
def actInjSoftStart (k : Nat) : Act :=
  { refuse := stamping (fun h => if within1ms h (h.core k).softAt then Abort.busy else 0)
      (fun t h => h.modCore k (fun v => { v with softAt := some t }))
    apply := hubOnly (fun mb h => h.applyInjSoftStart mb k) }

/-- RESYNC_REQUEST (R157). -/
def actResync (v : Nat) : Act :=
  { refuse := plainly (fun mb h => h.resyncRefusal mb v), apply := hubOnly (fun _ h => h.applyResync v) }

/-- CAL_CANCEL (R184). -/
def actCalCancel : Act := { apply := applyCalCancel }

/-- CAL_RECORD_IMPORT (R188). -/
def actImport (b : List Nat) : Act :=
  { refuse := plainly (fun mb h => h.importRefusal mb.mode b), apply := hubOnly (fun _ h => h.applyImport b) }

/-- The modes in which ARRAY takes a SET and a JUMP_ACCEPT (R203, R225). -/
def Mode.arraySteps : Mode → Bool
  | .configure | .sync | .service => true
  | _ => false

/-- JUMP_ACCEPT (R203). -/
def actJumpAccept (b : Nat) : Act :=
  { refuse := plainly (fun mb _ => if b = 0 && !mb.mode.arraySteps then Abort.wrongMode else 0)
    apply := hubOnly (fun _ h => h.applyJumpAccept b)
    now := true }

/-- SET of a time base (R225). -/
def actSet (b w : Nat) : Act :=
  { refuse := plainly (fun mb h =>
      if b = 3 then 0
      else if b = 2 || h.get (Obj.tbSource b) ≠ 0 || (b = 0 && !mb.mode.arraySteps) then Abort.wrongMode else 0)
    apply := hubOnly (fun mb h => h.applySet mb b w)
    now := true
    held := fun mb h => if h.setWaits mb b then 64 else 0 }

/-- INCREMENT of HOST: in force from the raw-frame boundary on that the Lead can name to both dies (R198, R225). -/
def actIncrement (v : Nat) : Act :=
  { apply := fun mb h => keyEffect mb h.waitLead.waitBoundary (h.waitLead.waitBoundary.put (Obj.tbIncrement 3) v) (Obj.tbIncrement 3)
    now := true }

/-- TOD_NEXT (R207). -/
def actTodNext (w : Nat) : Act := { apply := hubOnly (fun _ h => h.applyTodNext w) }

/-- SOFT_TRIGGER, FIRE_INJECT and ARM_INJECT (R232, R245). -/
def actSoftTrigger (v : Nat) : Act := { apply := hubOnly (fun _ h => h.applySoftTrigger v) }
def actFireInject (v : Nat) : Act := { apply := hubOnly (fun mb h => h.applyFireInject mb v) }
def actArmInject (v : Nat) : Act := { apply := hubOnly (fun mb h => h.applyArmInject mb v) }

/-- RELEASE and READOUT_START of a slot (R253, R258). -/
def actRelease (n : Nat) : Act :=
  { refuse := plainly (fun _ h => h.slotWriteRefusal n), apply := hubOnly (fun _ h => h.applyRelease n) }
def actReadout (n : Nat) : Act :=
  { refuse := plainly (fun _ h => h.slotWriteRefusal n), apply := hubOnly (fun _ h => h.applyReadoutStart n) }

/-- FAULT_CLEAR of a control output (R281) and of a string (R296). -/
def actCtlFaultClear (o : Nat) : Act := { apply := hubOnly (fun _ h => h.applyCtlFaultClear o) }
def actFlFaultClear (n : Nat) : Act := { apply := hubOnly (fun mb h => h.applyFlFaultClear mb.drives n) }

/-- INJ_GO (R282) and TRACE_GO (R285). -/
def actInjGo (l : Nat) : Act := { apply := hubOnly (fun _ h => h.applyInjGo l) }
def actTraceGo (b v : Nat) : Act := { apply := hubOnly (fun _ h => h.applyTraceGo b v) }

/-- ENG_GO (R310). -/
def actEngGo (g v : Nat) : Act :=
  { refuse := plainly (fun mb _ => if mb.drives then 0 else Abort.wrongMode), apply := hubOnly (fun _ h => h.applyEngGo g v) }

/-- READMIT_REQUEST (R332) and ROLE_SWAP_REQUEST (R333). -/
def actReadmit : Act := { refuse := plainly (fun _ h => h.readmitRefusal), apply := hubOnly (fun _ h => h.applyReadmit) }
/-- ROLE_SWAP_REQUEST: the Lead hands over with cause HOST_REQUEST (R333). (DEDUCED: log 74.) -/
def actRoleSwap : Act :=
  { refuse := plainly (fun _ h => h.swapRefusal), apply := hubOnly (fun _ h => h.beginHandover causeHostRequest true)
    held := fun _ _ => 1 }

/-- QUEUE_FLUSH of hub die x (R381). -/
def actFlush (x : Nat) : Act := { apply := hubOnly (fun _ h => h.flushQueue x 0) }

/-- RETRAIN (R392): only an ACTIVE lane. -/
def actRetrain (l : Nat) : Act :=
  { refuse := plainly (fun _ h => if h.get (Obj.laneState l) = 5 then 0 else Abort.laneNotActive)
    apply := hubOnly (fun _ h => h.applyRetrain l) }

/-- GR_COUNTERS_CLEAR (R467). -/
def actGrClear : Act :=
  { apply := hubOnly (fun _ h => h.forEach [0, 1] (fun x h =>
      (h.forEach (List.range 7) (fun i h => h.put (Obj.conflicts x i) 0)).put (Obj.rotateSplits x) 0)) }

/-! ### The act of a key -/

/-- The act of a write-only object. -/
def actWo (k v : Nat) (b : List Nat) : Act :=
  let i := k / 256
  let s := k % 256
  if k = Obj.modeRequest then actMode v
  else if k = Obj.stageClear then actStageClear
  else if k = Obj.configSave then (if v = 1 then actConfigSave else actConfigErase)
  else if k = Obj.fwErase then actFwErase
  else if k = Obj.fwData then actFwData b
  else if k = Obj.fwVerify then actFwVerify
  else if 0x3040 ≤ i && i < 0x30A0 then actExcFaultClear (i - 0x3040)
  else if i = 0x3104 then actSwing (s - 1) v
  else if 0x3140 ≤ i && i < 0x3170 then actInjSoftStart (i - 0x3140)
  else if i = 0x3203 then actResync v
  else if i = 0x3304 then actCalCancel
  else if i = 0x3322 then actImport b
  else if 0x4000 ≤ i && i < 0x4004 then (if s = 9 then actJumpAccept (i - 0x4000) else actSet (i - 0x4000) v)
  else if i = 0x4200 then actTodNext v
  else if i = 0x5010 then actSoftTrigger v
  else if i = 0x5015 then actFireInject v
  else if i = 0x5016 then actArmInject v
  else if 0x5110 ≤ i && i < 0x5120 then (if s = 0x0B then actRelease (i - 0x5110) else actReadout (i - 0x5110))
  else if 0x6040 ≤ i && i < 0x6050 then actCtlFaultClear (i - 0x6040)
  else if 0x6120 ≤ i && i < 0x6140 then actInjGo (i - 0x6120)
  else if 0x6140 ≤ i && i < 0x6148 then actTraceGo (i - 0x6140) v
  else if 0x6810 ≤ i && i < 0x6818 then actFlFaultClear (i - 0x6810)
  else if 0x6840 ≤ i && i < 0x6844 then actEngGo (i - 0x6840) v
  else if i = 0x7009 then actReadmit
  else if i = 0x700B then actRoleSwap
  else if i = 0x7102 then actFlush (s - 1)
  else if 0x7810 ≤ i && i < 0x7820 then actRetrain (i - 0x7810)
  else actGrClear

/-- The act of an RW-live or RW-stopped object. -/
def actRw (k v : Nat) : Act :=
  let i := k / 256
  let s := k % 256
  if 0x4100 ≤ i && i < 0x4120 then (if s = 4 then actCueArm (i - 0x4100) v else actCue (i - 0x4100) k v)
  else if 0x6000 ≤ i && i < 0x6020 && s = 0x02 then actLoopMode (i - 0x6000) v
  else if 0x6000 ≤ i && i < 0x6020 && s = 0x17 then actManual (i - 0x6000) v
  else if 0x6000 ≤ i && i < 0x6020 && s = 0x1A then actTuneBase (i - 0x6000) v
  else if k = Obj.tbIncrement 3 then actIncrement v
  else if (liveLoop k).isSome then actLoop (fun _ => 0) ((liveLoop k).getD 0) k v
  else if 0x6040 ≤ i && i < 0x6050 && s = 0x02 then actHostLevel (i - 0x6040) v
  else if 0x7810 ≤ i && i < 0x7820 && s = 0x20 then actLoopback (i - 0x7810) v
  else if k = Obj.fwTargetSlot then actFwTarget v
  else if k = Obj.nodeId 0 || k = Obj.nodeId 1 then actNode k v
  else actStore k v

/-- The act of a write of `len` bytes `b` to object `k`. -/
def actOf (k len v : Nat) (b : List Nat) : Act :=
  match Catalog.ofKey k with
  | some r => match r.access with
    | .wo => actWo k v b
    | .cue => actStage k len v
    | _ => actRw k v
  | none => actRw k v

end Sys2Proof.Machine
end

