-- ==== Sys2Proof/Machine/Reads.lean ====
section
/-! DEFINITION. What a read returns (R425, R428, R429): an object's value in force, computed where the hub derives it, free where
it is measured; and the byte strings. -/
namespace Sys2Proof.Machine

/-! ### Derived values -/

/-- PART_NUMBER, for example DTK-H192S-E (R2 to R4). (DESIGN CHOICE: log 7.) -/
def Part.number (p : Part) : List Nat :=
  [0x44, 0x54, 0x4B, 0x2D, 0x48] ++
    (match p.fe with
      | 1 => [0x30, 0x39, 0x36]
      | 2 => [0x31, 0x39, 0x32]
      | 3 => [0x32, 0x38, 0x38]
      | _ => [0x33, 0x38, 0x34]) ++
    (if p.simplex then [0x53] else []) ++ (if p.gradeE then [0x2D, 0x45] else [])

/-- DIE_POPULATION (Table 0.7). (DESIGN CHOICE: log 7.) -/
def Part.population (p : Part) : Nat := 2 ^ p.fe - 1 + (if p.simplex then 0x50 else 0xF0)

/-- YDF_CHECK under behaviour revision `rev` (R24, R27); 0 where the part says nothing of it. (DESIGN CHOICE: log 7.) -/
def Part.ydfOf (p : Part) (rev : Nat) : Nat :=
  match p.ydfCheck.find? (fun e => e.1 = rev) with
  | some e => e.2
  | none => 0

/-- CB_OLDEST_SEQ: the oldest record still held in either ring. -/
def Hub.cbOldest (h : Hub) : Nat :=
  let age (r : CbRecord) : Nat := seqAge h.cbNewest r.seq
  match h.cb.ring.getLast?, h.cb.nvm.getLast? with
  | some a, some b => if age a ≥ age b then a.seq else b.seq
  | some a, none => a.seq
  | none, some b => b.seq
  | none, none => 0

/-- POWER_STATUS (Table 2.11). -/
def Hub.powerStatusWord (h : Hub) : Nat :=
  let w := h.get Obj.powerStatus
  setBit (setBit (setBit (setBit (setBit w 0 h.pow.vinA) 1 h.pow.vinB) 3 (bitOf h.pow.bucks 0)) 4 (bitOf h.pow.bucks 1)) 7 h.pow.rail

/-- ROLE of a port's time transfer (Table 7.14, R211). -/
def Hub.portRoleCode (h : Hub) (p : Nat) : Nat :=
  if !h.laneActive p then 0
  else if !laneUp p then 1
  else
    let u := lanePort p
    let src (b : Nat) : Bool := (h.uplinkSource b || h.get (Obj.tbSource b) = 4) && h.sourcePort b = some u
    if src 0 || src 1 then 3 else 2

/-- GROUP_DELAY in 2⁻¹⁶ ns (R156). -/
def Hub.groupDelayOf (h : Hub) (n : Nat) : Nat :=
  if h.flag (Obj.chGated n) then
    let m := h.get (Obj.excPulseWidth (n / 4)) - h.get (Obj.chExcSettle n)
    ((m - 1) * 250 + 2000) * 65536
  else groupDelay (h.get (Obj.chFilterPreset n)) (h.get (Obj.chCicOrder n)) (h.get (Obj.chPhaseDelay n))

/-- SETTLING_SPAN: S of the setting in force, 0 when gated. -/
def Hub.settlingSpanOf (h : Hub) (n : Nat) : Nat :=
  if h.flag (Obj.chGated n) then 0 else settlingSpan (h.get (Obj.chFilterPreset n)) (h.get (Obj.chCicOrder n))

/-- A measured value, of which the hub's state says nothing: free below `n`, and the hub that has drawn it.
(DESIGN CHOICE: log 14, 151.) -/
def Hub.measured (h : Hub) (n : Nat) : Nat × Hub :=
  let d := h.drawNat
  (d.1 % n, d.2)

/-- A counter of what happens between the hub's own steps: advanced by a free amount. (DESIGN CHOICE: log 15.) -/
def Hub.counted (h : Hub) (k : Nat) : Nat × Hub :=
  let d := h.drawNat
  let h := d.2.bumpBy k d.1
  (h.get k, h)

/-- An access of a master to the green room: its byte address and its width of 1, 2, 4 or 8 bytes (R468). -/
structure GrAccess where
  addr : Nat
  bytes : Nat
deriving DecidableEq, Repr

/-- The lines of 8 bytes that an access touches, in ascending address order: one cycle in the bank of each. -/
def GrAccess.lines (a : GrAccess) : List Nat :=
  (List.range ((a.addr + a.bytes - 1) / 8 - a.addr / 8 + 1)).map (· + a.addr / 8)

/-- What an access of a hub die's master is, of which no object says anything: any width at any byte address. -/
def Hub.grAccess (h : Hub) : GrAccess × Hub :=
  let a := h.drawNat
  let w := a.2.drawNat
  ({ addr := a.1 % 2 ^ 21, bytes := 2 ^ (w.1 % 4) }, w.2)

/-- `n` accesses of a hub die's masters count in ROTATE_SPLITS where they cross a line boundary (R468). -/
def Hub.grAccesses : Nat → Nat → Hub → Hub
  | 0, _, h => h
  | n + 1, k, h =>
    let a := h.grAccess
    Hub.grAccesses n k (a.2.when (a.1.lines.length = 2) (·.bump k))

/-- ROTATE_SPLITS after the accesses that have come since it was read last. (DESIGN CHOICE: log 15.) -/
def Hub.splits (h : Hub) (k : Nat) : Nat × Hub :=
  let d := h.drawNat
  let h := Hub.grAccesses d.1 k d.2
  (h.get k, h)

/-- The master that a bank grants of those requesting it (R466): from the pointer on in ROUND-ROBIN; in PRIORITY the lowest number,
which is the fixed order of Table 15.8. (DESIGN CHOICE: log 211.) -/
def grGrant (robin : Bool) (ptr : Nat) (reqs : List Nat) : Option Nat :=
  ((List.range 7).map (fun i => if robin then (ptr + i) % 7 else i)).find? (reqs.contains ·)

/-- One cycle of bank `b` of hub die x, which the masters `reqs` request. In PRIORITY the house processor requests no bank a fifth
time in a row (R466); every master turned away counts a conflict (R467). (DESIGN CHOICE: log 211.) -/
def Hub.grCycle (h : Hub) (x b : Nat) (reqs : List Nat) : Hub :=
  let robin := h.flag Obj.grArbitration
  let run := vget (vget h.mir.runs x) b
  let reqs := reqs.filter (fun m => robin || m ≠ 0 || run < 4)
  match grGrant robin (vget (vget h.mir.ptrs x) b) reqs with
  | none => h.modMir (fun v => { v with runs := vupd v.runs x (fun l => vset l b 0) })
  | some g =>
    let h := h.modMir (fun v => { v with
      runs := vupd v.runs x (fun l => vset l b (if g = 0 then run + 1 else 0))
      ptrs := if robin then vupd v.ptrs x (fun l => vset l b ((g + 1) % 7)) else v.ptrs })
    h.forEach (reqs.filter (· ≠ g)) (fun m h => h.bump (Obj.conflicts x m))

/-- `n` cycles of banks that masters of hub die x request: of which bank and by whom no object says. (DESIGN CHOICE: log 15.) -/
def Hub.grCycles : Nat → Nat → Hub → Hub
  | 0, _, h => h
  | n + 1, x, h =>
    let b := h.drawNat
    let m := b.2.drawNat
    Hub.grCycles n x (m.2.grCycle x (b.1 % 8) ((List.range 7).filter (bitOf m.1 ·)))

/-- CONFLICTS after the cycles that have come since one was read last. (DESIGN CHOICE: log 15.) -/
def Hub.conflicts (h : Hub) (x k : Nat) : Nat × Hub :=
  let d := h.drawNat
  let h := Hub.grCycles d.1 x d.2
  (h.get k, h)

/-- A largest average since BOOT, of which the hub's state says no more than that it never falls: a free rise since it was read
last. (DESIGN CHOICE: log 15.) -/
def Hub.peak (h : Hub) (k : Nat) : Nat × Hub :=
  let d := h.measured (2 ^ 32)
  let h := d.2.put k (max (d.2.get k) d.1)
  (h.get k, h)

/-- Derived values of 0x1000 to 0x13FF; none where the object store holds the value.
(DESIGN CHOICE: log 7, 8, 14, 62; DEDUCED: log 147.) -/
def Hub.readBasic (h : Hub) (mb : ModeBlock) (k : Nat) : Option (Nat × Hub) :=
  let i := k / 256
  let s := k % 256
  match i with
  | 0x1001 => some (h.part.siliconRev, h)
  | 0x1002 => some (h.part.serial, h)
  | 0x1003 => some (h.part.population, h)
  | 0x1004 => some (b2n h.part.gradeE, h)
  | 0x100A => some (if s = 0 then h.part.brevSupported.length else h.part.brevSupported.getD (s - 1) 0, h)
  | 0x100C => some (h.part.ydfOf (h.get Obj.brevActive), h)
  | 0x1018 => some (vget h.pow.running (s - 1), h)
  | 0x101F => some ((h.fwSlot ((s - 1) / 2) ((s - 1) % 2)).info, h)
  | 0x1020 => some (h.part.keyHash, h)
  | 0x1104 =>
    if h.get k = 2 then some (2, h) else some (h.measured 2)
  | 0x1201 => some (mb.mode.code, h)
  | 0x1203 => some (mb.entryTime, h)
  | 0x1204 => some (mb.cause, h)
  | 0x1209 => some (mb.safeCause, h)
  | 0x1300 =>
    let d := h.measured 4501
    some (d.1 * 10, d.2)
  | 0x1301 =>
    let d := h.measured 4501
    some (d.1 * 10, d.2)
  | 0x1302 =>
    if h.pow.vinA && h.pow.vinB then
      let d := h.measured 3
      some (d.1 + 1, d.2)
    else some (if h.pow.vinB then 2 else 1, h)
  | 0x1303 =>
    if h.pow.rail then
      let d := h.measured 501
      some (d.1 + 4750, d.2)
    else some (h.measured 65536)
  | 0x1304 => some (h.measured (2 ^ 32))
  | 0x1305 => some (h.powerStatusWord, h)
  | 0x9000 => some (h.cbNewest, h)
  | 0x9001 => some (h.cbOldest, h)
  | _ => none

/-- V_MEAS in mV: the mean of the driver's sensed voltages over the latest full millisecond, open where one of them is not known.
(DESIGN CHOICE: log 168.) -/
def Hub.readVMeas (h : Hub) (d : Nat) : Nat × Hub :=
  match (h.drv d).vMean with
  | none => h.measured 65536
  | some v =>
    let q := h.ratOpen (v * 125 / (100 * 65536))
    (satNat 65535 q.1.toNat, q.2)

/-- Derived values of the acquisition side, 0x2000 to 0x4FFF. (DESIGN CHOICE: log 14; DEDUCED: log 147.) -/
def Hub.readSignal (h : Hub) (k : Nat) : Option (Nat × Hub) :=
  let i := k / 256
  let s := k % 256
  if 0x2000 ≤ i && i < 0x3000 then
    let n := i - 0x2000
    if s = 9 then some (setBit (h.get k) 2 (h.auto n), h)
    else if s = 0x13 then some (h.groupDelayOf n, h)
    else if s = 0x15 then some (setBit (h.get k) 7 (h.flag (Obj.chGated n)), h)
    else if s = 0x14 then some (h.settlingSpanOf n, h)
    else if s = 0x24 then some (if n < 528 then 2 else b2n (h.mirFwd.contains n), h)
    else none
  else if 0x3040 ≤ i && i < 0x30A0 && s = 0x0B then some (h.readVMeas (i - 0x3040))
  else if i = 0x3005 || (0x3040 ≤ i && i < 0x30A0 && s = 0x0A) then some (h.measured 65536)
  else if i = 0x3200 then some (2000000 / presetRaw (s - 1), h)
  else if i = 0x3201 then some (cicR (s - 1), h)
  else if 0x3240 ≤ i && i < 0x3280 && s = 9 then some (h.get k, h.putBit k 2 false)
  else if 0x4002 ≤ i && i < 0x4004 && (s = 2 || s = 3) then some (5, h)
  else if 0x4000 ≤ i && i < 0x4004 && s = 1 then some (h.nowWord (i - 0x4000), h)
  else if 0x4020 ≤ i && i < 0x4030 && s = 1 then some (h.portRoleCode (i - 0x4020), h)
  else none

/-- STATUS of a control output: whether it is in its current limit now is measured; one that is latched off is not (Table 9.13).
(DESIGN CHOICE: log 203.) -/
def Hub.ctlStatusWord (h : Hub) (o : Nat) : Nat × Hub :=
  let w := h.get (Obj.ctlStatus o)
  if bitOf w 3 then (w, h)
  else
    let d := h.measured 2
    (setBit w 2 (d.1 = 1), d.2)

/-- Derived values of the output side and the links, 0x5000 up. (DESIGN CHOICE: log 13, 14, 15; DEDUCED: log 147, 161.) -/
def Hub.readOutput (h : Hub) (k : Nat) : Option (Nat × Hub) :=
  let i := k / 256
  let s := k % 256
  if i = 0x5006 then some (h.timerRemain (s - 1), h)
  else if i = 0x5013 then some (h.eventWord 0, h)
  else if i = 0x5014 then some (h.eventWord (s - 1), h)
  else if 0x6040 ≤ i && i < 0x6050 && s = 8 then some (h.ctlStatusWord (i - 0x6040))
  else if 0x6810 ≤ i && i < 0x6818 && s = 0x0B then some (h.measured 65536)
  else if 0x6810 ≤ i && i < 0x6818 && s = 0x0C then some (h.measured (2 ^ 32))
  else if 0x7110 ≤ i && i < 0x7150 && s = 0x0E then some (h.streamStatus (i - 0x7110), h)
  else if 0x7020 ≤ i && i < 0x7022 && s = 8 && !h.part.simplex then some (h.counted k)
  else if i = 0x7100 then some (h.queueBytes (s - 1), h)
  else if i = 0x715A then some (h.measured 101)
  else if 0x7160 ≤ i && i < 0x7168 then
    let u := i - 0x7160
    let waits (c : Nat) : List Packet := h.waiting (u / 4) (u % 4) c
    if 1 ≤ s && s ≤ 8 then some ((waits (s - 1)).length % 65536, h)
    else if s = 9 then some (4 * sumNat (((List.range 8).flatMap waits).map (fun p => p.words.length)) % 2 ^ 32, h)
    else if s = 0x0C then some (h.portStatus u, h)
    else none
  else if 0x7810 ≤ i && i < 0x7820 && (s = 0x21 || s = 0x22) then
    let h := h.loopCount (i - 0x7810)
    some (h.get k, h)
  else if 0x7910 ≤ i && i < 0x7918 && s = 0x0E then some (h.resolvedMac (i - 0x7910), h)
  else if 0x7910 ≤ i && i < 0x7918 && s = 0x11 then some (h.ethStatusWord (i - 0x7910), h)
  else if 0x8010 ≤ i && i < 0x8012 then
    let x := i - 0x8010
    if s = 8 then some (h.splits k)
    else if s ≤ 7 then some (h.conflicts x k)
    else if 0x12 ≤ s then
      let f := Config.bankFuses x (s - 0x12)
      some (f % 3 + f / 4 % 2 ^ 14 * 4 + b2n (h.bit k 16) * 65536, h)
    else none
  else if 0x8020 ≤ i && i < 0x8022 && s = 1 then some (if h.die (6 + (i - 0x8020)) = 3 then 4266 else 0, h)
  else if 0x8020 ≤ i && i < 0x8022 && s = 2 then some (h.peak k)
  else if i = 0x8111 then some (h.mirFwd.length, h)
  else none

/-- The value of a numeric object in force, and the hub after the read. (DESIGN CHOICE: log 15; DEDUCED: log 143, 147.) -/
def Hub.readNumber (h : Hub) (mb : ModeBlock) (k : Nat) : Nat × Hub :=
  match h.readBasic mb k, h.readSignal k, h.readOutput k with
  | some r, _, _ => r
  | none, some r, _ => r
  | none, none, some r => r
  | none, none, none => (h.get k, h)

/-! ### Byte strings -/

/-- CB_RECORD: the record that CB_READ_SEQ names, which then advances (R87). (DEDUCED: log 65.) -/
def Hub.readCbRecord (h : Hub) : (Nat × List Nat) × Hub :=
  let q := h.get Obj.cbReadSeq
  match (h.cb.ring ++ h.cb.nvm).find? (fun r => r.seq = q) with
  | some r => ((0, r.bytes), h.bump Obj.cbReadSeq)
  | none => ((Abort.valueOutOfRange, []), h)

/-- CYCLE_SNAPSHOT, 36 B (Table 9.3's .28). -/
def Hub.loopSnapshot (h : Hub) (l : Nat) : List Nat :=
  toBytes 12 (h.get (Obj.loopLastCycle l)) ++ toBytes 4 (h.get (Obj.loopPv l)) ++ toBytes 8 (h.get (Obj.loopSpEff l)) ++
    toBytes 2 (h.get (Obj.loopOutput l)) ++ toBytes 1 (h.get (Obj.loopLevel l)) ++ [0] ++ toBytes 2 (h.get (Obj.loopStatus l)) ++
    [0, 0] ++ toBytes 4 (ofSigned 32 (h.loop l).u)

/-- ENG_LEVELS: the strings of the engine's mask, 0 for the others. -/
def Hub.engLevelBytes (h : Hub) (g : Nat) : List Nat :=
  (List.range 8).flatMap (fun s => toBytes 4 (if h.bit (Obj.engEngMask g) s then (h.pat g).levels.getD s 0 else 0))

/-- MIR_FWD_MAP: the channels of slots 528 to 1023. -/
def Hub.mirMapBytes (h : Hub) : List Nat := (List.range 496).flatMap (fun i => toBytes 2 ((h.mirFwd)[i]?.getD 0xFFFF))

/-- The detector record: one update as a snapshot (R167). -/
def Hub.readDetector (h : Hub) (d : Nat) : List Nat × Hub :=
  (toBytes 4 (h.get (Obj.detResultA d)) ++ toBytes 4 (h.get (Obj.detResultB d)) ++ toBytes 12 (h.get (Obj.detResultTime d)) ++
    toBytes 1 (h.get (Obj.detStatus d)), h.putBit (Obj.detStatus d) 2 false)

/-- The bytes of a byte-string item, at most `max` of them, with the code of a refusal of the object's own; none for a numeric
object. (DESIGN CHOICE: log 9, 14.) -/
def Hub.readString (h : Hub) (k max : Nat) : Option ((Nat × List Nat) × Hub) :=
  let i := k / 256
  let s := k % 256
  let whole (b : List Nat) : Option ((Nat × List Nat) × Hub) := some ((0, b.take max), h)
  if k = Obj.partNumber then whole h.part.number
  else if k = Obj.cbRecord then
    let r := h.readCbRecord
    some ((r.1.1, r.1.2.take max), r.2)
  else if k = Obj.firCoeff then
    whole ((List.range 32).flatMap (fun t => toBytes 4 (ofSigned 32 ((firSet (h.get Obj.firSettingSelect)).getD t 0))))
  else if k = Obj.calRecord then
    if h.part.records.contains (h.get Obj.calRecordSelect) then whole (h.calRecordBytes h.leadDie)
    else some ((Abort.valueOutOfRange, []), h)
  else if k = Obj.timeSnapshot then whole ([0, 1, 2, 3].flatMap (fun b => toBytes 12 (h.nowWord b)))
  else if 0x5110 ≤ i && i < 0x5120 && s = 0x0E then
    if !h.slotReadable (i - 0x5110) then some ((Abort.captureNotReady, []), h)
    else
      let r := h.readSlotData (i - 0x5110) max
      some ((0, r.1), r.2)
  else if 0x5110 ≤ i && i < 0x5120 && s = 0x10 then
    if !h.slotReadable (i - 0x5110) then some ((Abort.captureNotReady, []), h)
    else whole (h.slotHeaderBytes (i - 0x5110) h.leadDie)
  else if 0x6000 ≤ i && i < 0x6020 && s = 0x28 then whole (h.loopSnapshot (i - 0x6000))
  else if 0x6140 ≤ i && i < 0x6148 && s = 0x0E then
    let b := i - 0x6140
    if h.get (Obj.traceTraceState b) = 1 || h.get (Obj.traceTraceState b) = 2 then some ((Abort.traceNotReady, []), h)
    else
      let l := h.traceBytes b max
      some ((0, l), h.bumpBy (Obj.traceTraceReadOffset b) l.length)
  else if 0x6840 ≤ i && i < 0x6844 && s = 0x08 then whole (h.engLevelBytes (i - 0x6840))
  else if k = Obj.mirFwdMap then whole h.mirMapBytes
  else none

/-! ### The item (R421, R428, R429) -/

/-- A detector's record read: subindex 0xFF. -/
def recordKey (k : Nat) : Bool := 0x3240 ≤ k / 256 && k / 256 < 0x3280 && k % 256 = 0xFF

/-- The item `k`, at most `max` bytes of it: code, bytes and the hub after the read. (DEDUCED: log 122, 147.) -/
def Hub.readItem (h : Hub) (mb : ModeBlock) (k max : Nat) : (Nat × List Nat) × Hub :=
  if recordKey k then
    if !keyExists mb h (k - 0xFF + 1) then ((Abort.noSuchObject, []), h)
    else
      let r := h.readDetector (k / 256 - 0x3240)
      ((0, r.1.take max), r.2)
  else
    let c := readCheck mb h k
    if c ≠ 0 then ((c, []), h)
    else
      match h.readString k max with
      | some r => r
      | none =>
        let r := h.readNumber mb k
        ((0, (toBytes (Catalog.len k) r.1).take max), r.2)

/-- A READ: LENGTH_MISMATCH for an item of more than 64 B (R428), which then has not been read. -/
def Hub.readShort (h : Hub) (mb : ModeBlock) (k : Nat) : (Nat × List Nat) × Hub :=
  let r := h.readItem mb k 65
  if r.1.1 = 0 && r.1.2.length > 64 then ((Abort.lengthMismatch, []), h) else r

/-- A READ with STAGED: the staged value, or the item in force. -/
def Hub.readStaged (h : Hub) (mb : ModeBlock) (k : Nat) : (Nat × List Nat) × Hub :=
  let c := readCheck mb h k
  match h.srv.staging.find? (fun e => e.key = k) with
  | some e => if c ≠ 0 then h.readShort mb k else ((0, toBytes e.len e.val), h)
  | none => h.readShort mb k

end Sys2Proof.Machine
end

