-- ==== Sys2Proof/Machine/Server.lean ====
section
/-! DEFINITION. The object server (R427 to R444): PDUs, carriers, the services, block transfers and repeated requests. -/
namespace Sys2Proof.Machine

/-! ### Requests (R436 to R438, R440) -/

/-- The data bytes that a segment carries. -/
def segLen (length k : Nat) : Nat := min 54 (length - 54 * k)

/-- The request that a PDU carries; the padding behind it is ignored. A frame shorter than the header, or a response, is none.
(DEDUCED: log 60.) -/
def parsePdu (src : Carrier) (nvm : Bool) (b : List Nat) : Option SrvReq :=
  if b.length < 8 || bitOf (b.getD 0 0) 5 then none
  else
    let w := ofBytes (b.take 8)
    let len := field w 50 14
    some { src := src, tx := field w 8 8, service := field w 0 5, index := field w 16 16, sub := field w 32 8
           segment := field w 40 8, staged := bitOf w 48, length := len
           data := (b.drop 8).take (segLen len (field w 40 8)), nvm := nvm }

/-- The key an index and a subindex name. -/
def SrvReq.key (r : SrvReq) : Nat := r.index * 256 + r.sub

/-- One request repeats another (R440). (DEDUCED: log 63.) -/
def SrvReq.same (a b : SrvReq) : Bool :=
  a.src = b.src && a.tx = b.tx && a.service = b.service && a.index = b.index && a.sub = b.sub && a.data = b.data

/-! ### Answers (R439, R440) -/

/-- What the server answers: data, an abort code, nothing before a further segment, or nothing yet: the response is held, as
`Act.held` says where. -/
inductive Reply where
  | data (b : List Nat)
  | abort (code : Nat)
  | more
  | held (place : Nat)
deriving DecidableEq, Repr

/-- The request is answered. (DEDUCED: log 5; DESIGN CHOICE: log 152.) -/
def Hub.answer (h : Hub) (r : SrvReq) (rep : Reply) : Hub :=
  match rep with
  | .data b => (h.bump Obj.requests).finish r (respPdus r false b)
  | .abort c => (h.bump Obj.requests).abortReq r c
  | .more => if r.src = .mailbox then h.mailAnswer [] else h
  | .held place =>
    let h := h.bump Obj.requests
    if place = 1 then h.modSrv (fun v => { v with swapHeld := v.swapHeld ++ [r] })
    else if place < 32 then h.modSrv (fun v => { v with loopHeld := v.loopHeld ++ [(place - 2, r)] })
    else if place < 64 then h.holdLoopWrite (place - 32) r
    else h.modSrv (fun v => { v with sets := v.sets.map (fun w => if w.req.isNone then { w with req := some r } else w) })

/-- The stored answer to the request, if it repeats one answered within the last 1 s. (DEDUCED: log 63.) -/
def Hub.stored (h : Hub) (r : SrvReq) : Option Answered :=
  h.srv.answered.find? (fun a => a.req.same r && h.time.ticks ≤ a.at_ + tSec)

/-- The stored response is sent again (R440). (DEDUCED: log 63.) -/
def Hub.repeatAnswer (h : Hub) (a : Answered) : Hub := (h.respond a.req.src a.pdus).bump Obj.duplicateRequests

/-! ### Services (R425, R428 to R432, R437, R438) -/

/-- What a service leaves: the reply, the mode block and the hub. -/
abbrev Served : Type := Reply × ModeBlock × Hub

/-- A reply of no data where the code is 0. -/
def replyOf (code : Nat) : Reply := if code = 0 then .data [] else .abort code

/-- An accepted write goes to the peer, which confirms it within 100 µs (R43). -/
def Hub.passOn (h : Hub) (k : Nat) : Hub := h.modSrv (fun v => { v with passed := some (k, h.time.ticks) })

/-- A checked write with its act (R423, R425, R426): a refusal is answered at once, an accepted write when it has taken effect
(R40, R439). (DEDUCED: log 5, 42.) -/
def writeWith (act : Act) (mb : ModeBlock) (h : Hub) (nvm : Bool) (k len v : Nat) : Served :=
  let c := writeCheck mb h false k len v
  if c ≠ 0 then (.abort c, mb, h)
  else
    let b := h.budgetCheck k v
    if b.1 ≠ 0 then (.abort b.1, mb, b.2)
    else
      let r := act.refuse mb b.2
      if r.1 ≠ 0 then (.abort r.1, mb, r.2)
      else if act.stored && !nvm then (.abort Abort.nvmWriteFailed, mb, r.2)
      else
        let place := act.held mb r.2
        let e := act.apply mb (act.at_ mb (r.2.passOn k))
        (if place = 0 then .data [] else .held place, e.1, e.2)

/-- A WRITE or a BLOCK-WRITE of bytes `b`. FW_DATA takes BLOCK-WRITE only. -/
def writeBytes (mb : ModeBlock) (h : Hub) (nvm block : Bool) (k : Nat) (b : List Nat) : Served :=
  if k = Obj.fwData && !block then
    let c := writeCheck mb h false k b.length (ofBytes b)
    (.abort (if c = 0 then Abort.lengthMismatch else c), mb, h)
  else writeWith (actOf k b.length (ofBytes b) b) mb h nvm k b.length (ofBytes b)

/-- A STAGE of bytes `b` (R430). -/
def stageBytes (mb : ModeBlock) (h : Hub) (k : Nat) (b : List Nat) : Served :=
  let c := writeCheck mb h true k b.length (ofBytes b)
  if c ≠ 0 then (.abort c, mb, h)
  else if k = Obj.fwTargetSlot && h.slotRuns (ofBytes b) then (.abort Abort.fwSlotInUse, mb, h)
  else
    let r := h.stageValue k b.length (ofBytes b)
    (replyOf r.1, mb, r.2)

/-- What a read answers. (DEDUCED: log 64.) -/
def readReply (mb : ModeBlock) (r : (Nat × List Nat) × Hub) : Served :=
  (if r.1.1 = 0 then .data r.1.2 else .abort r.1.1, mb, r.2)

/-- A BLOCK-READ of `n` bytes, 1 to 13,824, and at most 756 through the mailbox (R438, R444). (DEDUCED: log 59.) -/
def blockRead (mb : ModeBlock) (h : Hub) (src : Carrier) (k n : Nat) : Served :=
  if n = 0 || n > 13824 then (.abort Abort.valueOutOfRange, mb, h)
  else readReply mb (h.readItem mb k (if src = .mailbox then min n 756 else n))

/-- The response data of a COMMIT (Table 14.7). The hub produces no TIME96 of a NANOSECONDS above 999,999,999: a refused cue of
that kind comes back as 0 (R17). (DEDUCED: log 55.) -/
def CommitReply.bytes (c : CommitReply) (phase id : Nat) : List Nat :=
  [phase] ++ toBytes 2 id ++ toBytes 12 (if time96Ok c.cue then c.cue else 0) ++ toBytes 2 c.result ++ toBytes 4 c.item

/-- A COMMIT of a phase with an ID and a cue point (R431, R432). (DEDUCED: log 55.) -/
def commitWith (mb : ModeBlock) (h : Hub) (phase id w : Nat) : Served :=
  let r := if phase = 2 then h.confirm id w else h.prepare (phase = 3) id w
  (.data (r.1.bytes phase id), mb, r.2)

/-- A COMMIT request's data: U8 PHASE, U16 ID, TIME96 cue point. (DEDUCED: log 59.) -/
def commitBytes (mb : ModeBlock) (h : Hub) (b : List Nat) : Served :=
  let phase := b.getD 0 0
  if b.length ≠ 15 then (.abort Abort.lengthMismatch, mb, h)
  else if phase = 0 || phase > 3 then (.abort Abort.valueOutOfRange, mb, h)
  else commitWith mb h phase (ofBytes ((b.drop 1).take 2)) (ofBytes (b.drop 3))

/-- The hub ID from which a request comes. -/
def Hub.originOf (h : Hub) (src : Carrier) : Nat :=
  match src with
  | .tunnel o => o
  | _ => h.get Obj.hubIdActive

/-- An ABORT of the transfer `tx` on the same carrier, which ends with TRANSFER_ABORTED; of none, nothing (R437).
(DEDUCED: log 58.) -/
def Hub.abortTransfer (h : Hub) (src : Carrier) (tx : Nat) : Hub :=
  match h.srv.transfers.find? (fun t => t.first.src = src && t.first.tx = tx) with
  | some t => (h.modSrv (fun v => { v with transfers := v.transfers.filter (fun u => u ≠ t) })).abortReq t.first Abort.transferAborted
  | none => h

/-- An ABORT request's data: U8 kind, U8 transaction, U16 commit ID. (DEDUCED: log 58, 59.) -/
def abortBytes (mb : ModeBlock) (h : Hub) (src : Carrier) (b : List Nat) : Served :=
  if b.length ≠ 4 then (.abort Abort.lengthMismatch, mb, h)
  else if b.getD 0 0 = 0 then (.data [], mb, h.abortTransfer src (b.getD 1 0))
  else if b.getD 0 0 = 1 then
    let r := h.abortCommit (ofBytes (b.drop 2)) (h.originOf src)
    (replyOf r.1, mb, r.2)
  else (.abort Abort.valueOutOfRange, mb, h)

/-- HEARTBEAT data (Table 14.7). (DEDUCED: log 66.) -/
def beatBytes (mb : ModeBlock) (h : Hub) : List Nat :=
  [mb.mode.code, h.quality 0, h.get Obj.leadDie] ++ toBytes 2 (h.get Obj.duplexStatus) ++ toBytes 2 (h.get Obj.hubIdActive) ++
    toBytes 4 h.cbNewest ++ toBytes 4 (h.get Obj.bootCount)

/-- A transfer whose segments are all in: its data, in the order of SEGMENT. -/
def Transfer.whole (t : Transfer) : Option (List Nat) :=
  let n := segCount t.first.length
  if (List.range n).all (fun k => t.segs.any (fun s => s.1 = k)) then
    some ((List.range n).flatMap (fun k => match t.segs.find? (fun s => s.1 = k) with
      | some s => s.2
      | none => []))
  else none

/-- The transfer to which a segment belongs. -/
def Transfer.takes (t : Transfer) (r : SrvReq) : Bool :=
  t.first.src = r.src && t.first.tx = r.tx && t.first.index = r.index && t.first.sub = r.sub && t.first.staged = r.staged &&
    t.first.length = r.length

/-- The whole value of a BLOCK-WRITE is written or staged. -/
def blockWrite (mb : ModeBlock) (h : Hub) (r : SrvReq) : Served :=
  if r.staged then stageBytes mb h r.key r.data else writeBytes mb h r.nvm true r.key r.data

/-- A service other than BLOCK-WRITE. (DEDUCED: log 5, 57.) -/
def serveOne (mb : ModeBlock) (h : Hub) (r : SrvReq) : Served :=
  match r.service with
  | 1 => readReply mb (if r.staged then h.readStaged mb r.key else h.readShort mb r.key)
  | 2 => writeBytes mb h r.nvm false r.key r.data
  | 3 => stageBytes mb h r.key r.data
  | 4 => commitBytes mb h r.data
  | 5 => if r.length ≠ 2 then (.abort Abort.lengthMismatch, mb, h) else blockRead mb h r.src r.key (ofBytes r.data)
  | 8 => (.data (beatBytes mb h), mb, h)
  | 9 => abortBytes mb h r.src r.data
  | _ => (.abort Abort.serviceUnknown, mb, h)

/-- The services of Table 14.7 that a client may ask for. (DEDUCED: log 57.) -/
def knownService (n : Nat) : Bool := (1 ≤ n && n ≤ 6) || n = 8 || n = 9

/-- A BLOCK-WRITE whose bytes are all in hand. -/
def SrvReq.inOne (r : SrvReq) : Bool := r.service = 6 && r.segment = 0 && r.data.length = r.length

/-- What is wrong with a request's form: its service, LENGTH or SEGMENT (R437, R438); 0 for nothing. (DEDUCED: log 56.) -/
def SrvReq.formBad (r : SrvReq) : Nat :=
  if !knownService r.service then Abort.serviceUnknown
  else if r.length > 13824 then Abort.lengthMismatch
  else if r.segment ≥ segCount r.length then Abort.segmentInvalid
  else if r.data.length ≠ segLen r.length r.segment && !r.inOne then Abort.lengthMismatch
  else if r.service ≠ 6 && r.length > 54 then Abort.lengthMismatch
  else 0

/-- A request is served and answered, unless it repeats one answered within the last 1 s. -/
def handleWith (f : ModeBlock → Hub → SrvReq → Served) (mb : ModeBlock) (h : Hub) (r : SrvReq) : ModeBlock × Hub :=
  match h.stored r with
  | some a => (mb, h.repeatAnswer a)
  | none =>
    let e := f mb h r
    (e.2.1, e.2.2.answer r e.1)

/-- A segment of a BLOCK-WRITE: it waits for the others, or completes the value (R438). (DEDUCED: log 79.) -/
def blockSegment (mb : ModeBlock) (h : Hub) (r : SrvReq) : ModeBlock × Hub :=
  let now := h.time.ticks
  let old := (h.srv.transfers.find? (fun t => t.takes r)).getD { first := r, at_ := now }
  let t := { old with segs := (r.segment, r.data) :: old.segs.filter (fun s => s.1 ≠ r.segment) }
  let rest := h.srv.transfers.filter (fun t => !t.takes r)
  match t.whole with
  | some b => handleWith blockWrite mb (h.modSrv (fun v => { v with transfers := rest })) { r with data := b, segment := 0 }
  | none => (mb, (h.modSrv (fun v => { v with transfers := rest ++ [t] })).answer r .more)

/-- A request as it stands in its PDU is served. (DEDUCED: log 56.) -/
def handle (mb : ModeBlock) (h : Hub) (r : SrvReq) : ModeBlock × Hub :=
  let bad := r.formBad
  if bad ≠ 0 then handleWith (fun mb h _ => (.abort bad, mb, h)) mb h r
  else if r.inOne then handleWith blockWrite mb h r
  else if r.service = 6 then blockSegment mb h r
  else handleWith serveOne mb h r

/-! ### Arrival (R81, R427, R441) -/

/-- A CAN port takes part in traffic: enabled and not bus-off. -/
def Hub.canOpen (h : Hub) (p : Nat) : Bool := h.flag (Obj.canEnable p) && h.get (Obj.canStatus p) ≠ 2

/-- The carrier reaches the server. -/
def Hub.carrierOpen (h : Hub) (src : Carrier) : Bool :=
  match src with
  | .can p => h.canOpen p
  | .own p => h.canOpen p
  | .tunnel _ => true
  | .mailbox => h.flag Obj.mailboxEnable

/-- The Lead's house processor restarts and serves nothing (R81). (DESIGN CHOICE: log 32.) -/
def Hub.serverAway (h : Hub) : Bool := h.stalled

/-- A request reaches the Lead: it is served, or waits for the house processor, up to 16 of them (R427).
(DESIGN CHOICE: log 32; DEDUCED: log 79.) -/
def receiveWith (f : ModeBlock → Hub → SrvReq → ModeBlock × Hub) (mb : ModeBlock) (h : Hub) (r : SrvReq) : ModeBlock × Hub :=
  if !h.serverAway then f mb h r
  else if h.srv.waiting.length < 16 then (mb, h.modSrv (fun v => { v with waiting := v.waiting ++ [r] }))
  else (mb, h.abortReq r Abort.busy)

/-- The requests that wait are served in their order. (DESIGN CHOICE: log 32.) -/
def serveWaiting (mb : ModeBlock) (h : Hub) : ModeBlock × Hub :=
  let l := h.srv.waiting
  l.foldl (fun e r => handle e.1 e.2 r) (mb, h.modSrv (fun v => { v with waiting := [] }))

/-! ### What the next waiting command says of a request (R43, R65) -/

/-- A fault of hub die x would make a transition: 2 into SAFE, 1 by a change of role. -/
def faultRival (mb : ModeBlock) (h : Hub) (x : Nat) : Nat :=
  if h.role x = 2 && !h.understudy && canSafe mb.mode then 2 else if h.role x = 3 && mb.mode = .run then 1 else 0

/-- The command that waits behind a request is an event of the same instant whose transition prevails over one that the request asks
for: 2 an emergency or a SAFE cause, 1 a change of role (R65). (DEDUCED: log 180.) -/
def rivalOf (mb : ModeBlock) (h : Hub) (next : Option Instr) : Nat :=
  match next with
  | some (.thermalTrip _ dt) => if dt = 0 && mb.canTrip then 2 else 0
  | some (.powerFailWarning dt mv) => if dt = 0 && mb.canTrip && mv < h.get Obj.pfwThreshold then 2 else 0
  | some (.overTempWarning _ dt tj) | some (.overTempSafe _ dt tj) => if dt = 0 && canSafe mb.mode && tj ≥ 1250 then 2 else 0
  | some (.watchdogTimeout x dt) => if dt = 0 then faultRival mb h x else 0
  | some (.clockFault x) | some (.islandSilent x) | some (.mdInterfaceLost x) => faultRival mb h x
  | some (.relinquish x c _) => if c.val = causeGrEcc then faultRival mb h x else 0
  | some (.peerLinkLost _) => if h.red.peerUp && h.understudy && mb.mode = .run then 1 else 0
  | _ => 0

/-- The command that waits behind a request says that the Understudy does not confirm the write (R43). (DEDUCED: log 146.) -/
def unconfirmedBy (h : Hub) (r : SrvReq) (next : Option Instr) : Bool :=
  match next with
  | some (.peerWriteTimeout i sub) => h.understudy && r.key = i * 256 + sub
  | _ => false

/-- The request writes MODE_REQUEST. -/
def SrvReq.asksMode (r : SrvReq) : Bool := (r.service = 2 || r.service = 6) && r.key = Obj.modeRequest

/-- A request is served with an eye to the command that waits behind it: a write that the Understudy does not confirm waits for
PEER_WRITE_TIMEOUT once it is accepted, and a mode request loses to an event of its own instant (R43, R65).
(DEDUCED: log 146, 180.) -/
def heeding (next : Option Instr) (f : ModeBlock → Hub → SrvReq → ModeBlock × Hub) (mb : ModeBlock) (h : Hub) (r : SrvReq) :
    ModeBlock × Hub :=
  let n := if r.asksMode then rivalOf mb h next else 0
  if n ≠ 0 then
    let e := f { mb with rival := n } h r
    ({ e.1 with rival := mb.rival }, e.2)
  else if unconfirmedBy h r next then
    let e := f mb (h.modSrv (fun v => { v with passed := none })) r
    if e.2.srv.passed = some (r.key, h.time.ticks) then
      (mb, (h.passOn r.key).modSrv (fun v => { v with unconfirmed := some (r, h.time.ticks) }))
    else f mb h r
  else f mb h r

/-! ### The rows that stand for one request -/

/-- A request of a client `q`, served by `f`. -/
def request (q : ReqHead) (r : SrvReq) (f : ModeBlock → Hub → SrvReq → ModeBlock × Hub) (s : State) :
    Host.Outcome State Fault Refusal :=
  onBoth (fun mb h =>
    if !mb.up || !h.carrierOpen q.src then (mb, h)
    else receiveWith (heeding s.pending.head? f) mb (h.waitTicks q.dt) { r with src := q.src, tx := q.tx, nvm := q.nvm }) s

/-- The request of a WRITE of `len` bytes holding `v` to key `k`. -/
def writeReq (k len v : Nat) : SrvReq :=
  { service := 2, index := k / 256, sub := k % 256, length := len, data := toBytes len v }

/-- A WRITE of an object with a row of its own. -/
def writeRow (q : ReqHead) (k len v : Nat) (act : Act) (s : State) : Host.Outcome State Fault Refusal :=
  request q (writeReq k len v) (handleWith (fun mb h r => writeWith act mb h r.nvm k len v)) s

/-- The request that the fields of a PDU make. -/
def rowReq (service index sub seg : Nat) (staged : Bool) (len : Nat) (data : List Nat) : SrvReq :=
  { service := service, index := index, sub := sub, segment := seg, staged := staged, length := len
    data := data.take (segLen len seg) }

/-- A request by its fields, as the server reads any PDU. -/
def requestRow (q : ReqHead) (service index sub seg : Nat) (staged : Bool) (len : Nat) (data : List Nat) (s : State) :
    Host.Outcome State Fault Refusal :=
  request q (rowReq service index sub seg staged len data) handle s

end Sys2Proof.Machine
end

