-- ==== Sys2Proof/Machine/Carriers.lean ====
section
/-! DEFINITION. The carriers of the Horol protocol (R406, R441 to R444, R455): CAN frames, the tunnel, the mailbox; the
heartbeat, and the responses that are held. -/
namespace Sys2Proof.Machine

/-- Bytes as numbers. -/
def byteVals (b : List (Fin 256)) : List Nat := b.map (·.val)

/-! ### CAN (R441 to R443) -/

/-- A PDU that reached the hub on a carrier. (DEDUCED: log 60.) -/
def deliver (next : Option Instr) (mb : ModeBlock) (h : Hub) (src : Carrier) (nvm : Bool) (b : List Nat) : ModeBlock × Hub :=
  match parsePdu src nvm b with
  | some r => receiveWith (heeding next handle) mb h r
  | none => (mb, h)

/-- The hub ID addresses this hub: its own, the broadcast of its branch (R10), or all. -/
def Hub.addressed (h : Hub) (dest : Nat) : Bool :=
  let own := h.get Obj.hubIdActive
  dest = own || dest = own / 1024 * 1024 + 1023 || dest = 0xFFFF

/-- A TUNNEL_REQUEST on CAN port p: a HOROL message, and served here as well where it is addressed here (R443). -/
def tunnelRequest (next : Option Instr) (mb : ModeBlock) (h : Hub) (p : Fin 2) (dest : Nat) (nvm : Bool) (b : List Nat) : ModeBlock × Hub :=
  match parsePdu (.own p) nvm b with
  | none => (mb, h)
  | some r =>
    let now := h.time.ticks
    let w : TunnelWait := { port := p, tx := r.tx, service := r.service, index := r.index, sub := r.sub, at_ := now }
    let h := (h.modSrv (fun v => { v with tunnels := w :: v.tunnels.filter (fun t => now ≤ t.at_ + 10 * tSec) })).sendHorol dest b
    if h.addressed dest then receiveWith (heeding next handle) mb h r else (mb, h)

/-- A frame on CAN port p: FD or not, FUNCTION, NODE_ID and data. (DEDUCED: log 60, 61.) -/
def canFrame (next : Option Instr) (mb : ModeBlock) (h : Hub) (p : Fin 2) (fd : Bool) (fn node : Nat) (b : List Nat) (nvm : Bool) :
    ModeBlock × Hub :=
  if !fd || !([1, 2, 3, 4, 5, 7].contains fn) then (mb, h.bump (Obj.canIgnored p))
  else if node ≠ 0 && node ≠ h.nodeOf p then (mb, h)
  else if fn = 5 then deliver next mb h (.can p) nvm b
  else if fn = 4 && 2 ≤ b.length then tunnelRequest next mb h p (ofBytes (b.take 2)) nvm (b.drop 2)
  else (mb, h)

/-- A frame is received on CAN port p (R441, R442). (DEDUCED: log 61.) -/
def execRequest (p : Fin 2) (fd : Bool) (fn : Fin 16) (node : Fin 128) (b : List (Fin 256)) (dt : Nat) (nvm : Bool) (s : State) :
    Host.Outcome State Fault Refusal :=
  onBoth (fun mb h => if !mb.up || !h.canOpen p then (mb, h) else canFrame s.pending.head? mb (h.waitTicks dt) p fd fn node (byteVals b) nvm) s

/-- A TUNNEL_REQUEST frame is received on CAN port p (R443). -/
def execTunnelRequest (p : Fin 2) (node : Fin 128) (dest : Fin 65536) (b : List (Fin 256)) (dt : Nat) (nvm : Bool) (s : State) :
    Host.Outcome State Fault Refusal :=
  onBoth (fun mb h =>
    if !mb.up || !h.canOpen p then (mb, h)
    else canFrame s.pending.head? mb (h.waitTicks dt) p true 4 node (toBytes 2 dest ++ byteVals b) nvm) s

/-- CAN port p goes bus-off (R441). (DESIGN CHOICE: log 62.) -/
def execCanBusOff (p : Fin 2) (dt : Nat) (s : State) : Host.Outcome State Fault Refusal :=
  onHubM (fun mb h =>
    if !mb.up || !h.canOpen p then h
    else (((h.waitTicks dt).put (Obj.canStatus p) 2).bump (Obj.canBusOffCount p)).log 0x0E07 2 srcPkg p) s

/-- 128 occurrences of 11 recessive bits have passed on a port that is bus-off (R441). (DESIGN CHOICE: log 62.) -/
def execCanBusOffRecovery (p : Fin 2) (dt : Nat) (s : State) : Host.Outcome State Fault Refusal :=
  onHubM (fun mb h =>
    if !mb.up || h.get (Obj.canStatus p) ≠ 2 then h else (h.waitTicks dt).put (Obj.canStatus p) 0) s

/-- The HEARTBEAT falls due: it leaves on each CAN port that takes part in traffic (R437). -/
def execHeartbeatSend (s : State) : Host.Outcome State Fault Refusal :=
  onHubM (fun mb h =>
    let period := h.get Obj.heartbeatPeriod
    if !mb.up || period = 0 || h.serverAway then h
    else
      let h := h.waitTick (h.srv.beatAt + period * tMs)
      let now := h.time.ticks
      let pdu := pduHead 8 0 0 0 0 0 15 ++ beatBytes mb h
      (h.forEach [0, 1] (fun p h => if h.canOpen p then h.emit (h.canOut p 7 pdu) else h)).modSrv (fun v => { v with beatAt := now })) s

/-! ### The tunnel (R406) -/

/-- A number of an origin is new within its latest 256. -/
def SrvSt.unseen (v : SrvSt) (origin number : Nat) : Bool :=
  !(v.seen.any (fun e => e.1 = origin && e.2.contains number))

/-- The CAN port whose TUNNEL_REQUEST a response answers, within 10 s (R443). -/
def Hub.tunnelPort (h : Hub) (b : List Nat) : Option Nat :=
  let w := ofBytes (b.take 8)
  (h.srv.tunnels.find? (fun t =>
    h.time.ticks ≤ t.at_ + 10 * tSec && t.tx = field w 8 8 && t.service = field w 0 5 && t.index = field w 16 16 &&
      t.sub = field w 32 8)).map (·.port)

/-- A HOROL message reaches the object server: a response leaves as TUNNEL_RESPONSE, a request is served. (DEDUCED: log 78.) -/
def horolServe (next : Option Instr) (mb : ModeBlock) (h : Hub) (m : HorolMsg) (nvm : Bool) : ModeBlock × Hub :=
  let b := byteVals m.pdu
  if 8 ≤ b.length && bitOf (b.getD 0 0) 5 then
    match h.tunnelPort b with
    | some p => (mb, if h.canOpen p then h.emit (h.canOut p 2 (toBytes 2 m.origin ++ b)) else h)
    | none => (mb, h)
  else deliver next mb h (.tunnel m.origin) nvm b

/-- An accepted HOROL message of lane l: delivered where it is addressed to this hub, and forwarded unless to this hub alone.
(DEDUCED: log 78.) -/
def horolAccept (next : Option Instr) (mb : ModeBlock) (h : Hub) (l : Nat) (m : HorolMsg) (nvm : Bool) : ModeBlock × Hub :=
  let h := h.modSrv (fun v => { v with seen := noteSeen v.seen m.origin m.number })
  let r := if h.addressed m.dest && (laneDie l = h.leadDie || h.red.peerUp) then horolServe next mb h m nvm else (mb, h)
  if m.dest.val = h.get Obj.hubIdActive then r
  else (r.1, r.2.floodMsg (some l) 0x20 (toBytes 2 m.dest ++ toBytes 2 m.origin ++ toBytes 2 m.number ++ [m.pdu.length] ++ byteVals m.pdu))

/-- A HOROL message arrives on lane l. -/
def execHorol (l : Fin 16) (dt : Nat) (m : HorolMsg) (crc nvm : Bool) (s : State) : Host.Outcome State Fault Refusal :=
  onBoth (fun mb h =>
    let h := h.waitTicks dt
    let st := h.get (Obj.laneState l)
    let g := h.onMessage l crc (fun h => h)
    if (st ≠ 5 && st ≠ 4) || h.laneEth l || !crc || !g.srv.unseen m.origin m.number then (mb, g)
    else horolAccept s.pending.head? mb g l m nvm) s

/-! ### The mailbox (R444, R455) -/

/-- The request PDU that the mailbox holds: the first 62 bytes at most. -/
def MailboxSt.pdu (m : MailboxSt) : List Nat :=
  (m.req.toList.take 32).flatMap (fun w => toBytes 2 w) |>.take (min (vget m.req 32) 62)

/-- DOORBELL is written: the request is taken, or rejected while one is served. 0, or the value last written, submits nothing.
(DEDUCED: log 76.) -/
def doorbell (next : Option Instr) (mb : ModeBlock) (h : Hub) (v : Nat) (nvm : Bool) : ModeBlock × Hub :=
  let m := h.mir.mbox
  if m.busy then (mb, h.modMir (fun r => { r with mbox := { r.mbox with rejected := true } }))
  else if v = 0 || v = m.doorbell then (mb, h.modMir (fun r => { r with mbox := { r.mbox with doorbell := v } }))
  else
    let h := h.modMir (fun r => { r with mbox := { r.mbox with doorbell := v, busy := true, rejected := false } })
    match parsePdu .mailbox nvm m.pdu with
    | some q => receiveWith (heeding next handle) mb h q
    | none => (mb, h.mailAnswer [])

/-- A write cycle of word `a` of the mirror port. -/
def mirrorWrite (next : Option Instr) (mb : ModeBlock) (h : Hub) (a v : Nat) (nvm : Bool) : ModeBlock × Hub :=
  if !h.flag Obj.mailboxEnable || a < 0x200 || 0x221 < a then (mb, h.bump Obj.mirWriteIgnored)
  else if a = 0x221 then doorbell next mb h v nvm
  else (mb, h.modMir (fun r => { r with mbox := { r.mbox with req := vset r.mbox.req (a - 0x200) v } }))

/-- A write cycle of word `a`, `dt` ticks on (R455). -/
def execMirrorWrite (a : Fin 32768) (v : Fin 65536) (dt : Nat) (nvm : Bool) (s : State) : Host.Outcome State Fault Refusal :=
  onBoth (fun mb h => if !mirServes mb then (mb, h) else mirrorWrite s.pending.head? mb (h.waitTicks dt) a v nvm) s

/-- DOORBELL is written through the mirror port (R444). (DEDUCED: log 76.) -/
def execDoorbell (v : Fin 65536) (dt : Nat) (nvm : Bool) (s : State) : Host.Outcome State Fault Refusal :=
  onBoth (fun mb h => if !mirServes mb then (mb, h) else mirrorWrite s.pending.head? mb (h.waitTicks dt) 0x221 v nvm) s

/-! ### Time-outs and held responses (R81, R328, R333, R411, R438) -/

/-- The block transfer that began first. -/
def Hub.firstTransfer (h : Hub) : Option Transfer :=
  match h.srv.transfers with
  | [] => none
  | t :: ts => some (ts.foldl (fun a b => if b.at_ < a.at_ then b else a) t)

/-- A BLOCK-WRITE lacks segments 100 ms after its first (R438). -/
def execTransferIncomplete (s : State) : Host.Outcome State Fault Refusal :=
  onHubM (fun mb h =>
    match h.firstTransfer with
    | none => h
    | some t =>
      if !mb.up then h
      else ((h.waitTick (t.at_ + 100 * tMs)).modSrv (fun v => { v with
        transfers := v.transfers.filter (fun u => u ≠ t) })).abortReq t.first Abort.transferIncomplete) s

/-- The response held for lane l's far loopback is sent. (DEDUCED: log 74.) -/
def Hub.loopAnswer (h : Hub) (l code : Nat) : Hub :=
  match h.srv.loopHeld.find? (fun e => e.1 = l) with
  | some e => (h.modSrv (fun v => { v with loopHeld := v.loopHeld.filter (fun e => e.1 ≠ l) })).releaseHeld e.2 code
  | none => h

/-- The far loopback of lane l is off. (DEDUCED: log 74.) -/
def Hub.loopRefused (h : Hub) (l : Nat) : Hub :=
  ((h.modLane l (fun v => { v with floopSent := none })).put (Obj.laneLoopback l) 0).loopAnswer l Abort.farLoopRefused

/-- FLOOP_ACK arrives: the far loopback starts, or is refused (R411). A hub that has left SERVICE meanwhile starts none and tells
the far end to stop. -/
def execFloopAck (l : Fin 16) (dt : Nat) (accepted crc : Bool) (s : State) : Host.Outcome State Fault Refusal :=
  onHubM (fun mb h =>
    (h.waitTicks dt).onMessage l crc (fun h =>
      if (h.lane l).floopSent.isNone then h
      else if accepted && mb.mode = .service then
        ((h.put (Obj.laneLoopback l) 3).loopStart l 3).loopAnswer l 0
      else if accepted then (h.sendMsg l 0x50 [0]).loopRefused l
      else h.loopRefused l)) s

/-- No FLOOP_ACK within 10 ms (R411). -/
def execFarLoopTimeout (l : Fin 16) (s : State) : Host.Outcome State Fault Refusal :=
  onHubM (fun mb h =>
    match (h.lane l).floopSent with
    | some t => if !mb.up then h else (h.waitTick (t + 10 * tMs)).loopRefused l
    | none => h) s

/-- The Understudy has not confirmed the write to index `i` and subindex `sub` within 100 µs of its arrival (R43): the Lead applies it
alone, logs the time-out, ends the Understudy's role and answers. A write that was served before this command came has been applied
and answered already. (DEDUCED: log 146.) -/
def execPeerWriteTimeout (i : Fin 65536) (sub : Fin 256) (s : State) : Host.Outcome State Fault Refusal :=
  onBoth (fun mb h =>
    let k : Nat := i * 256 + sub
    let late (h : Hub) (t : Nat) : Hub := h.waitTick (t + 100 * tUs)
    let logged (h : Hub) : Hub := (h.modSrv (fun v => { v with passed := none })).log 0x0101 2 srcPkg (i + sub * 65536)
    match h.srv.unconfirmed, h.srv.passed with
    | some (r, t), _ =>
      if !mb.up || r.key ≠ k then (mb, h) else
      let e := handle mb ((late h t).modSrv (fun v => { v with unconfirmed := none })) r
      endUnderstudy e.1 (logged e.2)
    | none, some (q, t) =>
      if !mb.up || !h.understudy || q ≠ k || h.time.ticks > t + 100 * tUs then (mb, h)
      else endUnderstudy mb (logged (late h t))
    | none, none => (mb, h)) s

/-- The oldest SET of ARRAY that waits is applied, after the hold of its raw-frame boundary, and answered (R203, R225).
(DESIGN CHOICE: log 185.) -/
def Hub.takeSet (h : Hub) (samples : Bool) : Hub :=
  match h.srv.sets with
  | [] => h
  | w :: rest =>
    let h := h.waitTick w.from_
    if h.holdDue samples then h else
    let h := (h.modSrv (fun v => { v with sets := rest })).setBase 0 w.word
    match w.req with
    | some r => h.releaseHeld r 0
    | none => h

/-- A step of ARRAY (0) or SITE (1) is applied at its tick. -/
def execTimeStep (b : Fin 2) (s : State) : Host.Outcome State Fault Refusal :=
  onHubM (fun mb h => if b.val = 0 && (h.servo b).step.isNone then h.takeSet mb.samples else h.takeStep mb.samples b) s

/-- The switch instant of a hand-over: the roles change, the responses of ROLE_SWAP_REQUEST leave, which say NO_UNDERSTUDY where the
roles have not been swapped, and requests that waited for
the old Lead's house processor are served (R328, R333). (DEDUCED: log 74, 160.) -/
def execHandover (s : State) : Host.Outcome State Fault Refusal :=
  onBoth (fun mb h =>
    if h.red.handover.isNone then (mb, h) else
    let old := h.leadDie
    let r := handOverAll mb h
    let held := r.2.srv.swapHeld
    let code := if r.2.role old = 3 then 0 else Abort.noUnderstudy
    let g := (r.2.modSrv (fun v => { v with swapHeld := [] })).forEach held (fun q h => h.releaseHeld q code)
    if g.serverAway then (r.1, g) else serveWaiting r.1 g) s

/-- Hub die x's house processor runs again: object service resumes (R81). A restart takes at most 80 ms.
(DESIGN CHOICE: log 31, 178.) -/
def execHpRestart (x : Fin 2) (dt : Fin 20000001) (s : State) : Host.Outcome State Fault Refusal :=
  onBoth (fun mb h =>
    if !mb.up || !(h.hdie x).restarting then (mb, h) else
    let h := ((h.waitTicks dt).modHdie x (fun d => { d with restarting := false })).enterWaiting
    let h := if x.val = h.leadDie then (h.logStall 0).logStall 1 else h
    let h := h.log 0x0210 2 (srcHd x) (srcHd x)
    if x.val = h.leadDie then serveWaiting mb h else (mb, h)) s

end Sys2Proof.Machine
end

