-- ==== Sys2Proof/Machine/ServerRows.lean ====
section
/-! DEFINITION. The rows of the table that are one request each: the write-only objects and the writes with a row of their
own, and the services of Table 14.7. -/
namespace Sys2Proof.Machine

/-! ### Writes -/

/-- MODE_REQUEST 2 (Table 2.3). -/
def execModeRequestConfigure (q : ReqHead) (s : State) : Host.Outcome State Fault Refusal :=
  writeRow q Obj.modeRequest 1 2 (actMode 2) s

/-- MODE_REQUEST 3 (Table 2.3). -/
def execModeRequestSelfTest (q : ReqHead) (s : State) : Host.Outcome State Fault Refusal :=
  writeRow q Obj.modeRequest 1 3 (actMode 3) s

/-- MODE_REQUEST 4 (Table 2.3). -/
def execModeRequestCalibrate (q : ReqHead) (s : State) : Host.Outcome State Fault Refusal :=
  writeRow q Obj.modeRequest 1 4 (actMode 4) s

/-- MODE_REQUEST 6 (Table 2.3). -/
def execModeRequestRun (q : ReqHead) (s : State) : Host.Outcome State Fault Refusal :=
  writeRow q Obj.modeRequest 1 6 (actMode 6) s

/-- MODE_REQUEST 8 (Table 2.3). -/
def execModeRequestHold (q : ReqHead) (s : State) : Host.Outcome State Fault Refusal :=
  writeRow q Obj.modeRequest 1 8 (actMode 8) s

/-- MODE_REQUEST 9 (Table 2.3). -/
def execModeRequestService (q : ReqHead) (s : State) : Host.Outcome State Fault Refusal :=
  writeRow q Obj.modeRequest 1 9 (actMode 9) s

/-- MODE_REQUEST 10 (Table 2.3). -/
def execModeRequestSafe (q : ReqHead) (s : State) : Host.Outcome State Fault Refusal :=
  writeRow q Obj.modeRequest 1 10 (actMode 10) s

/-- MODE_REQUEST 0 (Table 2.3). -/
def execModeRequestCurtainDown (q : ReqHead) (s : State) : Host.Outcome State Fault Refusal :=
  writeRow q Obj.modeRequest 1 0 (actMode 0) s

/-- MODE_REQUEST 1 (Table 2.3). -/
def execModeRequestBoot (q : ReqHead) (s : State) : Host.Outcome State Fault Refusal :=
  writeRow q Obj.modeRequest 1 1 (actMode 1) s

/-- FAULT_CLEAR of excitation driver d (R104). -/
def execExcFaultClear (q : ReqHead) (d : Fin 96) (s : State) : Host.Outcome State Fault Refusal :=
  writeRow q (Obj.excFaultClear d) 1 1 (actExcFaultClear d) s

/-- INJ_SOFT_START of core k (R132). -/
def execInjSoftStart (q : ReqHead) (k : Fin 48) (s : State) : Host.Outcome State Fault Refusal :=
  writeRow q (Obj.coreInjSoftStart k) 1 1 (actInjSoftStart k) s

/-- SWING_REQUEST with a core number (R140). -/
def execSwingRequestTakeover (q : ReqHead) (f : Fin 4) (c : Fin 12) (s : State) : Host.Outcome State Fault Refusal :=
  writeRow q (Obj.swingRequest f) 1 c (actSwing f c) s

/-- SWING_REQUEST 0xFE (R140). -/
def execSwingRequestReturn (q : ReqHead) (f : Fin 4) (s : State) : Host.Outcome State Fault Refusal :=
  writeRow q (Obj.swingRequest f) 1 0xFE (actSwing f 0xFE) s

/-- RESYNC_REQUEST of one channel or of all (R157). -/
def execResyncRequest (q : ReqHead) (v : Fin 65536) (s : State) : Host.Outcome State Fault Refusal :=
  writeRow q Obj.resyncRequest 2 v (actResync v) s

/-- CAL_CANCEL (R184). -/
def execCalCancel (q : ReqHead) (s : State) : Host.Outcome State Fault Refusal :=
  writeRow q Obj.calCancel 1 1 actCalCancel s

/-- TOD_NEXT (R207). -/
def execTodNext (q : ReqHead) (w : Fin 79228162514264337593543950336) (s : State) : Host.Outcome State Fault Refusal :=
  writeRow q Obj.todNext 12 w (actTodNext w) s

/-- JUMP_ACCEPT of ARRAY or SITE (R203). -/
def execJumpAccept (q : ReqHead) (b : Fin 2) (s : State) : Host.Outcome State Fault Refusal :=
  writeRow q (Obj.tbJumpAccept b) 1 1 (actJumpAccept b) s

/-- SET of a time base (R225). -/
def execSet (q : ReqHead) (b : Fin 4) (w : Fin 79228162514264337593543950336) (s : State) : Host.Outcome State Fault Refusal :=
  writeRow q (Obj.tbSet b) 12 w (actSet b w) s

/-- INCREMENT of HOST (R225). -/
def execIncrementWrite (q : ReqHead) (v : Fin 18446744073709551616) (s : State) : Host.Outcome State Fault Refusal :=
  writeRow q (Obj.tbIncrement 3) 8 v (actIncrement v) s

/-- ARM of time cue c (R221). -/
def execTimeCueArm (q : ReqHead) (c : Fin 32) (v : Bool) (s : State) : Host.Outcome State Fault Refusal :=
  writeRow q (Obj.cueArm c) 1 (b2n v) (actCueArm c (b2n v)) s

/-- PERIOD of time cue c (R221, R371). -/
def execTimeCuePeriodWrite (q : ReqHead) (c : Fin 32) (v : Fin 18446744073709551616) (s : State) :
    Host.Outcome State Fault Refusal :=
  writeRow q (Obj.cuePeriod c) 8 v (actCue c (Obj.cuePeriod c) v) s

/-- FIRE_INJECT (R245). -/
def execFireInject (q : ReqHead) (v : Fin 87112285931760246646623899502532662132736) (s : State) :
    Host.Outcome State Fault Refusal :=
  writeRow q Obj.fireInject 17 v (actFireInject v) s

/-- ARM_INJECT (R245). -/
def execArmInject (q : ReqHead) (v : Fin 87112285931760246646623899502532662132736) (s : State) :
    Host.Outcome State Fault Refusal :=
  writeRow q Obj.armInject 17 v (actArmInject v) s

/-- SOFT_TRIGGER (R232). -/
def execSoftTrigger (q : ReqHead) (v : Fin 256) (s : State) : Host.Outcome State Fault Refusal :=
  writeRow q Obj.softTrigger 1 v (actSoftTrigger v) s

/-- RELEASE of capture slot n (R253). -/
def execRelease (q : ReqHead) (n : Fin 16) (s : State) : Host.Outcome State Fault Refusal :=
  writeRow q (Obj.slotRelease n) 1 1 (actRelease n) s

/-- READOUT_START of capture slot n (R258). -/
def execReadoutStart (q : ReqHead) (n : Fin 16) (s : State) : Host.Outcome State Fault Refusal :=
  writeRow q (Obj.slotReadoutStart n) 1 1 (actReadout n) s

/-- LOOP_MODE 0 of loop l (R276). -/
def execLoopModeOff (q : ReqHead) (l : Fin 32) (s : State) : Host.Outcome State Fault Refusal :=
  writeRow q (Obj.loopLoopMode l) 1 0 (actLoopMode l 0) s

/-- LOOP_MODE 1 of loop l (R276). -/
def execLoopModeManual (q : ReqHead) (l : Fin 32) (s : State) : Host.Outcome State Fault Refusal :=
  writeRow q (Obj.loopLoopMode l) 1 1 (actLoopMode l 1) s

/-- LOOP_MODE 2 of loop l (R276). -/
def execLoopModeHysteretic (q : ReqHead) (l : Fin 32) (s : State) : Host.Outcome State Fault Refusal :=
  writeRow q (Obj.loopLoopMode l) 1 2 (actLoopMode l 2) s

/-- LOOP_MODE 3 of loop l (R276). -/
def execLoopModeProfile (q : ReqHead) (l : Fin 32) (s : State) : Host.Outcome State Fault Refusal :=
  writeRow q (Obj.loopLoopMode l) 1 3 (actLoopMode l 3) s

/-- LOOP_MODE 4 of loop l (R276). -/
def execLoopModeTune (q : ReqHead) (l : Fin 32) (s : State) : Host.Outcome State Fault Refusal :=
  writeRow q (Obj.loopLoopMode l) 1 4 (actLoopMode l 4) s

/-- MANUAL_OUTPUT of loop l (R276). -/
def execManualOutput (q : ReqHead) (l : Fin 32) (v : Fin 65536) (s : State) : Host.Outcome State Fault Refusal :=
  writeRow q (Obj.loopManualOutput l) 2 v (actManual l v) s

/-- TARGET of generator l (R275). -/
def execTarget (q : ReqHead) (l : Fin 32) (v : Fin 18446744073709551616) (s : State) : Host.Outcome State Fault Refusal :=
  writeRow q (Obj.genTarget l) 8 v (actTarget l v) s

/-- INJ_GO of loop l (R282). -/
def execInjGo (q : ReqHead) (l : Fin 32) (s : State) : Host.Outcome State Fault Refusal :=
  writeRow q (Obj.injInjGo l) 1 1 (actInjGo l) s

/-- TRACE_GO 1 of trace buffer b (R285). -/
def execTraceGoStart (q : ReqHead) (b : Fin 8) (s : State) : Host.Outcome State Fault Refusal :=
  writeRow q (Obj.traceTraceGo b) 1 1 (actTraceGo b 1) s

/-- TRACE_GO 0 of trace buffer b (R285). -/
def execTraceGoStop (q : ReqHead) (b : Fin 8) (s : State) : Host.Outcome State Fault Refusal :=
  writeRow q (Obj.traceTraceGo b) 1 0 (actTraceGo b 0) s

/-- HOST_LEVEL of control output o (R280). -/
def execHostLevel (q : ReqHead) (o : Fin 16) (v : Bool) (s : State) : Host.Outcome State Fault Refusal :=
  writeRow q (Obj.ctlHostLevel o) 1 (b2n v) (actHostLevel o (b2n v)) s

/-- FAULT_CLEAR of control output o (R281). -/
def execCtlFaultClear (q : ReqHead) (o : Fin 16) (s : State) : Host.Outcome State Fault Refusal :=
  writeRow q (Obj.ctlFaultClear o) 1 1 (actCtlFaultClear o) s

/-- FAULT_CLEAR of string n (R296). -/
def execFlFaultClear (q : ReqHead) (n : Fin 8) (s : State) : Host.Outcome State Fault Refusal :=
  writeRow q (Obj.flFaultClear n) 1 1 (actFlFaultClear n) s

/-- ENG_GO 1 of pattern engine g (R310). -/
def execEngGoStart (q : ReqHead) (g : Fin 4) (s : State) : Host.Outcome State Fault Refusal :=
  writeRow q (Obj.engEngGo g) 1 1 (actEngGo g 1) s

/-- ENG_GO 0 of pattern engine g (R310). -/
def execEngGoStop (q : ReqHead) (g : Fin 4) (s : State) : Host.Outcome State Fault Refusal :=
  writeRow q (Obj.engEngGo g) 1 0 (actEngGo g 0) s

/-- READMIT_REQUEST (R332). -/
def execReadmitRequest (q : ReqHead) (s : State) : Host.Outcome State Fault Refusal :=
  writeRow q Obj.readmitRequest 1 1 actReadmit s

/-- ROLE_SWAP_REQUEST (R333). -/
def execRoleSwapRequest (q : ReqHead) (s : State) : Host.Outcome State Fault Refusal :=
  writeRow q Obj.roleSwapRequest 1 1 actRoleSwap s

/-- QUEUE_FLUSH of hub die x (R381). -/
def execQueueFlush (q : ReqHead) (x : Fin 2) (s : State) : Host.Outcome State Fault Refusal :=
  writeRow q (Obj.queueFlush x) 1 1 (actFlush x) s

/-- ENABLE of lane l (R391). -/
def execLaneEnable (q : ReqHead) (l : Fin 16) (v : Bool) (s : State) : Host.Outcome State Fault Refusal :=
  writeRow q (Obj.laneEnable l) 1 (b2n v) (actStore (Obj.laneEnable l) (b2n v)) s

/-- RETRAIN of lane l (R392). -/
def execRetrain (q : ReqHead) (l : Fin 16) (s : State) : Host.Outcome State Fault Refusal :=
  writeRow q (Obj.laneRetrain l) 1 1 (actRetrain l) s

/-- LPM_REQUEST 1 of lane l (R408, R409). -/
def execLpmRequestL1 (q : ReqHead) (l : Fin 16) (s : State) : Host.Outcome State Fault Refusal :=
  writeRow q (Obj.laneLpmRequest l) 1 1 (actStore (Obj.laneLpmRequest l) 1) s

/-- LPM_REQUEST 2 of lane l (R408, R409). -/
def execLpmRequestL2 (q : ReqHead) (l : Fin 16) (s : State) : Host.Outcome State Fault Refusal :=
  writeRow q (Obj.laneLpmRequest l) 1 2 (actStore (Obj.laneLpmRequest l) 2) s

/-- LPM_REQUEST 0 of lane l (R408, R409). -/
def execLpmRequestNone (q : ReqHead) (l : Fin 16) (s : State) : Host.Outcome State Fault Refusal :=
  writeRow q (Obj.laneLpmRequest l) 1 0 (actStore (Obj.laneLpmRequest l) 0) s

/-- LOOPBACK 1 of lane l (R411). -/
def execLoopbackNearSerial (q : ReqHead) (l : Fin 16) (s : State) : Host.Outcome State Fault Refusal :=
  writeRow q (Obj.laneLoopback l) 1 1 (actLoopback l 1) s

/-- LOOPBACK 2 of lane l (R411). -/
def execLoopbackNearParallel (q : ReqHead) (l : Fin 16) (s : State) : Host.Outcome State Fault Refusal :=
  writeRow q (Obj.laneLoopback l) 1 2 (actLoopback l 2) s

/-- LOOPBACK 3 of lane l (R411). -/
def execLoopbackFar (q : ReqHead) (l : Fin 16) (s : State) : Host.Outcome State Fault Refusal :=
  writeRow q (Obj.laneLoopback l) 1 3 (actLoopback l 3) s

/-- LOOPBACK 0 of lane l (R411). -/
def execLoopbackStop (q : ReqHead) (l : Fin 16) (s : State) : Host.Outcome State Fault Refusal :=
  writeRow q (Obj.laneLoopback l) 1 0 (actLoopback l 0) s

/-- STAGE_CLEAR (R430). -/
def execStageClear (q : ReqHead) (s : State) : Host.Outcome State Fault Refusal :=
  writeRow q Obj.stageClear 1 1 actStageClear s

/-- CONFIG_SAVE 1 (R449). -/
def execConfigSaveStore (q : ReqHead) (s : State) : Host.Outcome State Fault Refusal :=
  writeRow q Obj.configSave 1 1 actConfigSave s

/-- CONFIG_SAVE 2 (R449). -/
def execConfigSaveErase (q : ReqHead) (s : State) : Host.Outcome State Fault Refusal :=
  writeRow q Obj.configSave 1 2 actConfigErase s

/-- FW_TARGET_SLOT (R447 step 1). -/
def execFwTargetSlot (q : ReqHead) (v : Fin 256) (s : State) : Host.Outcome State Fault Refusal :=
  writeRow q Obj.fwTargetSlot 1 v (actFwTarget v) s

/-- FW_ERASE (R447 step 2). -/
def execFwErase (q : ReqHead) (s : State) : Host.Outcome State Fault Refusal :=
  writeRow q Obj.fwErase 1 1 actFwErase s

/-- FW_VERIFY (R447 step 4). -/
def execFwVerify (q : ReqHead) (s : State) : Host.Outcome State Fault Refusal :=
  writeRow q Obj.fwVerify 1 1 actFwVerify s

/-- FW_BOOT_SLOT of hub die x (R447 step 5). -/
def execFwBootSlot (q : ReqHead) (x : Fin 2) (v : Fin 256) (s : State) : Host.Outcome State Fault Refusal :=
  writeRow q (Obj.fwBootSlot x) 1 v (actStore (Obj.fwBootSlot x) v) s

/-- GR_COUNTERS_CLEAR (R467). -/
def execGrCountersClear (q : ReqHead) (s : State) : Host.Outcome State Fault Refusal :=
  writeRow q Obj.grCountersClear 1 1 actGrClear s

/-- SOURCE or SOURCE_PORT of ARRAY or SITE (R201). -/
def execSourceWrite (q : ReqHead) (b : Fin 2) (port : Bool) (v : Fin 256) (s : State) : Host.Outcome State Fault Refusal :=
  let k := if port then Obj.tbSourcePort b else Obj.tbSource b
  writeRow q k 1 v (actStore k v) s

/-- INSTANT, or COUNT, of time cue c (R221). (DEDUCED: log 86.) -/
def execTimeCueRearm (q : ReqHead) (c : Fin 32) (count : Bool) (w : Fin 79228162514264337593543950336) (s : State) :
    Host.Outcome State Fault Refusal :=
  let k := if count then Obj.cueCount c else Obj.cueInstant c
  let v := if count then w.val % 4294967296 else w.val
  writeRow q k (if count then 4 else 12) v (actCue c k v) s

/-- The object that a field of a lane's configuration is. -/
def laneFieldKey (o : LaneField) (l : Nat) : Nat :=
  match o with
  | .base => Obj.pairBase (lanePair l)
  | .personality => Obj.pairPersonality (lanePair l)
  | .rateDiv => Obj.laneRateDiv l
  | .fallbackDiv => Obj.laneFallbackDiv l
  | .txInvert => Obj.laneTxInvert l
  | .rxInvert => Obj.laneRxInvert l

/-- What configures a lane or its pair (R389, R391). -/
def execLaneConfigWrite (q : ReqHead) (l : Fin 16) (o : LaneField) (v : Fin 256) (s : State) :
    Host.Outcome State Fault Refusal :=
  writeRow q (laneFieldKey o l) 1 v (actStore (laneFieldKey o l) v) s

/-- The request of a BLOCK-WRITE of bytes `d`, its segments in. -/
def blockReq (k : Nat) (d : List Nat) : SrvReq :=
  { service := 6, index := k / 256, sub := k % 256, length := d.length, data := d }

/-- The whole value of a BLOCK-WRITE, its segments in. -/
def blockRow (q : ReqHead) (k : Nat) (b : List (Fin 256)) (act : Act) (s : State) : Host.Outcome State Fault Refusal :=
  let d := b.map (·.val)
  request q (blockReq k d) (handleWith (fun mb h r => writeWith act mb h r.nvm k d.length (ofBytes d))) s

/-- CAL_RECORD_IMPORT (R188). -/
def execCalRecordImport (q : ReqHead) (b : List (Fin 256)) (s : State) : Host.Outcome State Fault Refusal :=
  blockRow q Obj.calRecordImport b (actImport (b.map (·.val))) s

/-- FW_DATA (R447 step 3). -/
def execFwData (q : ReqHead) (b : List (Fin 256)) (s : State) : Host.Outcome State Fault Refusal :=
  blockRow q Obj.fwData b (actFwData (b.map (·.val))) s

/-! ### Reads that move an offset -/

/-- A READ of CB_RECORD (R87). -/
def execCbRecordRead (q : ReqHead) (s : State) : Host.Outcome State Fault Refusal :=
  requestRow q 1 (Obj.cbRecord / 256) (Obj.cbRecord % 256) 0 false 0 [] s

/-- A BLOCK-READ of `n` bytes of a capture slot's DATA (R258). -/
def execCaptureDataRead (q : ReqHead) (i : Fin 16) (n : Fin 65536) (s : State) : Host.Outcome State Fault Refusal :=
  requestRow q 5 (Obj.slotData i / 256) (Obj.slotData i % 256) 0 false 2 (toBytes 2 n) s

/-- A BLOCK-READ of `n` bytes of TRACE_DATA (R285). -/
def execTraceDataRead (q : ReqHead) (b : Fin 8) (n : Fin 65536) (s : State) : Host.Outcome State Fault Refusal :=
  requestRow q 5 (Obj.traceTraceData b / 256) (Obj.traceTraceData b % 256) 0 false 2 (toBytes 2 n) s

/-! ### The services (Table 14.7) -/

/-- READ of an object, or of its staged value (R428). -/
def execRead (q : ReqHead) (i : Fin 65536) (sub : Fin 256) (staged : Bool) (s : State) : Host.Outcome State Fault Refusal :=
  requestRow q 1 i sub 0 staged 0 [] s

/-- WRITE of the bytes `b` (R425). -/
def execWrite (q : ReqHead) (i : Fin 65536) (sub : Fin 256) (b : List (Fin 256)) (s : State) :
    Host.Outcome State Fault Refusal :=
  requestRow q 2 i sub 0 false b.length (b.map (·.val)) s

/-- STAGE of the bytes `b` (R430). -/
def execStage (q : ReqHead) (i : Fin 65536) (sub : Fin 256) (b : List (Fin 256)) (s : State) :
    Host.Outcome State Fault Refusal :=
  requestRow q 3 i sub 0 false b.length (b.map (·.val)) s

/-- The request of a COMMIT. -/
def commitReq (phase id w : Nat) : SrvReq :=
  { service := 4, length := 15, data := [phase] ++ toBytes 2 id ++ toBytes 12 w }

/-- A COMMIT of a phase with ID and cue point (R432). -/
def commitRow (q : ReqHead) (phase : Nat) (id : Fin 65536) (w : Fin 79228162514264337593543950336) (s : State) :
    Host.Outcome State Fault Refusal :=
  request q (commitReq phase id w)
    (handleWith (fun mb h _ => commitWith mb h phase id w)) s

/-- COMMIT PREPARE (R432). -/
def execCommitPrepare (q : ReqHead) (id : Fin 65536) (w : Fin 79228162514264337593543950336) (s : State) :
    Host.Outcome State Fault Refusal :=
  commitRow q 1 id w s

/-- COMMIT CONFIRM (R432). -/
def execCommitConfirm (q : ReqHead) (id : Fin 65536) (w : Fin 79228162514264337593543950336) (s : State) :
    Host.Outcome State Fault Refusal :=
  commitRow q 2 id w s

/-- COMMIT PREPARE_CONFIRM (R432). -/
def execCommitPrepareConfirm (q : ReqHead) (id : Fin 65536) (w : Fin 79228162514264337593543950336) (s : State) :
    Host.Outcome State Fault Refusal :=
  commitRow q 3 id w s

/-- ABORT of a commit (R437). -/
def execAbortCommit (q : ReqHead) (id : Fin 65536) (s : State) : Host.Outcome State Fault Refusal :=
  requestRow q 9 0 0 0 false 4 ([1, 0] ++ toBytes 2 id) s

/-- ABORT of the transfer `t` on the same carrier (R437). -/
def execAbortTransfer (q : ReqHead) (t : Fin 256) (s : State) : Host.Outcome State Fault Refusal :=
  requestRow q 9 0 0 0 false 4 [0, t, 0, 0] s

/-- BLOCK-READ of `n` bytes (R438). -/
def execBlockRead (q : ReqHead) (i : Fin 65536) (sub : Fin 256) (n : Fin 65536) (s : State) :
    Host.Outcome State Fault Refusal :=
  requestRow q 5 i sub 0 false 2 (toBytes 2 n) s

/-- A segment of a BLOCK-WRITE of `len` bytes in all (R438). -/
def execBlockWrite (q : ReqHead) (i : Fin 65536) (sub : Fin 256) (seg : Fin 256) (staged : Bool) (len : Fin 16384)
    (b : List (Fin 256)) (s : State) : Host.Outcome State Fault Refusal :=
  requestRow q 6 i sub seg staged len (b.map (·.val)) s

/-- A ping (R437). -/
def execHeartbeat (q : ReqHead) (s : State) : Host.Outcome State Fault Refusal :=
  requestRow q 8 0 0 0 false 0 [] s

/-- A PDU whose service code Table 14.7 does not list as a request; a listed one acts as that service. -/
def execServiceUnknown (q : ReqHead) (c : Fin 32) (i : Fin 65536) (sub : Fin 256) (s : State) :
    Host.Outcome State Fault Refusal :=
  requestRow q c i sub 0 false 0 [] s

end Sys2Proof.Machine
end

