-- ==== Sys2Proof/Machine/Dispatch.lean ====
section
/-! DEFINITION. The dispatch: one arm per command, one direct call of its meaning. -/
namespace Sys2Proof.Machine

/-- The effect of a command on everything but the queue. -/
def exec (i : Instr) (s : State) : Host.Outcome State Fault Refusal :=
  match i with
  | .powerOn a b wakeHigh buck0 buck1 => Sys2Proof.Machine.execPowerOn a b wakeHigh buck0 buck1 s
  | .wakeRise long buck0 buck1 => Sys2Proof.Machine.execWakeRise long buck0 buck1 s
  | .railFault => Sys2Proof.Machine.execRailFault s
  | .railRetry => Sys2Proof.Machine.execRailRetry s
  | .diePowerOn dt => Sys2Proof.Machine.execDiePowerOn dt s
  | .dieBringupTimeout unit => Sys2Proof.Machine.execDieBringupTimeout unit s
  | .bootComplete cfgOk trims => Sys2Proof.Machine.execBootComplete cfgOk trims s
  | .rstNLow dt => Sys2Proof.Machine.execRstNLow dt s
  | .rstNRise => Sys2Proof.Machine.execRstNRise s
  | .modeRequestConfigure q => Sys2Proof.Machine.execModeRequestConfigure q s
  | .modeRequestSelfTest q => Sys2Proof.Machine.execModeRequestSelfTest q s
  | .modeRequestCalibrate q => Sys2Proof.Machine.execModeRequestCalibrate q s
  | .modeRequestRun q => Sys2Proof.Machine.execModeRequestRun q s
  | .modeRequestHold q => Sys2Proof.Machine.execModeRequestHold q s
  | .modeRequestService q => Sys2Proof.Machine.execModeRequestService q s
  | .modeRequestSafe q => Sys2Proof.Machine.execModeRequestSafe q s
  | .modeRequestCurtainDown q => Sys2Proof.Machine.execModeRequestCurtainDown q s
  | .modeRequestBoot q => Sys2Proof.Machine.execModeRequestBoot q s
  | .selfTestDone dt fails cut => Sys2Proof.Machine.execSelfTestDone dt fails cut s
  | .syncTimeout => Sys2Proof.Machine.execSyncTimeout s
  | .runStart => Sys2Proof.Machine.execRunStart s
  | .holdEntry => Sys2Proof.Machine.execHoldEntry s
  | .holdExit => Sys2Proof.Machine.execHoldExit s
  | .overTempWarning unit dt tj => Sys2Proof.Machine.execOverTempWarning unit dt tj s
  | .overTempSafe unit dt tj => Sys2Proof.Machine.execOverTempSafe unit dt tj s
  | .thermalTrip unit dt => Sys2Proof.Machine.execThermalTrip unit dt s
  | .powerFailWarning dt mv => Sys2Proof.Machine.execPowerFailWarning dt mv s
  | .queueDiscard => Sys2Proof.Machine.execQueueDiscard s
  | .shutdownDone dt bad => Sys2Proof.Machine.execShutdownDone dt bad s
  | .emergencyDone dt => Sys2Proof.Machine.execEmergencyDone dt s
  | .vinLost unit dt mv => Sys2Proof.Machine.execVinLost unit dt mv s
  | .vinRestored unit dt => Sys2Proof.Machine.execVinRestored unit dt s
  | .buckFault k dt => Sys2Proof.Machine.execBuckFault k dt s
  | .watchdogTimeout x dt => Sys2Proof.Machine.execWatchdogTimeout x dt s
  | .hpRestart x dt => Sys2Proof.Machine.execHpRestart x dt s
  | .cbRecordRead q => Sys2Proof.Machine.execCbRecordRead q s
  | .gridHold r => Sys2Proof.Machine.execGridHold r s
  | .autoRangeDecision => Sys2Proof.Machine.execAutoRangeDecision s
  | .coreSlotBoundary k bg => Sys2Proof.Machine.execCoreSlotBoundary k bg s
  | .rawFrameArrival x f good dt => Sys2Proof.Machine.execRawFrameArrival x f good dt s
  | .rawFrameRelease full0 full1 => Sys2Proof.Machine.execRawFrameRelease full0 full1 s
  | .dieLinkFailed x f => Sys2Proof.Machine.execDieLinkFailed x f s
  | .excFault d dt ratio => Sys2Proof.Machine.execExcFault d dt ratio s
  | .excLatchedOff d => Sys2Proof.Machine.execExcLatchedOff d s
  | .excFaultClear q d => Sys2Proof.Machine.execExcFaultClear q d s
  | .excWindowEdge d => Sys2Proof.Machine.execExcWindowEdge d s
  | .excDriverTurnOn d => Sys2Proof.Machine.execExcDriverTurnOn d s
  | .excResync n => Sys2Proof.Machine.execExcResync n s
  | .gatedAverageOutput n => Sys2Proof.Machine.execGatedAverageOutput n s
  | .holdSkewMeasure skews => Sys2Proof.Machine.execHoldSkewMeasure skews s
  | .injSourceEdge k dt f rising => Sys2Proof.Machine.execInjSourceEdge k dt f rising s
  | .injSoftStart q k => Sys2Proof.Machine.execInjSoftStart q k s
  | .injectedHold k holds resid => Sys2Proof.Machine.execInjectedHold k holds resid s
  | .diagOutput k q => Sys2Proof.Machine.execDiagOutput k q s
  | .swingRequestTakeover q f c => Sys2Proof.Machine.execSwingRequestTakeover q f c s
  | .swingRequestReturn q f => Sys2Proof.Machine.execSwingRequestReturn q f s
  | .swingOverlapDone f diff => Sys2Proof.Machine.execSwingOverlapDone f diff s
  | .coreFault k => Sys2Proof.Machine.execCoreFault k s
  | .filterOutput n => Sys2Proof.Machine.execFilterOutput n s
  | .detectorUpdate d => Sys2Proof.Machine.execDetectorUpdate d s
  | .resyncRequest q v => Sys2Proof.Machine.execResyncRequest q v s
  | .bgCalRoundStart => Sys2Proof.Machine.execBgCalRoundStart s
  | .bgCalPhaseDone f mean spread => Sys2Proof.Machine.execBgCalPhaseDone f mean spread s
  | .bgCalNvmWrite bad => Sys2Proof.Machine.execBgCalNvmWrite bad s
  | .calStepDone r => Sys2Proof.Machine.execCalStepDone r s
  | .calCancel q => Sys2Proof.Machine.execCalCancel q s
  | .calRecordImport q b => Sys2Proof.Machine.execCalRecordImport q b s
  | .ppsInEdge dt f => Sys2Proof.Machine.execPpsInEdge dt f s
  | .refclkInValidChange valid => Sys2Proof.Machine.execRefclkInValidChange valid s
  | .todNext q w => Sys2Proof.Machine.execTodNext q w s
  | .timeMeasurement b freq => Sys2Proof.Machine.execTimeMeasurement b freq s
  | .timeSourceLost b => Sys2Proof.Machine.execTimeSourceLost b s
  | .servoStall b => Sys2Proof.Machine.execServoStall b s
  | .jumpAccept q b => Sys2Proof.Machine.execJumpAccept q b s
  | .timeStep b => Sys2Proof.Machine.execTimeStep b s
  | .set q b w => Sys2Proof.Machine.execSet q b w s
  | .incrementWrite q v => Sys2Proof.Machine.execIncrementWrite q v s
  | .sourceWrite q b port v => Sys2Proof.Machine.execSourceWrite q b port v s
  | .timebaseCompare differ => Sys2Proof.Machine.execTimebaseCompare differ s
  | .clockFault x => Sys2Proof.Machine.execClockFault x s
  | .ttSyncSend u dt f => Sys2Proof.Machine.execTtSyncSend u dt f s
  | .ttSyncReceive u dt f seq crc => Sys2Proof.Machine.execTtSyncReceive u dt f seq crc s
  | .ttDelaySend u dt f => Sys2Proof.Machine.execTtDelaySend u dt f s
  | .ttDelayReceive u dt f seq slaveState crc => Sys2Proof.Machine.execTtDelayReceive u dt f seq slaveState crc s
  | .ttFollowSend u => Sys2Proof.Machine.execTtFollowSend u s
  | .ttFollowReceive u dt m crc => Sys2Proof.Machine.execTtFollowReceive u dt m crc s
  | .ttExchangeFailed u => Sys2Proof.Machine.execTtExchangeFailed u s
  | .freqRatioMeasure u ratio => Sys2Proof.Machine.execFreqRatioMeasure u ratio s
  | .uplinkSourceReselect b => Sys2Proof.Machine.execUplinkSourceReselect b s
  | .xchkSecond => Sys2Proof.Machine.execXchkSecond s
  | .timeCueFire c => Sys2Proof.Machine.execTimeCueFire c s
  | .timeCueArm q c v => Sys2Proof.Machine.execTimeCueArm q c v s
  | .timeCueRearm q c count w => Sys2Proof.Machine.execTimeCueRearm q c count w s
  | .timeCuePeriodWrite q c v => Sys2Proof.Machine.execTimeCuePeriodWrite q c v s
  | .ppsOutPulse => Sys2Proof.Machine.execPpsOutPulse s
  | .ppsOutPulseEnd => Sys2Proof.Machine.execPpsOutPulseEnd s
  | .ptpAnnounce dt a => Sys2Proof.Machine.execPtpAnnounce dt a s
  | .ptpSync dt f lane4 twoStep p => Sys2Proof.Machine.execPtpSync dt f lane4 twoStep p s
  | .ptpFollowUp dt p => Sys2Proof.Machine.execPtpFollowUp dt p s
  | .ptpDelayReqSend dt f => Sys2Proof.Machine.execPtpDelayReqSend dt f s
  | .ptpDelayResp dt p mine => Sys2Proof.Machine.execPtpDelayResp dt p mine s
  | .ptpAnnounceTimeout dt => Sys2Proof.Machine.execPtpAnnounceTimeout dt s
  | .sequencerTick dt => Sys2Proof.Machine.execSequencerTick dt s
  | .seqTimerExpire t => Sys2Proof.Machine.execSeqTimerExpire t s
  | .seqCounterReached c => Sys2Proof.Machine.execSeqCounterReached c s
  | .comparatorEdge k dt f input => Sys2Proof.Machine.execComparatorEdge k dt f input s
  | .comparatorStamp k dt => Sys2Proof.Machine.execComparatorStamp k dt s
  | .cueFireInEdge dt f low => Sys2Proof.Machine.execCueFireInEdge dt f low s
  | .cueArmInEdge dt f high => Sys2Proof.Machine.execCueArmInEdge dt f high s
  | .armMessage l dt m crc => Sys2Proof.Machine.execArmMessage l dt m crc s
  | .disarmMessage l dt m crc => Sys2Proof.Machine.execDisarmMessage l dt m crc s
  | .fireMessage l dt m crc => Sys2Proof.Machine.execFireMessage l dt m crc s
  | .fireInject q v => Sys2Proof.Machine.execFireInject q v s
  | .armInject q v => Sys2Proof.Machine.execArmInject q v s
  | .softTrigger q v => Sys2Proof.Machine.execSoftTrigger q v s
  | .autoTimeout => Sys2Proof.Machine.execAutoTimeout s
  | .cueFirePulseEnd => Sys2Proof.Machine.execCueFirePulseEnd s
  | .eventSettleExpiry => Sys2Proof.Machine.execEventSettleExpiry s
  | .captureComplete n => Sys2Proof.Machine.execCaptureComplete n s
  | .release q n => Sys2Proof.Machine.execRelease q n s
  | .readoutStart q n => Sys2Proof.Machine.execReadoutStart q n s
  | .captureReadoutDone n => Sys2Proof.Machine.execCaptureReadoutDone n s
  | .captureDataRead q unit n => Sys2Proof.Machine.execCaptureDataRead q unit n s
  | .engineFrame => Sys2Proof.Machine.execEngineFrame s
  | .loopSafe l => Sys2Proof.Machine.execLoopSafe l s
  | .injectionDone l => Sys2Proof.Machine.execInjectionDone l s
  | .traceFull b => Sys2Proof.Machine.execTraceFull b s
  | .patternStepDone g => Sys2Proof.Machine.execPatternStepDone g s
  | .patternCueTimeout g => Sys2Proof.Machine.execPatternCueTimeout g s
  | .patternFault g => Sys2Proof.Machine.execPatternFault g s
  | .loopModeOff q l => Sys2Proof.Machine.execLoopModeOff q l s
  | .loopModeManual q l => Sys2Proof.Machine.execLoopModeManual q l s
  | .loopModeHysteretic q l => Sys2Proof.Machine.execLoopModeHysteretic q l s
  | .loopModeProfile q l => Sys2Proof.Machine.execLoopModeProfile q l s
  | .loopModeTune q l => Sys2Proof.Machine.execLoopModeTune q l s
  | .manualOutput q l v => Sys2Proof.Machine.execManualOutput q l v s
  | .target q l v => Sys2Proof.Machine.execTarget q l v s
  | .injGo q l => Sys2Proof.Machine.execInjGo q l s
  | .traceGoStart q b => Sys2Proof.Machine.execTraceGoStart q b s
  | .traceGoStop q b => Sys2Proof.Machine.execTraceGoStop q b s
  | .traceDataRead q b n => Sys2Proof.Machine.execTraceDataRead q b n s
  | .hostLevel q o v => Sys2Proof.Machine.execHostLevel q o v s
  | .ctlPulseEnd o => Sys2Proof.Machine.execCtlPulseEnd o s
  | .ctlFault o dt => Sys2Proof.Machine.execCtlFault o dt s
  | .ctlFaultClear q o => Sys2Proof.Machine.execCtlFaultClear q o s
  | .flOvercurrent k dt again => Sys2Proof.Machine.execFlOvercurrent k dt again s
  | .flOpen k dt => Sys2Proof.Machine.execFlOpen k dt s
  | .flOpenRetry k ok => Sys2Proof.Machine.execFlOpenRetry k ok s
  | .flLatchedOff k => Sys2Proof.Machine.execFlLatchedOff k s
  | .flFaultClear q n => Sys2Proof.Machine.execFlFaultClear q n s
  | .engGoStart q g => Sys2Proof.Machine.execEngGoStart q g s
  | .engGoStop q g => Sys2Proof.Machine.execEngGoStop q g s
  | .relinquish x c item => Sys2Proof.Machine.execRelinquish x c item s
  | .handover => Sys2Proof.Machine.execHandover s
  | .takeMessage f dt => Sys2Proof.Machine.execTakeMessage f dt s
  | .arbiterFailover f clock => Sys2Proof.Machine.execArbiterFailover f clock s
  | .feCommandTimeout f => Sys2Proof.Machine.execFeCommandTimeout f s
  | .peerLinkLost crc => Sys2Proof.Machine.execPeerLinkLost crc s
  | .peerLinkRetry ok => Sys2Proof.Machine.execPeerLinkRetry ok s
  | .peerWriteTimeout unit sub => Sys2Proof.Machine.execPeerWriteTimeout unit sub s
  | .islandSilent x => Sys2Proof.Machine.execIslandSilent x s
  | .crossCompare dt bad => Sys2Proof.Machine.execCrossCompare dt bad s
  | .eccRate x n => Sys2Proof.Machine.execEccRate x n s
  | .roleElection sel r0 r1 => Sys2Proof.Machine.execRoleElection sel r0 r1 s
  | .peerLinkBootTimeout sel r0 r1 => Sys2Proof.Machine.execPeerLinkBootTimeout sel r0 r1 s
  | .roleRecovery x => Sys2Proof.Machine.execRoleRecovery x s
  | .readmission => Sys2Proof.Machine.execReadmission s
  | .readmitRequest q => Sys2Proof.Machine.execReadmitRequest q s
  | .readmitsRestore => Sys2Proof.Machine.execReadmitsRestore s
  | .roleSwapRequest q => Sys2Proof.Machine.execRoleSwapRequest q s
  | .frameRx l dt words aborted => Sys2Proof.Machine.execFrameRx l dt words aborted s
  | .gapRecordRx l dt words => Sys2Proof.Machine.execGapRecordRx l dt words s
  | .recordFrameMaxAge q => Sys2Proof.Machine.execRecordFrameMaxAge q s
  | .gapRecordIssue => Sys2Proof.Machine.execGapRecordIssue s
  | .fwdTimeout j => Sys2Proof.Machine.execFwdTimeout j s
  | .fwdStreamSilent j => Sys2Proof.Machine.execFwdStreamSilent j s
  | .queueFlush q x => Sys2Proof.Machine.execQueueFlush q x s
  | .laneTxBlock l dt poison => Sys2Proof.Machine.execLaneTxBlock l dt poison s
  | .laneEnable q l v => Sys2Proof.Machine.execLaneEnable q l v s
  | .laneConfigWrite q l o v => Sys2Proof.Machine.execLaneConfigWrite q l o v s
  | .receiverDetectStep l found => Sys2Proof.Machine.execReceiverDetectStep l found s
  | .laneDetectDone l dt => Sys2Proof.Machine.execLaneDetectDone l dt s
  | .laneHalfDetect l dt signal => Sys2Proof.Machine.execLaneHalfDetect l dt signal s
  | .trainingWordRx l dt w => Sys2Proof.Machine.execTrainingWordRx l dt w s
  | .trainPassDone l dt e => Sys2Proof.Machine.execTrainPassDone l dt e s
  | .trainTimeout l => Sys2Proof.Machine.execTrainTimeout l s
  | .trainSignalLost l dt => Sys2Proof.Machine.execTrainSignalLost l dt s
  | .blockLock l dt => Sys2Proof.Machine.execBlockLock l dt s
  | .lockTimeout l => Sys2Proof.Machine.execLockTimeout l s
  | .cap l dt c crc => Sys2Proof.Machine.execCap l dt c crc s
  | .capResend l => Sys2Proof.Machine.execCapResend l s
  | .exchangeTimeout l => Sys2Proof.Machine.execExchangeTimeout l s
  | .laneSignalLost l dt => Sys2Proof.Machine.execLaneSignalLost l dt s
  | .syncHeaderErrors l dt n wide => Sys2Proof.Machine.execSyncHeaderErrors l dt n wide s
  | .retrain q l => Sys2Proof.Machine.execRetrain q l s
  | .pllUnlock p dt => Sys2Proof.Machine.execPllUnlock p dt s
  | .laneRetry l => Sys2Proof.Machine.execLaneRetry l s
  | .eyeScan l e => Sys2Proof.Machine.execEyeScan l e s
  | .lpmRequestL1 q l => Sys2Proof.Machine.execLpmRequestL1 q l s
  | .lpmRequestL2 q l => Sys2Proof.Machine.execLpmRequestL2 q l s
  | .lpmRequestNone q l => Sys2Proof.Machine.execLpmRequestNone q l s
  | .lpEnter l dt target crc => Sys2Proof.Machine.execLpEnter l dt target crc s
  | .lpAck l dt accepted crc => Sys2Proof.Machine.execLpAck l dt accepted crc s
  | .lpAckTimeout l => Sys2Proof.Machine.execLpAckTimeout l s
  | .lpRequestRepeat l => Sys2Proof.Machine.execLpRequestRepeat l s
  | .laneWake l dt far => Sys2Proof.Machine.execLaneWake l dt far s
  | .lpNoWakeTimeout l dt => Sys2Proof.Machine.execLpNoWakeTimeout l dt s
  | .loopbackNearSerial q l => Sys2Proof.Machine.execLoopbackNearSerial q l s
  | .loopbackNearParallel q l => Sys2Proof.Machine.execLoopbackNearParallel q l s
  | .loopbackFar q l => Sys2Proof.Machine.execLoopbackFar q l s
  | .loopbackStop q l => Sys2Proof.Machine.execLoopbackStop q l s
  | .floopReq l dt start crc => Sys2Proof.Machine.execFloopReq l dt start crc s
  | .floopAck l dt accepted crc => Sys2Proof.Machine.execFloopAck l dt accepted crc s
  | .farLoopTimeout l => Sys2Proof.Machine.execFarLoopTimeout l s
  | .horol l dt m crc nvm => Sys2Proof.Machine.execHorol l dt m crc nvm s
  | .arpRequestRx u dt target fcs => Sys2Proof.Machine.execArpRequestRx u dt target fcs s
  | .neighborSolicitationRx u dt target fcs => Sys2Proof.Machine.execNeighborSolicitationRx u dt target fcs s
  | .echoRequestRx u dt v6 target size fcs => Sys2Proof.Machine.execEchoRequestRx u dt v6 target size fcs s
  | .resolveRequest u => Sys2Proof.Machine.execResolveRequest u s
  | .resolveRefresh u => Sys2Proof.Machine.execResolveRefresh u s
  | .resolveDrop u => Sys2Proof.Machine.execResolveDrop u s
  | .membershipReport u => Sys2Proof.Machine.execMembershipReport u s
  | .ethFault u dt remote => Sys2Proof.Machine.execEthFault u dt remote s
  | .ethFaultEnd u => Sys2Proof.Machine.execEthFaultEnd u s
  | .read q unit sub staged => Sys2Proof.Machine.execRead q unit sub staged s
  | .write q unit sub b => Sys2Proof.Machine.execWrite q unit sub b s
  | .stage q unit sub b => Sys2Proof.Machine.execStage q unit sub b s
  | .stageClear q => Sys2Proof.Machine.execStageClear q s
  | .commitPrepare q id w => Sys2Proof.Machine.execCommitPrepare q id w s
  | .commitConfirm q id w => Sys2Proof.Machine.execCommitConfirm q id w s
  | .commitPrepareConfirm q id w => Sys2Proof.Machine.execCommitPrepareConfirm q id w s
  | .commitApply => Sys2Proof.Machine.execCommitApply s
  | .commitExpire => Sys2Proof.Machine.execCommitExpire s
  | .abortCommit q id => Sys2Proof.Machine.execAbortCommit q id s
  | .abortTransfer q t => Sys2Proof.Machine.execAbortTransfer q t s
  | .blockRead q unit sub n => Sys2Proof.Machine.execBlockRead q unit sub n s
  | .blockWrite q unit sub seg staged len b => Sys2Proof.Machine.execBlockWrite q unit sub seg staged len b s
  | .transferIncomplete => Sys2Proof.Machine.execTransferIncomplete s
  | .heartbeat q => Sys2Proof.Machine.execHeartbeat q s
  | .heartbeatSend => Sys2Proof.Machine.execHeartbeatSend s
  | .serviceUnknown q c unit sub => Sys2Proof.Machine.execServiceUnknown q c unit sub s
  | .request p fd fn node b dt nvm => Sys2Proof.Machine.execRequest p fd fn node b dt nvm s
  | .tunnelRequest p node dest b dt nvm => Sys2Proof.Machine.execTunnelRequest p node dest b dt nvm s
  | .canBusOff p dt => Sys2Proof.Machine.execCanBusOff p dt s
  | .canBusOffRecovery p dt => Sys2Proof.Machine.execCanBusOffRecovery p dt s
  | .doorbell v dt nvm => Sys2Proof.Machine.execDoorbell v dt nvm s
  | .fwTargetSlot q v => Sys2Proof.Machine.execFwTargetSlot q v s
  | .fwErase q => Sys2Proof.Machine.execFwErase q s
  | .fwData q b => Sys2Proof.Machine.execFwData q b s
  | .fwVerify q => Sys2Proof.Machine.execFwVerify q s
  | .fwBootSlot q x v => Sys2Proof.Machine.execFwBootSlot q x v s
  | .configSaveStore q => Sys2Proof.Machine.execConfigSaveStore q s
  | .configSaveErase q => Sys2Proof.Machine.execConfigSaveErase q s
  | .mirrorRead a dt => Sys2Proof.Machine.execMirrorRead a dt s
  | .mirrorWrite a v dt nvm => Sys2Proof.Machine.execMirrorWrite a v dt nvm s
  | .mirrorPortHandover dt idle a => Sys2Proof.Machine.execMirrorPortHandover dt idle a s
  | .grScrub x dt fixed bad pass => Sys2Proof.Machine.execGrScrub x dt fixed bad pass s
  | .mdScrub m dt n bad pass => Sys2Proof.Machine.execMdScrub m dt n bad pass s
  | .grCountersClear q => Sys2Proof.Machine.execGrCountersClear q s
  | .excFaultCleared d dt => Sys2Proof.Machine.execExcFaultCleared d dt s
  | .mdInterfaceLost x => Sys2Proof.Machine.execMdInterfaceLost x s
  | .dieBringupComplete unit dt => Sys2Proof.Machine.execDieBringupComplete unit dt s
  | .arpReplyRx u dt sender mac fcs => Sys2Proof.Machine.execArpReplyRx u dt sender mac fcs s
  | .neighborAdvertisementRx u dt target mac fcs => Sys2Proof.Machine.execNeighborAdvertisementRx u dt target mac fcs s

end Sys2Proof.Machine
end

