-- ==== Sys2Proof/WellFormed.lean ====
section
/-! DEFINITION. Which commands can reach the block at all: the operands that a type alone does not bound (frame sizes, PDU sizes,
die numbers in lists, address widths). A command that fails this stands for nothing the outside world can send; `exec` still
answers a next state for it. -/
namespace Sys2Proof

/-- A list of a frame or message is at most as long as its carrier allows. -/
def atMost {α : Type} (n : Nat) (l : List α) : Bool := l.length ≤ n

/-- The entries of a list of failures name dies below `n`. -/
def diesBelow (n : Nat) (l : List (Nat × Nat)) : Bool := l.all (fun e => e.2 < n)

/-- The fields of a trigger message fit their widths (Table 13.7). -/
def TrigMsg.wf (m : TrigMsg) : Bool := m.hub < 65536 && m.num < 65536 && m.time < 2 ^ 96

/-- The fields of TT_FOLLOW fit their widths (Table 13.7). -/
def TtFollow.wf (m : TtFollow) : Bool :=
  m.seq < 65536 && m.arrayQuality < 8 && m.siteQuality < 8 && m.level < 256 && m.hub < 65536 && m.increment < 2 ^ 48

/-- The fields of a PTP message fit their widths (R415). -/
def PtpHead.wf (m : PtpHead) : Bool := m.version < 16 && m.domain < 256 && m.sender < 2 ^ 80 && m.seq < 65536
def PtpAnnounce.wf (m : PtpAnnounce) : Bool :=
  m.version < 16 && m.domain < 256 && m.sender < 2 ^ 80 && m.gm < 2 ^ 64 && m.priority1 < 256 && m.clockClass < 256 &&
    m.accuracy < 256 && m.variance < 65536 && m.priority2 < 256 && m.steps < 65536

/-- The command is one that a sender, a peer, a pin or a measurement can produce. -/
def Instr.wf : Instr → Bool
  | .request _ _ _ _ b _ _ => atMost 64 b
  | .tunnelRequest _ _ _ b _ _ => atMost 62 b
  | .horol _ _ m _ _ => atMost 64 m.pdu && !m.pdu.isEmpty
  | .write _ _ _ b => atMost 16383 b
  | .stage _ _ _ b => atMost 16383 b
  | .blockWrite _ _ _ _ _ _ b => atMost 54 b
  | .calRecordImport _ b => atMost 13824 b
  | .fwData _ b => atMost 13824 b
  | .serviceUnknown _ c _ _ => c.val = 0 || c.val = 7 || 10 ≤ c.val
  | .injectedHold _ holds _ => atMost 4 holds
  | .holdSkewMeasure skews => atMost 4 skews
  | .gridHold r => atMost 384 r.volts && atMost 384 r.trips && atMost 96 r.senses
  | .frameRx _ _ words _ => words.all (· < 2 ^ 32)
  | .gapRecordRx _ _ words => words.all (· < 2 ^ 32)
  | .armMessage _ _ m _ => m.wf
  | .disarmMessage _ _ m _ => m.wf
  | .fireMessage _ _ m _ => m.wf
  | .ttFollowReceive _ _ m _ => m.wf
  | .ptpAnnounce _ m => m.wf
  | .ptpSync _ _ _ _ m => m.wf
  | .ptpFollowUp _ m => m.wf
  | .ptpDelayResp _ m r => m.wf && r < 2 ^ 80
  | .shutdownDone _ bad => diesBelow 2 bad
  | .bgCalNvmWrite bad => diesBelow 2 bad
  | .bootComplete _ trims => diesBelow 65536 trims
  | .selfTestDone _ fails _ => fails.all (fun e => e.1 < 8)
  | .grScrub _ _ _ bad _ => bad.all (· < 2 ^ 24)
  | .relinquish _ _ item => item < 2 ^ 24
  | .arpRequestRx _ _ a _ => a < 2 ^ 32
  | .arpReplyRx _ _ sender mac _ => sender < 2 ^ 32 && mac < 2 ^ 48
  | .neighborSolicitationRx _ _ a _ => a < 2 ^ 128
  | .neighborAdvertisementRx _ _ a mac _ => a < 2 ^ 128 && mac < 2 ^ 48
  | .echoRequestRx _ _ _ a _ _ => a < 2 ^ 128
  | _ => true

end Sys2Proof
end

