-- ==== Sys2Proof/Safety.lean ====
section
/-! DEFINITION. The terms in which claims are stated: the mode block that every step keeps legal, the canonical object store, and
when a request of a client is served and a write of it granted. -/
namespace Sys2Proof.Machine

/-! ### Invariants -/

/-- The modes that a HOLD request or an exit from HOLD waits in (R59, R61). -/
def Mode.running : Mode → Bool
  | .run | .runSimplex => true
  | _ => false

/-- The mode block is legal: SAFE_CAUSE stands exactly in SAFE, which was entered from a mode that Table 2.3 lets go there; a
HOLD request waits in RUN or RUN-SIMPLEX and an exit from HOLD waits in HOLD; and a run cue is known in SYNC or beside a
transition that waits for it alone (R57 to R64). -/
def ModeBlock.legal (b : ModeBlock) : Bool :=
  (decide (b.mode = .safe) == decide (b.safeCause ≠ 0)) &&
  (if b.mode = .safe then canSafe b.safeFrom && b.safeFrom ≠ .safe else b.safeFrom = .curtainDown) &&
  (b.next = none || (b.next = some .hold && b.mode.running) || (b.next = some .run && b.mode = .hold)) &&
  (b.cue = none || b.mode = .sync || b.next ≠ none)

/-- The object store is in its canonical form: keys strictly rising, and no entry equal to the object's default. -/
def State.storeWf (s : State) : Bool := Objs.wf s.hub.objs

/-! ### Requests -/

/-- The hub as a request of `q` finds it. -/
def arrived (q : ReqHead) (s : State) : Hub := ({ s.hub with out := [] }).waitTicks q.dt

/-- A request with the head of its client. -/
def headed (q : ReqHead) (r : SrvReq) : SrvReq := { r with src := q.src, tx := q.tx, nvm := q.nvm }

/-- The command that waits behind a request neither leaves a write of it unconfirmed nor makes a transition of the same instant that
prevails over the one it asks for (R43, R65). -/
def quiet (mb : ModeBlock) (h : Hub) (r : SrvReq) (next : Option Instr) : Bool :=
  (!r.asksMode || rivalOf mb h next = 0) && !unconfirmedBy h r next

/-- A request reaches the object server, repeats none answered within the last 1 s (R427, R440, R441), and nothing of its own instant
prevails over it. -/
structure Reaches (q : ReqHead) (r : SrvReq) (s : State) : Prop where
  up : s.mb.up = true
  carrier : s.hub.carrierOpen q.src = true
  here : s.hub.serverAway = false
  fresh : (arrived q s).stored (headed q r) = none
  calm : quiet s.mb (arrived q s) (headed q r) s.pending.head? = true

/-- A write passes the checks of R423, the house check where a budget counts it, the refusals of its own object, and its write of
NVM where it needs one. -/
structure Granted (q : ReqHead) (k len v : Nat) (act : Act) (s : State) : Prop where
  reaches : Reaches q (writeReq k len v) s
  checks : writeCheck s.mb (arrived q s) false k len v = 0
  budget : ((arrived q s).budgetCheck k v).1 = 0
  own : (act.refuse s.mb ((arrived q s).budgetCheck k v).2).1 = 0
  nvm : act.stored = true → q.nvm = true

/-- The hub once a write is granted: the house check has left its findings. -/
def grantedHub (q : ReqHead) (k v : Nat) (act : Act) (s : State) : Hub :=
  (act.refuse s.mb ((arrived q s).budgetCheck k v).2).2

/-- The hub on which a granted write acts, once it is passed to the peer (R43): at the raw-frame boundary that follows its arrival, unless it is acted on at once (R40,
Table 14.3). -/
def checkedHub (q : ReqHead) (k v : Nat) (act : Act) (s : State) : Hub := act.at_ s.mb ((grantedHub q k v act s).passOn k)

/-- What a granted write is answered with: no data, or nothing before the event that its response waits for. -/
def grantedReply (q : ReqHead) (k v : Nat) (act : Act) (s : State) : Reply :=
  let place := act.held s.mb (grantedHub q k v act s)
  if place = 0 then .data [] else .held place

/-- The state after a granted write: what the act brings about, and the answer. -/
def written (q : ReqHead) (k len v : Nat) (act : Act) (s : State) : State :=
  let e := act.apply s.mb (checkedHub q k v act s)
  { s with
    mb := e.1
    hub := e.2.answer (headed q (writeReq k len v)) (grantedReply q k v act s) }

/-! ### The rows that are requests of a client -/

/-- The write that a row of its own stands for: its client, the key, the length in bytes, the value, and the act. -/
def asWrite : Instr → Option (ReqHead × Nat × Nat × Nat × Act)
  | .modeRequestConfigure q => some (q, Obj.modeRequest, 1, 2, actMode 2)
  | .modeRequestSelfTest q => some (q, Obj.modeRequest, 1, 3, actMode 3)
  | .modeRequestCalibrate q => some (q, Obj.modeRequest, 1, 4, actMode 4)
  | .modeRequestRun q => some (q, Obj.modeRequest, 1, 6, actMode 6)
  | .modeRequestHold q => some (q, Obj.modeRequest, 1, 8, actMode 8)
  | .modeRequestService q => some (q, Obj.modeRequest, 1, 9, actMode 9)
  | .modeRequestSafe q => some (q, Obj.modeRequest, 1, 10, actMode 10)
  | .modeRequestCurtainDown q => some (q, Obj.modeRequest, 1, 0, actMode 0)
  | .modeRequestBoot q => some (q, Obj.modeRequest, 1, 1, actMode 1)
  | .excFaultClear q d => some (q, Obj.excFaultClear d, 1, 1, actExcFaultClear d)
  | .injSoftStart q k => some (q, Obj.coreInjSoftStart k, 1, 1, actInjSoftStart k)
  | .swingRequestTakeover q f c => some (q, Obj.swingRequest f, 1, c, actSwing f c)
  | .swingRequestReturn q f => some (q, Obj.swingRequest f, 1, 0xFE, actSwing f 0xFE)
  | .resyncRequest q v => some (q, Obj.resyncRequest, 2, v, actResync v)
  | .calCancel q => some (q, Obj.calCancel, 1, 1, actCalCancel)
  | .todNext q w => some (q, Obj.todNext, 12, w, actTodNext w)
  | .jumpAccept q b => some (q, Obj.tbJumpAccept b, 1, 1, actJumpAccept b)
  | .set q b w => some (q, Obj.tbSet b, 12, w, actSet b w)
  | .incrementWrite q v => some (q, Obj.tbIncrement 3, 8, v, actStore (Obj.tbIncrement 3) v)
  | .timeCueArm q c v => some (q, Obj.cueArm c, 1, b2n v, actCueArm c (b2n v))
  | .timeCuePeriodWrite q c v => some (q, Obj.cuePeriod c, 8, v, actCue c (Obj.cuePeriod c) v)
  | .fireInject q v => some (q, Obj.fireInject, 17, v, actFireInject v)
  | .armInject q v => some (q, Obj.armInject, 17, v, actArmInject v)
  | .softTrigger q v => some (q, Obj.softTrigger, 1, v, actSoftTrigger v)
  | .release q n => some (q, Obj.slotRelease n, 1, 1, actRelease n)
  | .readoutStart q n => some (q, Obj.slotReadoutStart n, 1, 1, actReadout n)
  | .loopModeOff q l => some (q, Obj.loopLoopMode l, 1, 0, actLoopMode l 0)
  | .loopModeManual q l => some (q, Obj.loopLoopMode l, 1, 1, actLoopMode l 1)
  | .loopModeHysteretic q l => some (q, Obj.loopLoopMode l, 1, 2, actLoopMode l 2)
  | .loopModeProfile q l => some (q, Obj.loopLoopMode l, 1, 3, actLoopMode l 3)
  | .loopModeTune q l => some (q, Obj.loopLoopMode l, 1, 4, actLoopMode l 4)
  | .manualOutput q l v => some (q, Obj.loopManualOutput l, 2, v, actManual l v)
  | .target q l v => some (q, Obj.genTarget l, 8, v, actTarget l v)
  | .injGo q l => some (q, Obj.injInjGo l, 1, 1, actInjGo l)
  | .traceGoStart q b => some (q, Obj.traceTraceGo b, 1, 1, actTraceGo b 1)
  | .traceGoStop q b => some (q, Obj.traceTraceGo b, 1, 0, actTraceGo b 0)
  | .hostLevel q o v => some (q, Obj.ctlHostLevel o, 1, b2n v, actHostLevel o (b2n v))
  | .ctlFaultClear q o => some (q, Obj.ctlFaultClear o, 1, 1, actCtlFaultClear o)
  | .flFaultClear q n => some (q, Obj.flFaultClear n, 1, 1, actFlFaultClear n)
  | .engGoStart q g => some (q, Obj.engEngGo g, 1, 1, actEngGo g 1)
  | .engGoStop q g => some (q, Obj.engEngGo g, 1, 0, actEngGo g 0)
  | .readmitRequest q => some (q, Obj.readmitRequest, 1, 1, actReadmit)
  | .roleSwapRequest q => some (q, Obj.roleSwapRequest, 1, 1, actRoleSwap)
  | .queueFlush q x => some (q, Obj.queueFlush x, 1, 1, actFlush x)
  | .laneEnable q l v => some (q, Obj.laneEnable l, 1, b2n v, actStore (Obj.laneEnable l) (b2n v))
  | .retrain q l => some (q, Obj.laneRetrain l, 1, 1, actRetrain l)
  | .lpmRequestL1 q l => some (q, Obj.laneLpmRequest l, 1, 1, actStore (Obj.laneLpmRequest l) 1)
  | .lpmRequestL2 q l => some (q, Obj.laneLpmRequest l, 1, 2, actStore (Obj.laneLpmRequest l) 2)
  | .lpmRequestNone q l => some (q, Obj.laneLpmRequest l, 1, 0, actStore (Obj.laneLpmRequest l) 0)
  | .loopbackNearSerial q l => some (q, Obj.laneLoopback l, 1, 1, actLoopback l 1)
  | .loopbackNearParallel q l => some (q, Obj.laneLoopback l, 1, 2, actLoopback l 2)
  | .loopbackFar q l => some (q, Obj.laneLoopback l, 1, 3, actLoopback l 3)
  | .loopbackStop q l => some (q, Obj.laneLoopback l, 1, 0, actLoopback l 0)
  | .stageClear q => some (q, Obj.stageClear, 1, 1, actStageClear)
  | .configSaveStore q => some (q, Obj.configSave, 1, 1, actConfigSave)
  | .configSaveErase q => some (q, Obj.configSave, 1, 2, actConfigErase)
  | .fwTargetSlot q v => some (q, Obj.fwTargetSlot, 1, v, actFwTarget v)
  | .fwErase q => some (q, Obj.fwErase, 1, 1, actFwErase)
  | .fwVerify q => some (q, Obj.fwVerify, 1, 1, actFwVerify)
  | .fwBootSlot q x v => some (q, Obj.fwBootSlot x, 1, v, actStore (Obj.fwBootSlot x) v)
  | .grCountersClear q => some (q, Obj.grCountersClear, 1, 1, actGrClear)
  | .sourceWrite q b port v =>
    let k := if port then Obj.tbSourcePort b else Obj.tbSource b
    some (q, k, 1, v, actStore k v)
  | .timeCueRearm q c count w =>
    let k := if count then Obj.cueCount c else Obj.cueInstant c
    let v := if count then w.val % 4294967296 else w.val
    some (q, k, if count then 4 else 12, v, actCue c k v)
  | .laneConfigWrite q l o v => some (q, laneFieldKey o l, 1, v, actStore (laneFieldKey o l) v)
  | _ => none

/-- The request that a row for a service or a block transfer stands for, with its client. -/
def asService : Instr → Option (ReqHead × SrvReq)
  | .calRecordImport q b => some (q, blockReq Obj.calRecordImport (b.map (·.val)))
  | .fwData q b => some (q, blockReq Obj.fwData (b.map (·.val)))
  | .cbRecordRead q => some (q, rowReq 1 (Obj.cbRecord / 256) (Obj.cbRecord % 256) 0 false 0 [])
  | .captureDataRead q j n => some (q, rowReq 5 (Obj.slotData j / 256) (Obj.slotData j % 256) 0 false 2 (toBytes 2 n))
  | .traceDataRead q b n => some (q, rowReq 5 (Obj.traceTraceData b / 256) (Obj.traceTraceData b % 256) 0 false 2 (toBytes 2 n))
  | .read q j sub staged => some (q, rowReq 1 j sub 0 staged 0 [])
  | .write q j sub b => some (q, rowReq 2 j sub 0 false b.length (b.map (·.val)))
  | .stage q j sub b => some (q, rowReq 3 j sub 0 false b.length (b.map (·.val)))
  | .commitPrepare q id w => some (q, commitReq 1 id w)
  | .commitConfirm q id w => some (q, commitReq 2 id w)
  | .commitPrepareConfirm q id w => some (q, commitReq 3 id w)
  | .abortCommit q id => some (q, rowReq 9 0 0 0 false 4 ([1, 0] ++ toBytes 2 id))
  | .abortTransfer q t => some (q, rowReq 9 0 0 0 false 4 [0, t, 0, 0])
  | .blockRead q j sub n => some (q, rowReq 5 j sub 0 false 2 (toBytes 2 n))
  | .blockWrite q j sub seg staged len b => some (q, rowReq 6 j sub seg staged len (b.map (·.val)))
  | .heartbeat q => some (q, rowReq 8 0 0 0 false 0 [])
  | .serviceUnknown q c j sub => some (q, rowReq c j sub 0 false 0 [])
  | _ => none

/-- The request that a row stands for, with its client; none for a row that is no request. -/
def asRequest (c : Instr) : Option (ReqHead × SrvReq) :=
  match asWrite c with
  | some (q, k, len, v, _) => some (q, writeReq k len v)
  | none => asService c

/-- The counters that an answer and its sending may advance: REQUESTS, ABORTS_SENT, CB_LOST and MSG_DROPPED of a lane. -/
def answerCounter (k : Nat) : Prop :=
  k = Obj.requests ∨ k = Obj.abortsSent ∨ k = Obj.cbLost ∨ ∃ l, l < 16 ∧ k = Obj.laneMsgDropped l

/-- The hub without what an answer and its sending change: the counters of the store, the callboard, the message queues of the
lanes, the mailbox, the server's own tables and what is sent. -/
def Hub.sansAnswer (h : Hub) : Hub :=
  { h with objs := [], cb := {}, lanes := Vector.replicate 16 {}, mir := {}, srv := {}, out := [] }

/-! ### Lanes -/

/-- A command takes lane `l` into state `st` (Table 13.2) and leaves the mode and the state of every other lane alone. -/
def LaneGoes (s : State) (l : Nat) (c : Instr) (st : Nat) : Prop :=
  ∃ t, exec c s = .next t ∧ t.mb = s.mb ∧ t.hub.get (Obj.laneState l) = st ∧
    ∀ i, i < 16 → i ≠ l → t.hub.get (Obj.laneState i) = s.hub.get (Obj.laneState i)

/-- A command takes lane `l` into DOWN with LAST_FAIL `fail`, and counts it (R398). -/
def LaneFails (s : State) (l : Nat) (c : Instr) (fail : Nat) : Prop :=
  ∃ t, exec c s = .next t ∧ t.mb = s.mb ∧ t.hub.get (Obj.laneState l) = 9 ∧ t.hub.get (Obj.laneLastFail l) = fail ∧
    t.hub.get (Obj.laneFailCount l) = (s.hub.get (Obj.laneFailCount l) + 1) % 2 ^ 32

end Sys2Proof.Machine
end

