-- ==== Sys2Proof/Certificates/Slice0/Obligations.lean ====
section
/-! DEFINITION. The statements for the provers. Each docstring names the rules of spec/ that it formalises. -/
open Sys2Proof Sys2Proof.Machine

/-- The command at the front of the queue is the one that runs, on the state with the rest of the queue (the block's step).
(Model's choices within it: log 3.) -/
def Obligations.StepRunsFront : Prop :=
  ∀ (c : Instr) (rest : List Instr) (s : State), s.pending = c :: rest → step s = exec c { s with pending := rest }

/-- An idle block lets one 4 ns tick pass: LOCAL counts it and each base adds its INCREMENT (R195); in CURTAIN-DOWN nothing
runs. That an idle step is one tick is the model's choice (notes/assumptions/2.md). -/
def Obligations.IdleTick : Prop :=
  ∀ s : State, s.pending = [] →
    (s.mb.mode = .curtainDown → step s = .next s) ∧
    (s.mb.mode ≠ .curtainDown → ∃ t, step s = .next t ∧ t.mb = s.mb ∧ t.hub.objs = s.hub.objs ∧
      t.hub.time.ticks = s.hub.time.ticks + 1 ∧ t.hub.time.array = s.hub.time.array + s.hub.incr 0 ∧
      t.hub.time.site = s.hub.time.site + s.hub.incr 1 ∧ t.hub.time.host = s.hub.time.host + s.hub.incr 3)

/-- Every command answers a next state and leaves the queue of waiting commands alone: nothing is faulted or refused.
(Model's choices within it: log 4.) -/
def Obligations.EveryCommandRuns : Prop :=
  ∀ (c : Instr) (s : State), ∃ t, exec c s = .next t ∧ t.pending = s.pending

/-- The mode block stays legal through every step (R57 to R64): SAFE_CAUSE stands exactly in SAFE, SAFE is entered only from the
modes Table 2.3 lets go there, and a waiting transition belongs to the mode it waits in. -/
def Obligations.ModeLegalKept : Prop :=
  ∀ s t : State, s.mb.legal = true → step s = .next t → t.mb.legal = true

/-- The mode block after reset is legal. -/
def Obligations.ModeLegalAtReset : Prop := State.reset.mb.legal = true

/-- Before power the hub stands in CURTAIN-DOWN: no supply, no rail, no command waiting, and every object reads as its default.
That the state before the first POWER_ON is this one is the model's choice (notes/assumptions/1.md). -/
def Obligations.ResetIsUnpowered : Prop :=
  State.reset.mb.mode = .curtainDown ∧ State.reset.pending = [] ∧ State.reset.storeWf = true ∧
    State.reset.hub.pow.vinA = false ∧ State.reset.hub.pow.vinB = false ∧ State.reset.hub.pow.rail = false ∧
    ∀ k, State.reset.hub.get k = Catalog.dflt k

/-- A hub in CURTAIN-DOWN or BOOT serves no object: whatever a client asks changes nothing (R54, R67, R427). -/
def Obligations.DownServesNothing : Prop :=
  ∀ (c : Instr) (q : ReqHead) (r : SrvReq) (s : State), asRequest c = some (q, r) → s.mb.up = false →
    exec c s = .next { s with hub := { s.hub with out := [] } }

/-- R440: a request that repeats one answered within the last 1 s is not executed again. The stored response is sent again, and
DUPLICATE_REQUESTS is incremented; the mode and every other object stay as they were. So with the segment that completes a
BLOCK-WRITE that repeats. A request repeats another when carrier, origin, TRANSACTION, service, index, subindex and data are the
same; and the table of answered requests passes to the new Lead at a hand-over. -/
def Obligations.RepeatIsNotExecuted : Prop :=
  (∀ (c : Instr) (q : ReqHead) (r : SrvReq) (a : Answered) (s : State), asRequest c = some (q, r) →
    s.mb.up = true → s.hub.carrierOpen q.src = true → s.hub.serverAway = false →
    (∀ k (h : Hub), ¬ answerCounter k → k ≠ Obj.duplicateRequests → (h.repeatAnswer a).get k = h.get k) ∧
    ((arrived q s).repeatAnswer a).get Obj.duplicateRequests = (s.hub.get Obj.duplicateRequests + 1) % 2 ^ 32 ∧
    (r.service ≠ 6 ∨ r.inOne = true → (arrived q s).stored (headed q r) = some a →
      exec c s = .next { s with hub := (arrived q s).repeatAnswer a }) ∧
    (∀ x b, r.service = 6 → r.inOne = false → r.formBad = 0 →
      s.hub.srv.transfers.find? (fun u => u.takes (headed q r)) = some x →
      ({ x with segs := (r.segment, r.data) :: x.segs.filter (fun e => e.1 ≠ r.segment) } : Transfer).whole = some b →
      (arrived q s).stored { headed q r with data := b, segment := 0 } = some a →
      exec c s = .next { s with hub := ((arrived q s).modSrv (fun v => { v with
        transfers := v.transfers.filter (fun u => !u.takes (headed q r)) })).repeatAnswer a })) ∧
  (∀ (r : SrvReq) (a : Answered) (h : Hub), h.stored r = some a → a ∈ h.srv.answered ∧ h.time.ticks ≤ a.at_ + tSec ∧
    a.req.src = r.src ∧ a.req.tx = r.tx ∧ a.req.service = r.service ∧ a.req.index = r.index ∧ a.req.sub = r.sub ∧
    a.req.data = r.data) ∧
  ∀ (mb : ModeBlock) (h : Hub), (handOverAll mb h).2.srv.answered = h.srv.answered

/-- R427: while the house processor is away up to 16 requests wait, in the order in which they arrive, and a request that arrives
when 16 are waiting aborts with BUSY.
(Model's choices within it: log 32.) -/
def Obligations.SixteenWait : Prop :=
  ∀ (c : Instr) (q : ReqHead) (r : SrvReq) (s : State), asRequest c = some (q, r) →
    s.mb.up = true → s.hub.carrierOpen q.src = true → s.hub.serverAway = true →
    (s.hub.srv.waiting.length < 16 → ∃ t, exec c s = .next t ∧ t.mb = s.mb ∧ t.hub.objs = s.hub.objs ∧
      t.hub.srv.waiting = s.hub.srv.waiting ++ [headed q r]) ∧
    (16 ≤ s.hub.srv.waiting.length →
      exec c s = .next { s with hub := (arrived q s).abortReq (headed q r) Abort.busy })

/-- A write that the checks of R423 refuse has no effect: it is answered with the code of the first check that fails, and the
mode and every object but the counters of answers stay as they were.
(Model's choices within it: log 5.) -/
def Obligations.RefusedWriteChangesNothing : Prop :=
  ∀ (c : Instr) (q : ReqHead) (k len v : Nat) (act : Act) (s : State), asWrite c = some (q, k, len, v, act) →
    Reaches q (writeReq k len v) s → writeCheck s.mb (arrived q s) false k len v ≠ 0 →
    ∃ t, exec c s = .next t ∧ t.mb = s.mb ∧
      t.hub = (arrived q s).answer (headed q (writeReq k len v)) (.abort (writeCheck s.mb (arrived q s) false k len v)) ∧
      ∀ j, ¬ answerCounter j → t.hub.get j = s.hub.get j

/-- A write with a row of its own and a WRITE request of the same bytes do the same (R425).
(Model's choices within it: log 5.) -/
def Obligations.OwnRowIsTheWrite : Prop :=
  ∀ (c : Instr) (q : ReqHead) (k len v : Nat) (act : Act) (s : State), asWrite c = some (q, k, len, v, act) →
    ∃ (i : Fin 65536) (sub : Fin 256) (b : List (Fin 256)), k = i.val * 256 + sub.val ∧ b.length = len ∧
      ofBytes (b.map (·.val)) = v ∧ exec c s = exec (.write q i sub b) s

/-- The bits of a request PDU's header (Table 14.6) are read back as they were packed, whatever padding follows, and a frame with
RESPONSE set is no request (R436).
R438: the segments of a response carry its data in order, each PDU is at most 62 B, and there are ⌈LENGTH / 54⌉ of them, or
1 for none; each carries the TRANSACTION, INDEX and SUBINDEX of its request.
(Model's choices within it: log 56.) -/
def Obligations.PdusCarryTheData : Prop :=
  (∀ (src : Carrier) (nvm staged : Bool) (service tx index sub seg len : Nat) (data pad : List Nat),
      service < 32 → tx < 256 → index < 65536 → sub < 256 → seg < 256 → len < 16384 → data.length = segLen len seg →
      let w (response : Nat) := pack [(5, service), (1, response), (2, 0), (8, tx), (16, index), (8, sub), (8, seg), (1, b2n staged),
        (1, 0), (14, len)]
      parsePdu src nvm (toBytes 8 (w 0) ++ data ++ pad) =
        some { src := src, tx := tx, service := service, index := index, sub := sub, segment := seg, staged := staged,
               length := len, data := data, nvm := nvm } ∧
      parsePdu src nvm (toBytes 8 (w 1) ++ data ++ pad) = none) ∧
  (∀ (r : SrvReq) (err : Bool) (data : List Nat),
      (respPdus r err data).flatMap (fun p => p.drop 8) = data ∧ (respPdus r err data).length = max 1 ((data.length + 53) / 54) ∧
      (∀ p ∈ respPdus r err data, 8 ≤ p.length ∧ p.length ≤ 62) ∧
      ∀ k, r.service < 32 → r.tx < 256 → r.index < 65536 → r.sub < 256 → data.length ≤ 13824 → k < (respPdus r err data).length →
        (respPdus r err data)[k]? = some (toBytes 8 (pack [(5, r.service), (1, 1), (1, b2n err),
          (1, b2n (k + 1 < (respPdus r err data).length)), (8, r.tx), (16, r.index), (8, r.sub), (8, k), (1, 0), (1, 0),
          (14, data.length)]) ++ (data.drop (54 * k)).take (segLen data.length k)))

/-! ### Supply, reset and modes (chapter 2) -/

/-- The wake-up condition (R57, R68, R69): power or WAKE takes the hub from CURTAIN-DOWN to BOOT, which counts BOOT_COUNT, states
the cause in RESET_CAUSE beside what is known of the session before, starts the rail, and is logged. First power with WAKE low
leaves the hub in CURTAIN-DOWN, armed. Completion of POWER_ON and WAKE_RISE.
(Model's choices within it: log 19, log 21.) -/
def Obligations.WakeEntersBoot : Prop :=
  ∀ (a b high long k0 k1 : Bool) (s : State), s.mb.mode = .curtainDown →
    (s.hub.pow.vinA = false → s.hub.pow.vinB = false → (a || b) = true →
      (high = true → ∃ t, exec (.powerOn a b high k0 k1) s = .next t ∧ t.mb.mode = .boot ∧ t.mb.cause = 0x02F1 ∧
        t.hub.pow.rail = true ∧ t.hub.get Obj.resetCause = 1 + s.hub.pow.lastEnd ∧
        t.hub.get Obj.bootCount = (s.hub.get Obj.bootCount + 1) % 2 ^ 32 ∧ t.hub.time.ticks = 0) ∧
      (high = false → ∃ t, exec (.powerOn a b high k0 k1) s = .next t ∧ t.mb = s.mb ∧ t.hub.objs = s.hub.objs ∧
        t.hub.pow = { s.hub.pow with vinA := a, vinB := b, armed := true, bucks := b2n k0 + 2 * b2n k1 })) ∧
    ((s.hub.pow.vinA || s.hub.pow.vinB) = true → (long || s.hub.pow.armed) = true →
      ∃ t, exec (.wakeRise long k0 k1) s = .next t ∧ t.mb.mode = .boot ∧ t.mb.cause = 0x02F1 ∧ t.hub.pow.rail = true ∧
        t.hub.get Obj.resetCause = 2 + s.hub.pow.lastEnd ∧
        t.hub.get Obj.bootCount = (s.hub.get Obj.bootCount + 1) % 2 ^ 32 ∧ t.hub.time.ticks = 0)

/-- A fault of the 5.0 V rail (R74): every die loses power; the hub is in BOOT and a retry is due, but after three failed retries it
is in CURTAIN-DOWN; a retry sets its bit of RESET_CAUSE and starts the rail, 100 ms after the fault. Completion of RAIL_FAULT and
RAIL_RETRY.
The supply inputs and the buck controllers (R71, R73): the loss of one of two inputs, its return, and the fault of one of two
controllers change nothing but their flag and the callboard, and each is logged, unless the callboard stands still (R44).
(Model's choices within it: log 18, log 52.) -/
def Obligations.SuppliesAndRail : Prop :=
  (∀ s : State,
      (s.hub.pow.rail = true → ∃ t, exec .railFault s = .next t ∧ t.hub.pow.rail = false ∧
        (∀ i, i < 8 → t.hub.die i = b2n (s.hub.part.has i)) ∧
        (s.mb.mode = .boot → 3 ≤ s.hub.pow.retries → t.mb.mode = .curtainDown ∧ t.hub.pow.retryDue = false) ∧
        (s.mb.mode ≠ .boot ∨ s.hub.pow.retries < 3 → t.mb.mode = .boot ∧ t.hub.pow.retryDue = true ∧ t.hub.time.ticks = 0)) ∧
      (s.mb.mode = .boot → s.hub.pow.retryDue = true →
        ∃ t, exec .railRetry s = .next t ∧ t.mb = s.mb ∧ t.hub.pow.rail = true ∧ t.hub.pow.retryDue = false ∧
          t.hub.pow.retries = s.hub.pow.retries + 1 ∧ t.hub.bit Obj.resetCause 4 = true ∧ 100 * tMs ≤ t.hub.time.ticks)) ∧
  (∀ (i k : Fin 2) (dt mv : Nat) (s : State), s.mb.mode ≠ .curtainDown → s.hub.stalled = false →
      (s.hub.pow.vinA = true → s.hub.pow.vinB = true →
        ∃ t, exec (.vinLost i dt mv) s = .next t ∧ t.mb = s.mb ∧
          (t.hub.pow.vinA = true ↔ i = 1) ∧ (t.hub.pow.vinB = true ↔ i = 0) ∧
          (∀ j, j ≠ Obj.cbLost → t.hub.get j = s.hub.get j) ∧ t.hub.cb.lastSeq = nextSeq s.hub.cb.lastSeq) ∧
      ((s.hub.pow.vinA = true ↔ i = 1) → (s.hub.pow.vinB = true ↔ i = 0) →
        ∃ t, exec (.vinRestored i dt) s = .next t ∧ t.mb = s.mb ∧ t.hub.pow.vinA = true ∧ t.hub.pow.vinB = true ∧
          (∀ j, j ≠ Obj.cbLost → t.hub.get j = s.hub.get j) ∧ t.hub.cb.lastSeq = nextSeq s.hub.cb.lastSeq) ∧
      (s.hub.pow.rail = true → s.hub.pow.bucks = 3 → s.hub.bit Obj.powerStatus (5 + k) = false →
        ∃ t, exec (.buckFault k dt) s = .next t ∧ t.mb = s.mb ∧ t.hub.bit Obj.powerStatus (5 + k) = true ∧
          t.hub.pow = s.hub.pow ∧ t.hub.cb.lastSeq = nextSeq s.hub.cb.lastSeq))

/-- RST_N (R80): low for 1 µs it puts the hub in BOOT and latches the mode it came from; when it rises the bases restart at 0, the
entry is logged with the latched mode and each role that it ended, every record of the ring whose ECC check holds stands in NVM, and the dies that were powered
begin their bring-up. Completion of RST_N_LOW and RST_N_RISE.
(Model's choices within it: log 53.) -/
def Obligations.ResetPin : Prop :=
  (∀ (dt : Nat) (s : State), s.mb.mode ≠ .curtainDown → s.hub.pow.rstLow = false →
    ∃ t, exec (.rstNLow dt) s = .next t ∧ t.mb.mode = .boot ∧ t.mb.cause = 0x02F2 ∧ t.mb.latched = some s.mb.mode ∧
      t.hub.pow.rstLow = true ∧ t.hub.pow.rail = s.hub.pow.rail ∧ t.hub.get Obj.resetCause = 4 ∧
      t.hub.get Obj.bootCount = (s.hub.get Obj.bootCount + 1) % 2 ^ 32) ∧
  (∀ s : State, s.mb.mode = .boot → s.hub.pow.rstLow = true →
    ∃ t, exec .rstNRise s = .next t ∧ t.mb = { s.mb with latched := none, latchedRoles := [], entryTime := time96 0 2 } ∧
      t.hub.pow.rstLow = false ∧ t.hub.time.ticks = 0 ∧ t.hub.time.array = 0 ∧
      (s.hub.stalled = false → s.hub.cb.waiting = [] →
        t.hub.cb.lastSeq = s.mb.latchedRoles.foldl (fun n _ => nextSeq n) (nextSeq s.hub.cb.lastSeq)) ∧
      (∀ r, r ∈ t.hub.cb.ring → r.seq ∉ s.hub.ringErrors.1 → r.inNvm = true) ∧
      ∀ i, i < 8 → s.hub.die i = 2 → vget t.hub.pow.poweredAt i = some 0)

/-- Bring-up (R77, R78, Table 2.5): the first die not yet powered is powered; a die that comes up within its limit is UP, unless it
is a hub die without firmware, which stays in its loader; and one that misses its limit is tried once more and is then FAILED (with
a code of the model's choice: log 179). Completion of DIE_POWER_ON, DIE_BRINGUP_COMPLETE and DIE_BRINGUP_TIMEOUT.
(Model's choices within it: log 22, log 31, log 179.) -/
def Obligations.BringUp : Prop :=
  (∀ (i : Fin 8) (dt : Nat) (s : State), s.mb.mode = .boot → s.hub.pow.rail = true → s.hub.pow.rstLow = false →
    bringUpOrder.find? (fun j => s.hub.part.has j && s.hub.die j = 1) = some i.val →
    ∃ t, exec (.diePowerOn dt) s = .next t ∧ t.mb = s.mb ∧ t.hub.die i = 2 ∧ vget t.hub.pow.attempts i = 1 ∧
      vget t.hub.pow.poweredAt i = some t.hub.time.ticks) ∧
  (∀ (i : Fin 8) (dt t0 : Nat) (s : State), s.mb.mode = .boot → s.hub.pow.rstLow = false → s.hub.die i = 2 →
    vget s.hub.pow.poweredAt i = some t0 → s.hub.time.ticks + dt ≤ t0 + bringUpLimit i →
    ∃ t, exec (.dieBringupComplete i dt) s = .next t ∧ t.mb = s.mb ∧ t.hub.time.ticks = s.hub.time.ticks + dt ∧
      (i.val ≠ 4 → i.val ≠ 5 → t.hub.die i = 3) ∧ (i.val = 4 ∨ i.val = 5 → t.hub.die i = 3 ∨ t.hub.die i = 7)) ∧
  (∀ (i : Fin 8) (t0 : Nat) (s : State), s.mb.mode = .boot → s.hub.pow.rstLow = false → s.hub.die i = 2 →
    vget s.hub.pow.poweredAt i = some t0 →
    ∃ t, exec (.dieBringupTimeout i) s = .next t ∧ t.mb = s.mb ∧ t0 + bringUpLimit i ≤ t.hub.time.ticks ∧
      (vget s.hub.pow.attempts i < 2 → t.hub.die i = 2 ∧ vget t.hub.pow.attempts i = 2 ∧
        vget t.hub.pow.poweredAt i = some t.hub.time.ticks) ∧
      (2 ≤ vget s.hub.pow.attempts i → t.hub.die i = (if i.val = 4 ∨ i.val = 5 then 4 else 5) ∧
        (s.hub.stalled = false → t.hub.cb.lastSeq = nextSeq s.hub.cb.lastSeq)))

/-- An accepted MODE_REQUEST (Table 2.3, R57, R59, R61, R62, R66): the mode it leads to, or the transition that now waits for its
run cue.
(Model's choices within it: log 29, log 30, log 180.) -/
def Obligations.ModeRequestsAct : Prop :=
  ∀ (q : ReqHead) (s : State),
    (Granted q Obj.modeRequest 1 2 (actMode 2) s → ∃ t, exec (.modeRequestConfigure q) s = .next t ∧
      t.mb.mode = .configure ∧ t.mb.safeCause = 0 ∧ t.mb.next = none ∧ t.mb.cue = none) ∧
    (Granted q Obj.modeRequest 1 3 (actMode 3) s → ∃ t, exec (.modeRequestSelfTest q) s = .next t ∧ t.mb.mode = .selfTest) ∧
    (Granted q Obj.modeRequest 1 4 (actMode 4) s → ∃ t, exec (.modeRequestCalibrate q) s = .next t ∧ t.mb.mode = .calibrate) ∧
    (Granted q Obj.modeRequest 1 6 (actMode 6) s → ∃ t, exec (.modeRequestRun q) s = .next t ∧
      (s.mb.mode = .configure ∧ t.mb.mode = .sync ∨ s.mb.mode = .hold ∧ t.mb.mode = .hold ∧ t.mb.next = some .run)) ∧
    (Granted q Obj.modeRequest 1 8 (actMode 8) s → ∃ t, exec (.modeRequestHold q) s = .next t ∧
      s.mb.mode.running = true ∧ t.mb.mode = s.mb.mode ∧ t.mb.next = some .hold ∧ t.mb.cue.isSome = true) ∧
    (Granted q Obj.modeRequest 1 9 (actMode 9) s → ∃ t, exec (.modeRequestService q) s = .next t ∧ t.mb.mode = .service) ∧
    (Granted q Obj.modeRequest 1 10 (actMode 10) s → ∃ t, exec (.modeRequestSafe q) s = .next t ∧ t.mb.mode = .safe ∧
      bitOf t.mb.safeCause 0 = true ∧ (s.mb.mode ≠ .safe → t.mb.safeFrom = s.mb.mode)) ∧
    (Granted q Obj.modeRequest 1 0 (actMode 0) s → ∃ t, exec (.modeRequestCurtainDown q) s = .next t ∧
      t.mb.mode = .shutdown ∧ t.mb.shut = .orderlyDown ∧ t.mb.drainAt.isSome = true) ∧
    (Granted q Obj.modeRequest 1 1 (actMode 1) s → ∃ t, exec (.modeRequestBoot q) s = .next t ∧
      t.mb.mode = .shutdown ∧ t.mb.shut = .orderlyBoot ∧ t.mb.drainAt.isSome = true)

/-- The run cue and the waits for it (R57, R59 to R61, R65): SYNC ends in RUN or RUN-SIMPLEX by the roles held when its cue comes
with the lock level held, goes on waiting without the lock level, and ends in CONFIGURE at SYNC_TIMEOUT; HOLD is entered and left
at its cue. -/
def Obligations.RunCueTransitions : Prop :=
  ∀ (u : Nat) (s : State),
    (s.mb.mode = .sync → s.mb.cue = none → ∃ t, exec .syncTimeout s = .next t ∧ t.mb.mode = .configure ∧ t.mb.cause = 0x0207 ∧
      s.mb.syncTick + s.hub.get Obj.syncTimeout * tSec ≤ t.hub.time.ticks) ∧
    (s.mb.mode = .sync → s.mb.cue = some u → s.hub.lockLevel = true → ∃ t, exec .runStart s = .next t ∧
      t.mb.mode = s.hub.runMode ∧ t.mb.entryTime = time96 u 0 ∧ t.mb.cue = none) ∧
    (s.mb.mode = .sync → s.mb.cue = some u → s.hub.lockLevel = false → ∃ t, exec .runStart s = .next t ∧
      t.mb = { s.mb with cue := none }) ∧
    (s.mb.mode.running = true → s.mb.next = some .hold → s.mb.cue = some u → ∃ t, exec .holdEntry s = .next t ∧
      t.mb.mode = .hold ∧ t.mb.entryTime = time96 u 0 ∧ t.mb.next = none) ∧
    (s.mb.mode = .hold → s.mb.next = some .run → s.mb.cue = some u → ∃ t, exec .holdExit s = .next t ∧
      t.mb.mode = s.hub.runMode ∧ t.mb.entryTime = time96 u 0 ∧ t.mb.next = none)

/-- Temperature (R62, R64, R76): TJ_MAX follows each report, OT_WARN stands at or above OT_WARN_THRESHOLD, below which the condition
ends, and from 125.0 °C on the hub is in SAFE with cause OVER_TEMP. Completion of OVER_TEMP_WARNING and OVER_TEMP_SAFE.
(Model's choices within it: log 28.) -/
def Obligations.TemperatureActs : Prop :=
  (∀ (i : Fin 8) (dt : Nat) (tj : Int) (s : State), s.mb.up = true →
    ∃ t, exec (.overTempWarning i dt tj) s = .next t ∧ t.hub.get Obj.tjMax = ofSigned 16 tj ∧
      t.hub.bit Obj.powerStatus 8 = decide (s.hub.getI 16 Obj.otWarnThreshold ≤ tj) ∧
      (tj < 1250 → t.mb.mode = s.mb.mode ∧ (tj < s.hub.getI 16 Obj.otWarnThreshold → t.mb.conds.overTemp = false)) ∧
      (1250 ≤ tj → s.mb.mode ≠ .shutdown → (s.mb.conds.overTemp && bitOf s.mb.safeCause 1) = false →
        t.mb.mode = .safe ∧ bitOf t.mb.safeCause 1 = true ∧ t.mb.conds.overTemp = true)) ∧
  (∀ (i : Fin 8) (dt : Nat) (tj : Int) (s : State), s.mb.up = true → 1250 ≤ tj → s.mb.mode ≠ .shutdown →
    (s.mb.conds.overTemp && bitOf s.mb.safeCause 1) = false →
    ∃ t, exec (.overTempSafe i dt tj) s = .next t ∧ t.mb.mode = .safe ∧ bitOf t.mb.safeCause 1 = true ∧
      t.mb.conds.overTemp = true ∧ t.hub.get Obj.tjMax = ofSigned 16 tj)

/-- Shutdown (R66, R72, R75, R76): an emergency begins at 135 °C, which TJ_MAX shows, or when the supply stands below PFW_THRESHOLD;
20 ms after an orderly one began the queues are empty; and its end is BOOT or CURTAIN-DOWN as requested, an emergency's CURTAIN-DOWN.
Completion of THERMAL_TRIP, POWER_FAIL_WARNING, QUEUE_DISCARD, SHUTDOWN_DONE and EMERGENCY_DONE.
(Model's choices within it: log 23, log 24, log 189.) -/
def Obligations.ShutdownRuns : Prop :=
  ∀ (i : Fin 8) (dt mv d : Nat) (bad : List (Nat × Nat)) (s : State),
    (s.mb.canTrip = true → ∃ t, exec (.thermalTrip i dt) s = .next t ∧ t.mb.mode = .shutdown ∧ t.mb.shut = .emergency ∧
      t.mb.cause = 0x020F ∧ t.hub.get Obj.tjMax = 1350) ∧
    (s.mb.canTrip = true → mv < s.hub.get Obj.pfwThreshold → ∃ t, exec (.powerFailWarning dt mv) s = .next t ∧
      t.mb.mode = .shutdown ∧ t.mb.shut = .emergency ∧ t.mb.cause = 0x020B ∧ t.hub.bit Obj.powerStatus 2 = true) ∧
    (s.mb.drainAt = some d → ∃ t, exec .queueDiscard s = .next t ∧ t.mb = { s.mb with drainAt := none } ∧
      d ≤ t.hub.time.ticks ∧ (t.hub.queue 0).packets = [] ∧ (t.hub.queue 1).packets = []) ∧
    (s.mb.mode = .shutdown → s.mb.shut = .orderlyBoot → ∃ t, exec (.shutdownDone dt bad) s = .next t ∧
      t.mb.mode = .boot ∧ t.mb.cause = 0x02F5 ∧ t.hub.pow.rail = true ∧ t.hub.get Obj.resetCause = 8 + s.hub.pow.lastEnd) ∧
    (s.mb.mode = .shutdown → s.mb.shut = .orderlyDown → ∃ t, exec (.shutdownDone dt bad) s = .next t ∧
      t.mb.mode = .curtainDown ∧ t.mb.cause = 0x02F5 ∧ t.hub.pow.rail = false) ∧
    (s.mb.mode = .shutdown → s.mb.shut = .emergency → ∃ t, exec (.emergencyDone dt) s = .next t ∧
      t.mb.mode = .curtainDown ∧ t.mb.cause = 0x02F6 ∧ t.hub.pow.lastEnd = if s.mb.cause = 0x020F then 64 else 32)

/-- The ends of BOOT, of a self-test without a failed test, and of a house-processor restart; and a watchdog's time-out, which
counts, begins the restart and is a fault of its die's own (R57, R81, R318, R337, R448). Once the Lead's runs again, the events that
waited for it are in the callboard.
(Model's choices within it: log 20, log 25, log 27.) -/
def Obligations.BootAndRestart : Prop :=
  ∀ (cfgOk : Bool) (trims : List (Nat × Nat)) (x : Fin 2) (dt : Nat) (d : Fin 20000001) (s : State),
    (s.mb.mode = .boot → s.hub.pow.rail = true → s.hub.pow.rstLow = false → s.hub.bringUpOver = true →
      (s.hub.role 0 = 2 ∨ s.hub.role 1 = 2 → ∃ t, exec (.bootComplete cfgOk trims) s = .next t ∧
        t.mb.mode = .configure ∧ t.mb.cause = 0x0202 ∧ t.mb.loader = s.mb.loader) ∧
      (s.hub.role 0 ≠ 2 → s.hub.role 1 ≠ 2 → s.hub.die 4 = 7 → s.hub.die 5 ≠ 3 →
        ∃ t, exec (.bootComplete cfgOk trims) s = .next t ∧ t.mb.mode = .service ∧ t.mb.loader = true)) ∧
    (s.mb.mode = .selfTest → ∃ t, exec (.selfTestDone dt [] 2) s = .next t ∧ t.mb.mode = .configure ∧ t.mb.cause = 0x02F3) ∧
    (s.mb.up = true → s.hub.die (4 + x) = 3 → (s.hub.hdie x).restarting = false →
      ∃ t g, exec (.watchdogTimeout x dt) s = .next t ∧ (t.mb, t.hub) = selfFault s.mb g x causeWatchdog ∧
        g.get (Obj.hdWatchdogRestarts x) = (s.hub.get (Obj.hdWatchdogRestarts x) + 1) % 2 ^ 32 ∧ (g.hdie x).restarting = true ∧
        g.time.ticks = s.hub.time.ticks + dt ∧ ∀ k, k ≠ Obj.hdWatchdogRestarts x → g.get k = s.hub.get k) ∧
    (s.mb.up = true → (s.hub.hdie x).restarting = true → (x.val = s.hub.leadDie → s.hub.srv.waiting = []) →
      ∃ t, exec (.hpRestart x d) s = .next t ∧ t.mb = s.mb ∧ (t.hub.hdie x).restarting = false ∧
        t.hub.time.ticks = s.hub.time.ticks + d ∧ (x.val = s.hub.leadDie → t.hub.cb.waiting = []) ∧
        (s.hub.stalled = false → s.hub.cb.waiting = [] → t.hub.cb.lastSeq = nextSeq s.hub.cb.lastSeq) ∧
        ∀ k, k ≠ Obj.cbLost → t.hub.get k = s.hub.get k)

/-! ### Front end and conversion (chapters 3 and 4) -/

/-- Excitation faults (R104): the onset sets FAULT_SEEN and counts; 10 ms of fault latch the driver off; a return to regulation
ends the fault; and FAULT_CLEAR clears LATCHED_OFF and FAULT_SEEN, and a driver that was latched off stays in fault until it is back
in regulation. The mode, and the objects of every other driver, stay as they
were.
Excitation timing (R105, R116): a driver turns on at its staggered instant, a pulsed driver's window opens at a whole number of
periods and closes EXC_PULSE_WIDTH grid periods later; nothing but the driver, its EXC marks and its status changes.
(Model's choices within it: log 34, log 42.) -/
def Obligations.Excitation : Prop :=
  (∀ (d e : Fin 96) (dt t0 : Nat) (q : ReqHead) (s : State),
      (s.hub.excOn d = true → (s.hub.drv d).fault = none →
        ∃ t, exec (.excFault d dt false) s = .next t ∧ t.mb = s.mb ∧ (t.hub.drv d).fault = some (s.hub.time.ticks + dt) ∧
          t.hub.bit (Obj.excStatus d) 4 = true ∧
          t.hub.get (Obj.excFaultCount d) = (s.hub.get (Obj.excFaultCount d) + 1) % 2 ^ 32 ∧
          (e ≠ d → t.hub.get (Obj.excStatus e) = s.hub.get (Obj.excStatus e))) ∧
      ((s.hub.drv d).fault = some t0 → s.hub.bit (Obj.excStatus d) 3 = false →
        (∃ t, exec (.excLatchedOff d) s = .next t ∧ t.mb = s.mb ∧ t.hub.bit (Obj.excStatus d) 3 = true ∧ t.hub.excOn d = false ∧
          t0 + 10 * tMs ≤ t.hub.time.ticks ∧ (e ≠ d → t.hub.get (Obj.excStatus e) = s.hub.get (Obj.excStatus e))) ∧
        (s.hub.bit (Obj.excStatus d) 2 = false →
          ∃ t, exec (.excFaultCleared d dt) s = .next t ∧ t.mb = s.mb ∧ (t.hub.drv d).fault = none ∧
            t.hub.bit (Obj.excStatus d) 1 = false ∧ (e ≠ d → t.hub.get (Obj.excStatus e) = s.hub.get (Obj.excStatus e)))) ∧
      (Granted q (Obj.excFaultClear d) 1 1 (actExcFaultClear d) s →
        ∃ t, exec (.excFaultClear q d) s = .next t ∧ t.mb = s.mb ∧ t.hub.bit (Obj.excStatus d) 3 = false ∧
          t.hub.bit (Obj.excStatus d) 4 = false ∧
          (s.hub.bit (Obj.excStatus d) 3 = true → (t.hub.drv d).fault = some t.hub.time.ticks) ∧ (e ≠ d → t.hub.get (Obj.excStatus e) = s.hub.get (Obj.excStatus e)))) ∧
  (∀ (d : Fin 96) (u : Nat) (s : State), s.mb.drives = true →
      ((s.hub.drv d).turnOn = some u → s.hub.get (Obj.excMode d) ≠ 0 → ∃ t, exec (.excDriverTurnOn d) s = .next t ∧ t.mb = s.mb ∧
        (t.hub.drv d).active = true ∧ (t.hub.drv d).turnOn = none ∧
        ∀ k, k ≠ Obj.excStatus d → t.hub.get k = s.hub.get k) ∧
      ((s.hub.drv d).active = true → s.hub.get (Obj.excMode d) = 3 → s.hub.pulsePeriod d ≠ 0 →
        ((s.hub.drv d).window = some u → ∃ t, exec (.excWindowEdge d) s = .next t ∧ t.mb = s.mb ∧ (t.hub.drv d).window = none ∧
          (t.hub.drv d).winNext = u + s.hub.get (Obj.excPulseWidth d) * uGrid ∧
          ∀ k, k ≠ Obj.excStatus d → t.hub.get k = s.hub.get k) ∧
        ((s.hub.drv d).window = none → ∃ t m, exec (.excWindowEdge d) s = .next t ∧ t.mb = s.mb ∧
          (t.hub.drv d).window = some ((m * s.hub.pulsePeriod d + s.hub.pulseOffset d) * uGrid) ∧
          ∀ k, k ≠ Obj.excStatus d → t.hub.get k = s.hub.get k)))

/-- R121: the steering code is 512 × (i × 500 ns − A) / INCREMENT taken to the nearest integer, a tie going up. -/
def Obligations.SteeringIsNearest : Prop :=
  ∀ acc incr u : Nat, 0 < incr →
    (2 * steer acc incr u - 1) * incr ≤ 2 * (512 * ((u * 2 ^ 24 : Nat) - (acc : Int))) ∧
    2 * (512 * ((u * 2 ^ 24 : Nat) - (acc : Int))) < (2 * steer acc incr u + 1) * incr

/-- The grid hold (R94, R120, R121, R127, R134, R327): it is not before its grid instant; every die places its hold at the steering
code plus its HOLD_TRIM; every channel of a die that is UP and whose selected die link is valid holds its voltage in the range decided
for it, and one of a die without grid marks holds nothing; every core of such a die begins a frame with its eight regular inputs
pending; and the mode stays as it was. In a mode without sampling nothing is held.
(Model's choices within it: log 33, log 35.) -/
def Obligations.GridHold : Prop :=
  (∀ (r : HoldReadings) (s : State), s.mb.samples = true → ∃ t, exec (.gridHold r) s = .next t ∧ t.mb = s.mb ∧
    t.hub.time.nextGrid = s.hub.time.nextGrid + 1 ∧ (0 < s.hub.incr 0 → gridU s.hub.time.nextGrid ≤ t.hub.now 0) ∧
    (∀ f, f < 4 → 0 ≤ 512 * ((t.hub.time.ticks : Int) - 1) +
        steer (t.hub.acc 0 - t.hub.incr 0) (t.hub.incr 0) (gridU s.hub.time.nextGrid) + s.hub.getI 8 (Obj.holdTrim f) →
      (t.hub.fe f).holdCode < 512 ∧ ((512 * (t.hub.fe f).holdTick + (t.hub.fe f).holdCode : Nat) : Int) =
        512 * ((t.hub.time.ticks : Int) - 1) +
          steer (t.hub.acc 0 - t.hub.incr 0) (t.hub.incr 0) (gridU s.hub.time.nextGrid) + s.hub.getI 8 (Obj.holdTrim f)) ∧
    (∀ n, n < 384 → s.hub.feUp (chFe n) = true → s.hub.marked (chFe n) = true →
      (s.hub.get Obj.calStep = 0 → (t.hub.ch n).volts = holdVolts r.volts n) ∧ (t.hub.ch n).cm = r.trips.contains n ∧
      (t.hub.ch n).idx = s.hub.time.nextGrid ∧ (t.hub.ch n).range = s.hub.heldRange n ∧ (t.hub.ch n).next = none) ∧
    (∀ n, n < 384 → s.hub.marked (chFe n) = false →
      (t.hub.ch n).idx = (s.hub.ch n).idx ∧ (t.hub.ch n).volts = (s.hub.ch n).volts ∧ (t.hub.ch n).range = (s.hub.ch n).range) ∧
    ∀ k, k < 48 → s.hub.feUp (k / 12) = true → s.hub.marked (k / 12) = true →
      (t.hub.core k).frame = s.hub.time.nextGrid ∧ (t.hub.core k).slot = 0 ∧ (t.hub.core k).injUsed = 0 ∧
      (t.hub.core k).regPending = (List.range 8).map (s.hub.regInput k)) ∧
  (∀ (r : HoldReadings) (s : State), s.mb.samples = false → s.mb.up = true → ∃ t, exec (.gridHold r) s = .next t ∧ t.mb = s.mb ∧
    t.hub.time.nextGrid = s.hub.time.nextGrid + 1 ∧ t.hub.ins = s.hub.ins ∧ t.hub.cores = s.hub.cores ∧ t.hub.objs = s.hub.objs)

/-- R96: the range decided lies within the channel's limits and at most one range finer than the one in force; a step up lands on
the finest range in which P stays at or below the up threshold, or on the coarsest allowed; a step down needs the full count and
P below the up threshold of the finer range, and is taken when both hold; a full count with P too large is kept, and pending;
and a raw sample above the down threshold, or of another range, clears the count. -/
def Obligations.RangeDecision : Prop :=
  (∀ (h : Hub) (k : Nat) (c : Conv), k < 48 → c.input < 8 →
    let n := k * 8 + c.input
    ((h.finishRegular k c).ch n).down =
      if h.auto n = true ∧ c.word.range = (h.ch n).range ∧ c.word.code.natAbs ≤ 26214
      then min ((h.ch n).down + 1) (h.get (Obj.chDownCount n)) else 0) ∧
  ∀ (v : InSt) (i count coarsest finest : Nat) (hold : Bool),
    coarsest ≤ v.range → v.range ≤ finest → finest ≤ 3 →
    let d := decideRange v i count coarsest finest hold
    let p := v.predict i
    coarsest ≤ d.next ∧ d.next ≤ finest ∧ d.next ≤ v.range + 1 ∧
    (p > (upThreshold : Rat) → coarsest < v.range → d.next < v.range ∧ d.down = 0 ∧
      (p ≤ (upThreshold : Rat) * 4 ^ (v.range - d.next) ∨ d.next = coarsest) ∧
      ∀ m, d.next < m → m < v.range → p > (upThreshold : Rat) * 4 ^ (v.range - m)) ∧
    (d.next = v.range + 1 → v.down = count ∧ 4 * p < (upThreshold : Rat) ∧ d.down = 0 ∧ hold = false) ∧
    (p ≤ (upThreshold : Rat) ∨ v.range = coarsest → v.down = count → v.range < finest →
      (4 * p < (upThreshold : Rat) → hold = false → d.next = v.range + 1) ∧
      ((upThreshold : Rat) ≤ 4 * p → d.pending = true ∧ d.next = v.range ∧ d.down = v.down))

/-- AUTO_RANGE_DECISION (R94, R95, R96): each AUTO channel of a die that is UP has a range decided for its next hold, within its
limits; no other channel has. -/
def Obligations.AutoRanges : Prop :=
  ∀ s : State, s.mb.samples = true → ∃ t, exec .autoRangeDecision s = .next t ∧ t.mb = s.mb ∧
    ∀ n, n < 384 → (t.hub.ch n).range = (s.hub.ch n).range ∧
      (s.hub.auto n = true → s.hub.feUp (chFe n) = true → s.hub.get (Obj.chRangeCoarsest n) ≤ (s.hub.ch n).range →
        (s.hub.ch n).range ≤ s.hub.get (Obj.chRangeFinest n) → s.hub.get (Obj.chRangeFinest n) ≤ 3 →
        ∃ m, (t.hub.ch n).next = some m ∧ s.hub.get (Obj.chRangeCoarsest n) ≤ m ∧ m ≤ s.hub.get (Obj.chRangeFinest n)) ∧
      (s.hub.auto n = false ∨ s.hub.feUp (chFe n) = false → (t.hub.ch n).next = (s.hub.ch n).next)

/-- A slot boundary (R124, R127, R134): the core starts the conversion of that slot, ready 50 ns later, and at most two
conversions of a frame are injected, one in a guard frame; no other core and no other die's frame changes.
(Model's choices within it: log 33.) -/
def Obligations.CoreSlots : Prop :=
  ∀ (k j : Fin 48) (bg : Int) (s : State), s.mb.samples = true → s.hub.feUp (k / 12) = true → (s.hub.core k).slot < 10 →
    ∃ t c, exec (.coreSlotBoundary k bg) s = .next t ∧ t.mb = s.mb ∧ (t.hub.core k).slot = (s.hub.core k).slot + 1 ∧
      (t.hub.core k).cur = some c ∧ c.slot = (s.hub.core k).slot ∧ c.frame = (s.hub.core k).frame ∧
      c.ends = gridU (s.hub.core k).frame + ((s.hub.core k).slot + 1) * uSlot ∧
      ((s.hub.core k).guard = true → (s.hub.core k).slot = 9 → c.kind = .background) ∧
      ((s.hub.core k).injUsed ≤ (if (s.hub.core k).guard then 1 else 2) →
        (t.hub.core k).injUsed ≤ (if (t.hub.core k).guard then 1 else 2)) ∧
      (c.kind = .injected → s.mb.mode ≠ .calibrate ∧ (s.hub.core k).injQ ≠ []) ∧
      (j ≠ k → t.hub.core j = s.hub.core j) ∧ (j.val / 12 ≠ k.val / 12 → t.hub.fe (j / 12) = s.hub.fe (j / 12))

/-- Injected sequences (R132, R133, R137, R197): a source edge or a write of INJ_SOFT_START makes a hold due INJ_DELAY × 12.5 ns later;
one that arrives while holds of an earlier start are unconverted is dropped and counted; and a hold that falls due is taken, counted
and stamped, or deferred to the grid hold when it is due in the 100 ns before one that changes a range of the sequence. An edge of
INJ_SOFT_START is the raw-frame boundary at which the write takes effect.
(Model's choices within it: log 171.) -/
def Obligations.InjectedSequences : Prop :=
  (∀ (k : Fin 48) (u : Nat) (us : List Nat) (dt : Nat) (f : Fin 512) (up : Bool) (s : State),
    s.mb.injects = true → s.hub.feUp (k / 12) = true → s.hub.injKind k ≠ 3 → (s.hub.core k).edges = u :: us →
      s.hub.injEntries k ≠ [] →
      ∃ t, exec (.injSourceEdge k dt f up) s = .next t ∧ t.mb = s.mb ∧ (t.hub.core k).edges = us ∧
        ((s.hub.core k).injBusy = false →
          (t.hub.core k).dues = (s.hub.core k).dues ++ [u + s.hub.get (Obj.coreInjDelay k) * 819200] ∧
          t.hub.objs = s.hub.objs) ∧
        ((s.hub.core k).injBusy = true → (t.hub.core k).dues = (s.hub.core k).dues ∧
          t.hub.get (Obj.coreInjDropped k) = (s.hub.get (Obj.coreInjDropped k) + 1) % 2 ^ 32)) ∧
  (∀ (k : Fin 48) (d : Nat) (ds : List Nat) (holds : List (Int × Bool)) (x : Fin 3) (s : State),
    s.mb.injects = true → (s.hub.core k).dues = d :: ds → (s.hub.core k).injBusy = false →
      (d + 2 * uSlot ≤ gridU s.hub.time.nextGrid ∨ gridU s.hub.time.nextGrid ≤ d ∨ s.hub.injRangeChange k = false →
        ∃ t, exec (.injectedHold k holds x) s = .next t ∧ t.mb = s.mb ∧ (t.hub.core k).dues = ds ∧
          (t.hub.core k).injHold = t.hub.injStamp d ((x.val : Int) - 1) ∧
          (t.hub.core k).injQ.map (·.input) = s.hub.injEntries k ∧
          t.hub.get (Obj.coreInjStarts k) = (s.hub.get (Obj.coreInjStarts k) + 1) % 2 ^ 32 ∧
          t.hub.get (Obj.coreInjLastHold k) = time96 (t.hub.core k).injHold 0) ∧
      (gridU s.hub.time.nextGrid < d + 2 * uSlot → d < gridU s.hub.time.nextGrid → s.hub.injRangeChange k = true →
        ∃ t, exec (.injectedHold k holds x) s = .next t ∧ t.mb = s.mb ∧ (t.hub.core k).dues = ds ∧
          (t.hub.core k).defer = some s.hub.time.nextGrid ∧ (t.hub.core k).injQ = (s.hub.core k).injQ ∧
          t.hub.get (Obj.coreInjDeferred k) = (s.hub.get (Obj.coreInjDeferred k) + 1) % 2 ^ 32)) ∧
  (∀ (k : Fin 48) (q : ReqHead) (s : State), Granted q (Obj.coreInjSoftStart k) 1 1 (actInjSoftStart k) s → s.mb.injects = true →
    s.hub.injEntries k ≠ [] → (s.hub.core k).injBusy = false → 0 < s.hub.incr 0 → s.hub.incr 0 ≤ 2 ^ 24 * uGrid →
    ∃ t, exec (.injSoftStart q k) s = .next t ∧ t.mb = s.mb ∧ (t.hub.core k).dues =
      (s.hub.core k).dues ++ [(arrived q s).boundary + s.hub.get (Obj.coreInjDelay k) * 819200])

/-- The hold-skew measurement (R123): HOLD_SKEW reports it for each die that takes part, and its HOLD_TRIM moves by at most one
step; the other dies' stay as they were.
(Model's choices within it: log 44.) -/
def Obligations.HoldSkew : Prop :=
  ∀ (skews : List Int) (s : State), (s.mb.drives = true ∨ s.mb.mode = .safe ∧ s.mb.samples = true) →
    ∃ t, exec (.holdSkewMeasure skews) s = .next t ∧ t.mb = s.mb ∧
      ∀ f, f < 4 →
        (s.hub.feUp f = true → t.hub.getI 16 (Obj.holdSkew f) = clampInt (-32768) 32767 (skews.getD f 0) ∧
          t.hub.getI 8 (Obj.holdTrim f) - s.hub.getI 8 (Obj.holdTrim f) ≤ 1 ∧
          s.hub.getI 8 (Obj.holdTrim f) - t.hub.getI 8 (Obj.holdTrim f) ≤ 1) ∧
        (s.hub.feUp f = false → t.hub.get (Obj.holdSkew f) = s.hub.get (Obj.holdSkew f) ∧
          t.hub.get (Obj.holdTrim f) = s.hub.get (Obj.holdTrim f))

/-! ### Calibration (chapters 4 and 6) -/

/-- The swing core (Table 4.5, R139 to R141): a takeover begins an overlap, a matched overlap ends in SERVING or, on the way out, in
IDLE with the core ACTIVE again, a mismatch counts, a second mismatch on the way out makes the swing core permanent, and so do 16
REF conversions out of limits, unless it already is: then the core is FAULTED. -/
def Obligations.SwingCore : Prop :=
  ∀ (f : Fin 4) (c : Fin 12) (diff : Nat) (q : ReqHead) (s : State),
    (Granted q (Obj.swingRequest f) 1 c (actSwing f c) s → ∃ t, exec (.swingRequestTakeover q f c) s = .next t ∧ t.mb = s.mb ∧
      t.hub.swingSt f = 1 ∧ t.hub.get (Obj.swingCore f) = c ∧ t.hub.get (Obj.coreCoreStatus (f * 12 + c)) = 1) ∧
    (Granted q (Obj.swingRequest f) 1 0xFE (actSwing f 0xFE) s → s.hub.swingSt f = 2 → s.hub.get (Obj.swingCore f) = c →
      ∃ t, exec (.swingRequestReturn q f) s = .next t ∧ t.mb = s.mb ∧ t.hub.swingSt f = 3 ∧
        t.hub.get (Obj.coreCoreStatus (f * 12 + c)) = 1) ∧
    (s.mb.samples = true → s.hub.feUp f = true → s.hub.get (Obj.swingCore f) = c →
      (s.hub.swingSt f = 1 → diff ≤ s.hub.get Obj.swingMatchLsb → ∃ t, exec (.swingOverlapDone f diff) s = .next t ∧
        t.mb = s.mb ∧ t.hub.swingSt f = 2 ∧ t.hub.get (Obj.coreCoreStatus (f * 12 + c)) = 3 ∧
        (t.hub.fe f).swing.from_ = (s.hub.fe f).swing.start + s.hub.get Obj.swingOverlapFrames) ∧
      (s.hub.swingSt f = 3 → diff ≤ s.hub.get Obj.swingMatchLsb → (s.hub.bg f).queue = [] →
        ∃ t, exec (.swingOverlapDone f diff) s = .next t ∧ t.mb = s.mb ∧ t.hub.swingSt f = 0 ∧
          t.hub.get (Obj.swingCore f) = 0xFF ∧ t.hub.get (Obj.coreCoreStatus (f * 12 + c)) = 0) ∧
      (s.hub.swingSt f = 1 ∨ s.hub.swingSt f = 3 → s.hub.get Obj.swingMatchLsb < diff →
        ∃ t, exec (.swingOverlapDone f diff) s = .next t ∧ t.mb = s.mb ∧
          t.hub.get (Obj.swingMismatches f) = (s.hub.get (Obj.swingMismatches f) + 1) % 2 ^ 32 ∧
          (s.hub.swingSt f = 3 → (s.hub.fe f).swing.failedOnce = true → t.hub.swingSt f = 4 ∧
            t.hub.get (Obj.coreCoreStatus (f * 12 + c)) = 4 ∧ t.hub.bit (Obj.retiredCores f) c = true))) ∧
    (s.mb.samples = true → s.hub.feUp f = true → 16 ≤ (s.hub.core (f * 12 + c)).refStreak → s.hub.get (Obj.coreCoreStatus (f * 12 + c)) < 4 →
      ∀ k : Fin 48, k.val = f * 12 + c → ∃ t, exec (.coreFault k) s = .next t ∧ t.mb = s.mb ∧
        (s.hub.swingSt f ≠ 4 → t.hub.swingSt f = 4 ∧ t.hub.get (Obj.swingCore f) = c ∧ t.hub.get (Obj.coreCoreStatus k) = 4 ∧
          t.hub.bit (Obj.retiredCores f) c = true) ∧
        (s.hub.swingSt f = 4 → t.hub.get (Obj.coreCoreStatus k) = 5 ∧
          ∀ j, j ≠ Obj.cbLost → j ≠ Obj.coreCoreStatus k → t.hub.get j = s.hub.get j))

/-- Background calibration (R178, R179, R181): a round begins on each die that is UP, has no permanent swing core and no round
running, with the swing core first and then the cores in service in ascending order; a phase too noisy is repeated once and then
given up; ZERO, PLUS and MINUS follow each other, and after MINUS the converter has its new terms, counted and dated.
(Model's choices within it: log 6, log 48, log 174.) -/
def Obligations.BackgroundCalibration : Prop :=
  ∀ (f : Fin 4) (c : Nat) (mean : Int) (spread : Nat) (s : State), s.mb.samples = true →
    (s.mb.mode ≠ .calibrate → s.hub.flag Obj.calBgEnable = true → s.hub.get Obj.calCyclePeriod ≠ 0 →
      ∃ t, exec .bgCalRoundStart s = .next t ∧ t.mb = s.mb ∧
        (s.hub.feUp f = true → s.hub.swingSt f ≠ 4 → (s.hub.bg f).round = false →
          (t.hub.bg f).round = true ∧ t.hub.get (Obj.caldBgRoundStart f) = t.hub.stamp ∧
          (t.hub.bg f).queue = (List.range 12).filter (fun j => s.hub.get (Obj.coreCoreStatus (f * 12 + j)) < 4) ∧
          (s.hub.swingSt f = 0 → (t.hub.bg f).conv = some 12 ∧ (t.hub.bg f).phase = 0)) ∧
        (s.hub.feUp f = false ∨ s.hub.swingSt f = 4 ∨ (s.hub.bg f).round = true → t.hub.bg f = s.hub.bg f)) ∧
    (s.hub.feUp f = true → (s.hub.bg f).conv = some c → c ≤ 12 → ∃ t, exec (.bgCalPhaseDone f mean spread) s = .next t ∧ t.mb = s.mb ∧
      (s.hub.bg f).phaseAt + 800 * tMs ≤ t.hub.time.ticks ∧
      (500 ≤ spread → (s.hub.bg f).repeated = false →
        t.hub.bg f = { s.hub.bg f with repeated := true, phaseAt := t.hub.time.ticks } ∧ t.hub.objs = s.hub.objs) ∧
      (500 ≤ spread → (s.hub.bg f).repeated = true → (t.hub.bg f).conv = none ∧
        t.hub.get (convKeys f c).1 = s.hub.get (convKeys f c).1 ∧ t.hub.get (convKeys f c).2 = s.hub.get (convKeys f c).2) ∧
      (spread < 500 → (s.hub.bg f).phase = 0 → t.hub.bg f =
        { s.hub.bg f with phase := 1, phaseAt := t.hub.time.ticks, repeated := false, zero := mean } ∧ t.hub.objs = s.hub.objs) ∧
      (spread < 500 → (s.hub.bg f).phase = 1 → t.hub.bg f =
        { s.hub.bg f with phase := 2, phaseAt := t.hub.time.ticks, repeated := false, plus := mean } ∧ t.hub.objs = s.hub.objs) ∧
      (spread < 500 → (s.hub.bg f).phase = 2 → (t.hub.bg f).conv = none ∧
        (c < 12 → t.hub.get (Obj.calcBgCalCount (f * 12 + c)) = (s.hub.get (Obj.calcBgCalCount (f * 12 + c)) + 1) % 2 ^ 32 ∧
          t.hub.get (Obj.calcBgCalLast (f * 12 + c)) = t.hub.stamp) ∧
        (c = 12 → t.hub.get (Obj.caldSwingCalLast f) = t.hub.stamp)))

/-- Foreground calibration (R182, R184, R185): a step that succeeds begins the next one of its kind; a converter that is unstable
twice ends the calibration with nothing applied; APPLY ends it in CONFIGURE with CAL_RESULT 0; and CAL_CANCEL ends it with
CAL_INTERRUPTED.
(Model's choices within it: log 49, log 50, log 174.) -/
def Obligations.ForegroundCalibration : Prop :=
  ∀ (r : CalReading) (q : ReqHead) (p : Nat) (s : State), s.mb.mode = .calibrate →
    let step := s.hub.get Obj.calStep
    let next := (calSteps (s.hub.get Obj.calKind)).getD (s.hub.cal.step + 1) 6
    let converters := (s.hub.feList.flatMap (fun f => (List.range 13).map (fun c => f * 13 + c))).find? (unstable r.convs)
    ((step = 1 ∧ converters = none) ∨ step = 3 ∨ step = 4 ∨ step = 5 →
      ∃ t, exec (.calStepDone r) s = .next t ∧ t.mb = s.mb ∧ t.hub.get Obj.calStep = next ∧
        s.hub.cal.stepAt + calStepMs step * tMs ≤ t.hub.time.ticks ∧ t.hub.cal.stepAt = t.hub.time.ticks) ∧
    (step = 1 → converters = some p → ∃ t, exec (.calStepDone r) s = .next t ∧ t.mb.mode = .configure ∧
      t.hub.get Obj.calResult = Abort.calConverterUnstable ∧ t.hub.get Obj.calStep = 0 ∧ t.hub.cal.results = []) ∧
    (step = 6 → ∃ t, exec (.calStepDone r) s = .next t ∧ t.mb.mode = .configure ∧ t.mb.cause = 0x0602 ∧
      t.hub.get Obj.calResult = 0 ∧ t.hub.get Obj.calStep = 0 ∧
      t.hub.get Obj.calChannelsFailed = s.hub.cal.failed.length) ∧
    (step ≠ 0 → Granted q Obj.calCancel 1 1 actCalCancel s → ∃ t, exec (.calCancel q) s = .next t ∧ t.mb.mode = .configure ∧
      t.mb.cause = 0x0603 ∧ t.hub.get Obj.calResult = Abort.calInterrupted ∧ t.hub.get Obj.calStep = 0)

/-- R175: at CAL_NVM_INTERVAL every calibration record is written from the objects in force, one generation above the highest
stored, into the NVM of each hub die that the part has.
(Model's choices within it: log 46.) -/
def Obligations.BackgroundResultsAreStored : Prop :=
  ∀ (num : Nat) (s : State), s.mb.up = true → s.mb.loader = false → s.hub.part.fe ≤ 4 → num ∈ s.hub.part.records → 0x100 ≤ num → num ≠ 0x150 →
    ∃ t r, exec (.bgCalNvmWrite []) s = .next t ∧ t.mb = s.mb ∧ t.hub.objs = s.hub.objs ∧ t.hub.cal.nvmAt = t.hub.time.ticks ∧
      t.hub.copyOf 0 num = some r ∧ (s.hub.part.simplex = false → t.hub.copyOf 1 num = some r) ∧ r.ok s.hub.part = true ∧
      r.number = num ∧ r.generation = s.hub.topGen num + 1 ∧ r.payload = s.hub.recordPayload num

/-- A record is read back from the bytes that Table 6.2 gives it, field by field (R174).
(Model's choices within it: log 46, log 176.) -/
def Obligations.RecordIsReadBack : Prop :=
  ∀ r : CalRec, r.number < 2 ^ 16 → r.kind < 2 ^ 8 → r.format < 2 ^ 8 → r.payload.length < 2 ^ 16 → r.rev < 2 ^ 16 →
    r.generation < 2 ^ 32 → r.written < 2 ^ 96 → r.boot < 2 ^ 32 → r.serial < 2 ^ 64 → r.check < 2 ^ 32 →
    parseRec r.bytes = r ∧ r.bytes.length = 44 + r.payload.length

/-! ### Filter pipeline (chapter 5) -/

/-- Raw frames (R46, R47): a good frame that is complete within 1,000 ns of its grid instant joins the buffer of the die it reaches, a
bad or a later one does not; 1,000 ns after its instant a grid index is released from both buffers, and a die without its frame has a
miss, which is counted.
(Model's choices within it: log 41, log 124.) -/
def Obligations.RawFrames : Prop :=
  (∀ (x : Fin 2) (f : Fin 4) (good : Bool) (r : RawFrame) (dt : Nat) (s : State), s.mb.samples = true → s.hub.feUp f = true →
    s.hub.pathRuns x = true → (s.hub.alignOf x f).failed = false → s.hub.nextFrame x f = some r →
    (good = true → (s.hub.waitTicks dt).now 0 ≤ gridU r.idx + uUs →
      ∃ t, exec (.rawFrameArrival x f good dt) s = .next t ∧ t.mb = s.mb ∧ t.hub.objs = s.hub.objs ∧
        t.hub.time.ticks = s.hub.time.ticks + dt ∧
        t.hub.alignOf x f = { s.hub.alignOf x f with arrived := (s.hub.alignOf x f).arrived ++ [r] }) ∧
    (good = false ∨ gridU r.idx + uUs < (s.hub.waitTicks dt).now 0 →
      exec (.rawFrameArrival x f good dt) s = .next { s with hub := ({ s.hub with out := [] } : Hub).waitTicks dt })) ∧
  (∀ (x : Fin 2) (f : Fin 4) (full0 full1 : Bool) (s : State), s.mb.samples = true → s.hub.relIdx < s.hub.time.nextGrid →
    s.hub.wasHeld s.hub.relIdx = true →
    ∃ t, exec (.rawFrameRelease full0 full1) s = .next t ∧ t.mb = s.mb ∧ t.hub.relIdx = s.hub.relIdx + 1 ∧
      (0 < s.hub.incr 0 → gridU s.hub.relIdx + uUs ≤ t.hub.now 0) ∧
      (s.hub.feUp f = true → s.hub.pathRuns x = true →
        (t.hub.alignOf x f).arrived = (s.hub.alignOf x f).arrived.filter (fun o => o.idx > s.hub.relIdx) ∧
        (t.hub.alignOf x f).recent =
          ((s.hub.gotFrame x f s.hub.relIdx).isNone :: (s.hub.alignOf x f).recent).take 1024)) ∧
  (∀ (x : Fin 2) (f : Fin 4) (i : Nat) (h : Hub), h.feUp f = true → h.pathRuns x = true → h.gotFrame x f i = none →
    (h.releaseOne i x f).get (Obj.hdLinkMisses x f) = (h.get (Obj.hdLinkMisses x f) + 1) % 2 ^ 32)

/-- Outputs leave (R111, R130, R155): the next output of a channel's oldest history, the mean of a gated window and the mean of a
diagnostic period each become the channel's latest output, and are not given again.
(Model's choices within it: log 38, log 40.) -/
def Obligations.OutputsLeave : Prop :=
  ∀ (n : Fin 384) (k : Fin 48) (q : Fin 3) (c : ChainCtx) (rest : List ChainCtx) (d : Nat) (a : DiagAcc) (s : State),
    s.mb.samples = true →
    (s.hub.feUp (chFe n) = true → s.hub.flag (Obj.chGated n) = false → (s.hub.chain n).ctxs = c :: rest →
      c.newest c.next < s.hub.relIdx → ∃ t, exec (.filterOutput n) s = .next t ∧ t.mb = s.mb ∧
        (t.hub.chain n).ctxs =
          (if c.last = some (c.next : Int) then rest else { c with next := c.next + 1, fresh := false } :: rest) ∧
        ∃ r, (n.val, r) ∈ t.hub.outs ∧ r = (c.output s.hub (s.hub.chain n).hist c.next).1.1 ∧ r.instant = gridU (c.next * c.per)) ∧
    (s.hub.feUp (chFe n) = true → (s.hub.ch n).avg.done = some d → d < s.hub.relIdx →
      ∃ t, exec (.gatedAverageOutput n) s = .next t ∧ t.mb = s.mb ∧ (t.hub.ch n).avg = {} ∧
        (n.val, (s.hub.averageRec n).1) ∈ t.hub.outs) ∧
    (s.hub.feUp (k / 12) = true → s.hub.diagNext k q = some a →
      ∃ t, exec (.diagOutput k q) s = .next t ∧ t.mb = s.mb ∧ (384 + k.val * 3 + q.val, diagRec a) ∈ t.hub.outs ∧
        (∀ e, e ∈ (t.hub.core k).diag → e.1 = q.val → a.fin ≤ e.2.fin ∧ (e.2.fin = a.fin → e.2.out = true)) ∧
        ∀ e : Nat × DiagAcc, e.1 ≠ q.val → (e ∈ (t.hub.core k).diag ↔ e ∈ (s.hub.core k).diag))

/-- The output word of Table 5.2b gives back its value and its tags; stage 5 limits a value to ±8,388,607 and leaves a smaller one
within half a unit (R151, R160). -/
def Obligations.OutputWords : Prop :=
  ∀ (v : Int) (y : Rat) (c w n e t o : Bool) (r : Nat),
    (-outMax ≤ v → v ≤ outMax → let x := outWord v c w n e t o r
      outValue x = v ∧ x < 2 ^ 32 ∧ outTag x 7 = c ∧ outTag x 6 = w ∧ outTag x 5 = n ∧ outTag x 4 = e ∧ outTag x 3 = t ∧
        outTag x 2 = o ∧ x % 4 = r % 4) ∧
    -outMax ≤ stage5 y ∧ stage5 y ≤ outMax ∧
    (stage5Clamped y = false → 2 * ratAbs (y - (stage5 y : Rat)) ≤ 1)

/-- The CIC's impulse response spans N(R − 1) + 1 raw samples, and its DC gain is 1, whatever its order and decimation (R148); the
interpolator's weights sum to 1, and at μ = 0 it passes its value through (R150).
(Model's choices within it: log 9, log 38.) -/
def Obligations.StagesPassConstants : Prop :=
  ∀ (r order n : Nat) (x mu : Rat), 0 < r →
    (cicWeights r order).length = order * (r - 1) + 1 ∧
    (order * (r - 1) + 1 ≤ n → cic r order (List.replicate n x) = x) ∧
    (lagrange mu).1 + (lagrange mu).2.1 + (lagrange mu).2.2.1 + (lagrange mu).2.2.2 = 1 ∧ lagrange 0 = (0, 1, 0, 0)

/-- Synchronising resets (R115, R157, R168): one due after an excitation change is taken together with every other that is due at the
same raw-frame boundary; it, and one that RESYNC_REQUEST asks for, count in RESYNC_COUNT and date LAST_RESYNC at their boundary. -/
def Obligations.SynchronisingResets : Prop :=
  (∀ (n : Fin 384) (g m : Nat) (s : State), s.mb.samples = true → s.hub.feUp (chFe n) = true → (s.hub.ch n).resyncAt = some g →
    ∃ t, exec (.excResync n) s = .next t ∧ t.mb = s.mb ∧ (t.hub.ch n).resyncAt = none ∧
      (m < 384 → s.hub.feUp (chFe m) = true → (s.hub.ch m).resyncAt = some g → (t.hub.ch m).resyncAt = none ∧
        (s.hub.flag (Obj.chGated m) = false →
          t.hub.get (Obj.chResyncCount m) = (s.hub.get (Obj.chResyncCount m) + 1) % 2 ^ 32 ∧
          t.hub.get (Obj.chLastResync m) = time96 (gridU g) 0)) ∧
      (m < 384 → (s.hub.ch m).resyncAt ≠ some g → (t.hub.ch m).resyncAt = (s.hub.ch m).resyncAt ∧
        t.hub.get (Obj.chResyncCount m) = s.hub.get (Obj.chResyncCount m))) ∧
  (∀ (n : Fin 384) (v : Fin 65536) (q : ReqHead) (s : State), s.hub.flag (Obj.chGated n) = false →
    Granted q Obj.resyncRequest 2 v (actResync v) s → v.val = n.val ∨ v.val = 0xFFFF ∧ s.hub.feUp (chFe n) = true →
      ∃ t, exec (.resyncRequest q v) s = .next t ∧ t.mb = s.mb ∧
        t.hub.get (Obj.chResyncCount n) = (s.hub.get (Obj.chResyncCount n) + 1) % 2 ^ 32 ∧
        t.hub.get (Obj.chLastResync n) = time96 (gridU s.hub.time.nextGrid) 0)

/-- A detector's update (R163, R164): the oldest output of its source is taken; a lost one only leaves a gap; a block detector gives
a result at the last output of its block, a running detector at each.
(Model's choices within it: log 43.) -/
def Obligations.DetectorsUpdate : Prop :=
  ∀ (d : Fin 64) (due : Nat) (r : OutRec) (rest : List (Nat × OutRec × Bool)) (s : State), s.mb.up = true →
    (s.hub.det d).inbox = (due, r, false) :: rest →
    let type := s.hub.get (Obj.detType d)
    let len := if type = 1 then s.hub.get (Obj.detParamA d) else 2 ^ s.hub.get (Obj.detParamA d)
    let lost := r.lost0 && r.lost1
    let ends := type = 3 ∨ type = 4 ∨ ((type = 1 ∨ type = 2) ∧ len ≤ (s.hub.det d).cnt + 1)
    ∃ t, exec (.detectorUpdate d) s = .next t ∧ t.mb = s.mb ∧ (t.hub.det d).inbox = rest ∧
      (lost = true → (t.hub.det d).gap = true ∧ t.hub.objs = s.hub.objs) ∧
      (lost = false → ends → t.hub.get (Obj.detUpdates d) = (s.hub.get (Obj.detUpdates d) + 1) % 2 ^ 32 ∧
        t.hub.get (Obj.detResultTime d) = time96 r.instant 0) ∧
      (lost = false → type = 1 ∨ type = 2 → (s.hub.det d).cnt + 1 < len → (t.hub.det d).cnt = (s.hub.det d).cnt + 1 ∧
        t.hub.objs = s.hub.objs)

/-! ### Time (chapters 7 and 8) -/

/-- The servo (Table 7.3, R201 to R203, R209): a valid measurement is taken and reported, and moves the state of its base; a lost
source and a stall of 2 s take a locked base to HOLDOVER, and a lost source an acquiring one to UNSET. While the Lead's house
processor restarts no measurement is taken (R44).
(Model's choices within it: log 81, log 88.) -/
def Obligations.ServoStates : Prop :=
  ∀ (b : Fin 2) (freq : Nat) (theta : Int) (s : State), servoRuns s.mb.mode = true → s.hub.get (Obj.tbSource b) ≠ 0 →
    let st := s.hub.get (Obj.tbState b)
    let jump := s.hub.get (Obj.tbJumpThreshold b) * 65536
    (s.hub.stalled = true → s.mb.mode ≠ .sync →
      exec (.timeMeasurement b freq) s = .next { s with hub := { s.hub with out := [] } }) ∧
    (s.hub.stalled = false → (s.hub.servo b).meas = some theta →
      ∃ t, exec (.timeMeasurement b freq) s = .next t ∧ t.mb.mode = s.mb.mode ∧
      (t.hub.servo b).meas = none ∧ (t.hub.servo b).lastUpdate = s.hub.time.ticks ∧
      t.hub.get (Obj.tbOffset b) = ofSigned 64 theta ∧
      (st = 4 → t.hub.get (Obj.tbState b) = 3) ∧
      (st = 3 → (s.hub.servo b).force = false → theta.natAbs < uUs → t.hub.get (Obj.tbState b) = 1) ∧
      (st ≤ 2 → jump < theta.natAbs → t.hub.get (Obj.tbState b) = 2 ∧
        t.hub.get (Obj.tbJumpsRefused b) = (s.hub.get (Obj.tbJumpsRefused b) + 1) % 2 ^ 32) ∧
      (st = 2 → theta.natAbs ≤ jump → t.hub.get (Obj.tbState b) = 1)) ∧
    (s.hub.get (Obj.tbSource b) = 3 ∨ s.hub.sourceLost b = true → ∃ t, exec (.timeSourceLost b) s = .next t ∧ t.mb = s.mb ∧
      t.hub.get (Obj.tbState b) = (if st = 3 then 4 else if st ≤ 1 then 2 else st)) ∧
    (st ≤ 1 → ∃ t, exec (.servoStall b) s = .next t ∧ t.mb = s.mb ∧ t.hub.get (Obj.tbState b) = 2 ∧
      t.hub.bit (Obj.tbStatus b) 4 = true ∧ (s.hub.servo b).lastUpdate + 2 * tSec ≤ t.hub.time.ticks)

/-- Steps, writes of the bases and their root references (R203, R206 to R208, R216, R225, R226): a step moves its base at its tick
(ARRAY's after the hold of its raw-frame boundary) and no grid instant is held twice; SET puts a base at the value written, ARRAY
after a hold that is still to come; INCREMENT of HOST takes its value;
JUMP_ACCEPT makes the next measurement a step; a SOURCE written begins anew; a PPS_IN edge is valid and dates ARRAY, or counts as
irregular; and the cross-check reports the second that ends.
(Model's choices within it: log 81, log 82, log 185.) -/
def Obligations.BasesStep : Prop :=
  (∀ (b : Fin 2) (d : Int) (k : Nat) (s : State), (s.hub.servo b).step = some (d, k) →
    (b.val = 0 → s.mb.samples = true → (s.hub.waitTick k).boundary < gridU s.hub.time.nextGrid) →
    ∃ t n, exec (.timeStep b) s = .next t ∧ t.mb = s.mb ∧
      (t.hub.servo b).step = none ∧ t.hub.time.ticks = s.hub.time.ticks + n ∧ k ≤ t.hub.time.ticks ∧
      t.hub.acc b = (((s.hub.acc b + n * s.hub.incr b : Nat) : Int) + d).toNat ∧
      t.hub.get (Obj.tbSteps b) = (s.hub.get (Obj.tbSteps b) + 1) % 2 ^ 32 ∧
      s.hub.time.nextGrid ≤ t.hub.time.nextGrid ∧ (b.val = 0 → t.hub.acc 0 < gridU t.hub.time.nextGrid * 2 ^ 24)) ∧
  (∀ (c : Fin 4) (w : Fin 79228162514264337593543950336) (q : ReqHead) (s : State), c.val ≠ 2 →
    Granted q (Obj.tbSet c) 12 w (actSet c w) s → 0 < s.hub.incr 0 → s.hub.incr 0 ≤ 2 ^ 24 * uGrid →
    let a := (arrived q s).waitLead
    ∃ t, exec (.set q c w) s = .next t ∧ t.mb = s.mb ∧
      ((arrived q s).setWaits s.mb c = false →
        t.hub.acc c = uOfTime96 w * 2 ^ 24 + ((a.waitFor 0 (a.boundary + b2n (c.val = 0))).acc 0 - a.boundary * 2 ^ 24)) ∧
      ((arrived q s).setWaits s.mb c = true → t.hub.acc 0 = (arrived q s).acc 0 ∧
        t.hub.srv.sets.map (fun e => (e.word, e.from_)) =
          s.hub.srv.sets.map (fun e => (e.word, e.from_)) ++ [(w.val, (arrived q s).time.ticks + applyLead)])) ∧
  (∀ (e : SetWait) (rest : List SetWait) (s : State), (s.hub.servo 0).step = none → s.hub.srv.sets = e :: rest →
    let a := s.hub.waitTick e.from_
    a.holdDue s.mb.samples = false →
    ∃ t, exec (.timeStep 0) s = .next t ∧ t.mb = s.mb ∧ t.hub.srv.sets = rest ∧
      t.hub.acc 0 = uOfTime96 e.word * 2 ^ 24 + ((a.waitFor 0 (a.boundary + 1)).acc 0 - a.boundary * 2 ^ 24)) ∧
  (∀ (b : Fin 2) (q : ReqHead) (s : State), Granted q (Obj.tbJumpAccept b) 1 1 (actJumpAccept b) s →
    ∃ t, exec (.jumpAccept q b) s = .next t ∧ t.mb = s.mb ∧
      (t.hub.servo b).force = true ∧ (s.hub.get (Obj.tbState b) ≤ 2 → t.hub.get (Obj.tbState b) = 3)) ∧
  (∀ (v : Fin 18446744073709551616) (q : ReqHead) (s : State), Granted q (Obj.tbIncrement 3) 8 v (actIncrement v) s →
    ∃ t, exec (.incrementWrite q v) s = .next t ∧ t.mb = s.mb ∧ t.hub.get (Obj.tbIncrement 3) = v ∧
      (0 < s.hub.incr 0 → s.hub.incr 0 ≤ 2 ^ 24 * uGrid → (arrived q s).waitLead.boundary ≤ t.hub.now 0)) ∧
  (∀ (b : Fin 2) (port : Bool) (u : Fin 256) (q : ReqHead) (s : State),
    let k := if port then Obj.tbSourcePort b else Obj.tbSource b
    Granted q k 1 u (actStore k u) s → ∃ t, exec (.sourceWrite q b port u) s = .next t ∧ t.mb.mode = s.mb.mode ∧
      t.hub.get k = u ∧ (s.hub.get k ≠ u → (t.hub.servo b).thetas = [] ∧ (t.hub.servo b).meas = none ∧
        t.hub.get (Obj.tbState b) = if t.hub.get (Obj.tbSource b) = 0 then 0 else 4)) ∧
  (∀ (w : Fin 79228162514264337593543950336) (q : ReqHead) (s : State), Granted q Obj.todNext 12 w (actTodNext w) s →
    0 < s.hub.incr 0 → s.hub.incr 0 ≤ 2 ^ 24 * uGrid →
    ∃ t, exec (.todNext q w) s = .next t ∧ t.mb = s.mb ∧ (arrived q s).boundary ≤ t.hub.now 0 ∧
      t.hub.time.pins.todNext = some (w.val / 2 ^ 48, t.hub.now 2)) ∧
  (∀ (valid : Bool) (dt : Nat) (f : Fin 512) (s : State), s.mb.mode ≠ .curtainDown → s.mb.mode ≠ .boot →
    (∃ t, exec (.refclkInValidChange valid) s = .next t ∧ t.mb = s.mb ∧ t.hub.flag Obj.refclkInValid = valid ∧
      ∀ k, k ≠ Obj.cbLost → k ≠ Obj.refclkInValid → t.hub.get k = s.hub.get k) ∧
    (∃ t, exec (.ppsInEdge dt f) s = .next t ∧ t.mb = s.mb ∧
      (ppsValid s.hub.time.pins.lastValid ((s.hub.waitTicks dt).edgeStamp 2 f) = true →
        t.hub.get Obj.ppsInEdges = (s.hub.get Obj.ppsInEdges + 1) % 2 ^ 32 ∧
        t.hub.get Obj.ppsInIrregular = s.hub.get Obj.ppsInIrregular ∧
        t.hub.get Obj.ppsInLast = time96 ((s.hub.waitTicks dt).edgeStamp 0 f) 0) ∧
      (ppsValid s.hub.time.pins.lastValid ((s.hub.waitTicks dt).edgeStamp 2 f) = false →
        t.hub.get Obj.ppsInIrregular = (s.hub.get Obj.ppsInIrregular + 1) % 2 ^ 32 ∧
        t.hub.get Obj.ppsInEdges = s.hub.get Obj.ppsInEdges)) ∧
    ∃ t, exec .xchkSecond s = .next t ∧ t.mb = s.mb ∧ t.hub.time.pins.xchkN = 0 ∧
      t.hub.get Obj.xchkTime = time96 (t.hub.now 0 / uSec * uSec) 0 ∧
      (0 < s.hub.incr 0 → (s.hub.now 0 / uSec + 1) * uSec ≤ t.hub.now 0))

/-- Time transfer on native ports (R211 to R215): the four stamps of an exchange are taken as its messages leave and arrive; its
offset and delay are those of a symmetrical path; a failed one counts; FREQ_RATIO is the mean of the ratios measured over
SERVO_TC, to a whole unit; and a port no longer eligible gives way to the best one.
(Model's choices within it: log 82, log 83, log 186, log 187.) -/
def Obligations.TimeTransfer : Prop :=
  ∀ (u : Fin 8) (dt t2 t3 t1 t4 : Nat) (f : Fin 512) (seq : Fin 65536) (st : Fin 6) (m : TtFollow) (b : Fin 2) (v : Nat)
    (x y o delay ratio : Int) (s : State),
    let down := dnLane u
    let up := upPort u
    let port (h : Hub) (l : Nat) : TtPort := vget h.time.ports l
    (s.hub.laneTalks down = true → s.hub.timeRole (laneDie down) = true →
      (∃ t, exec (.ttSyncSend u dt f) s = .next t ∧ t.mb = s.mb ∧ (port t.hub down).t1 = some (t.hub.edgeStamp 0 f) ∧
        (port t.hub down).seq = ((port s.hub down).seq + 1) % 65536 ∧
        (port t.hub down).siteAt = (t.hub.edgeStamp 1 f : Int) - t.hub.edgeStamp 0 f ∧
        .lane down 0x01 (toBytes 2 (port t.hub down).seq) ∈ t.hub.out) ∧
      ((port s.hub down).t1 = some t1 → (port s.hub down).t4 = some t4 → ∃ t, exec (.ttFollowSend u) s = .next t ∧
        t.mb = s.mb ∧ (port t.hub down).t1 = none ∧ (port t.hub down).t4 = none ∧
        ((s.hub.lane down).msgs.length < 64 → ∃ bytes, (t.hub.lane down).msgs = (s.hub.lane down).msgs ++ [⟨0x03, bytes⟩])) ∧
      ((port s.hub down).t1 = some t1 → (port s.hub down).seq = seq →
        ∃ t, exec (.ttDelayReceive u dt f seq st true) s = .next t ∧ t.mb = s.mb ∧
          (port t.hub down).t4 = some (t.hub.edgeStamp 0 f) ∧ (port t.hub down).slaveState = st)) ∧
    (s.hub.laneNative up = true →
      (∃ t, exec (.ttSyncReceive u dt f seq true) s = .next t ∧ t.mb = s.mb ∧ (port t.hub up).seq = seq ∧
        (port t.hub up).t2 = some (t.hub.edgeStamp 0 f) ∧ t.hub.time.ticks = s.hub.time.ticks + dt) ∧
      (s.hub.laneTalks up = true → s.hub.timeRole (laneDie up) = true → (port s.hub up).t2 = some t2 → (port s.hub up).t3 = none →
        ∃ t, exec (.ttDelaySend u dt f) s = .next t ∧ t.mb = s.mb ∧ (port t.hub up).t3 = some (t.hub.edgeStamp 0 f) ∧
          (0 < s.hub.incr 0 → t2 + 100 * uUs ≤ t.hub.now 0) ∧
          .lane up 0x02 (toBytes 2 (port s.hub up).seq ++ [s.hub.get (Obj.tbState 0)]) ∈ t.hub.out) ∧
      ((port s.hub up).t2 = some t2 → (port s.hub up).t3 = some t3 →
        ∃ t, exec (.ttFollowReceive u dt m true) s = .next t ∧ t.mb = s.mb ∧ (port t.hub up).t2 = none ∧ (port t.hub up).t3 = none ∧
          t.hub.get (Obj.portPeerLevel up) = m.level ∧ t.hub.get (Obj.portPeerHubId up) = m.hub ∧
          (m.seq ≠ (port s.hub up).seq → t.hub.get (Obj.portExchangesFailed up) =
            (s.hub.get (Obj.portExchangesFailed up) + 1) % 2 ^ 32) ∧
          ((s.hub.waitTicks dt).now 0 ≤ t3 + 10 * uMs → m.seq = (port s.hub up).seq → (port s.hub up).left = false →
            (port s.hub up).valid < 8 →
            t.hub.get (Obj.portExchanges up) = (s.hub.get (Obj.portExchanges up) + 1) % 2 ^ 32 ∧
            (port t.hub up).masterIncr = m.increment ∧ (port t.hub up).failedInRow = 0)) ∧
      ∃ t, exec (.freqRatioMeasure u ratio) s = .next t ∧ t.mb = s.mb ∧ t.hub.time.ticks = s.hub.time.ticks + 125 * tMs ∧
        (port t.hub up).ratios = (ratio :: (port s.hub up).ratios).take (s.hub.ratioSpan u) ∧
        ((port t.hub up).ratios ≠ [] → ∃ m, t.hub.get (Obj.portFreqRatio up) = ofSigned 32 m ∧
          sumInt (port t.hub up).ratios - (port t.hub up).ratios.length < m * (port t.hub up).ratios.length ∧
          m * (port t.hub up).ratios.length < sumInt (port t.hub up).ratios + (port t.hub up).ratios.length)) ∧
    ((port s.hub up).t3 = some t3 → ∃ t, exec (.ttExchangeFailed u) s = .next t ∧ t.mb = s.mb ∧ (port t.hub up).t3 = none ∧
      (port t.hub up).failedInRow = (port s.hub up).failedInRow + 1 ∧
      t.hub.get (Obj.portExchangesFailed up) = (s.hub.get (Obj.portExchangesFailed up) + 1) % 2 ^ 32) ∧
    (servoRuns s.mb.mode = true → s.hub.get (Obj.tbSource b) = 1 → (s.hub.servo b).port = some u.val →
      s.hub.eligible u = false → s.hub.bestUplink = some v → ∃ t, exec (.uplinkSourceReselect b) s = .next t ∧
        t.mb = s.mb ∧ (t.hub.servo b).port = some v) ∧
    ttTheta2 x (x + delay + o) y (y + delay - o) 0 0 0 0 0 = (2000 * o, 2000 * delay)

/-- The PTP client (R210, R414, R415): an accepted message is counted, Announce keeps the foreign masters, Sync and Follow_Up of the
selected master give t2 and t1, Delay_Req gives t3 and Delay_Resp the measurement; and without Announce it listens again.
(Model's choices within it: log 82, log 87.) -/
def Obligations.PtpClient : Prop :=
  ∀ (dt u : Nat) (f : Fin 512) (lane4 : Bool) (a : PtpAnnounce) (p : PtpHead) (t1 t2 t3 : Int) (s : State),
    s.hub.ptpOn = true → s.hub.ptpPort = some u → u < 8 →
    let c := s.hub.time.ptp
    (a.badFcs = false → a.version = 2 → a.domain = s.hub.get Obj.ptpDomain → a.steps < 255 →
      ∃ t, exec (.ptpAnnounce dt a) s = .next t ∧ t.mb = s.mb ∧
        t.hub.time.ptp.masters = foreignMasters c.masters a (s.hub.time.ticks + dt) ∧
        t.hub.get (Obj.ethRxPtp u) = (s.hub.get (Obj.ethRxPtp u) + 1) % 2 ^ 32) ∧
    (a.badFcs = false → a.version ≠ 2 ∨ a.domain ≠ s.hub.get Obj.ptpDomain ∨ 255 ≤ a.steps →
      ∃ t, exec (.ptpAnnounce dt a) s = .next t ∧ t.mb = s.mb ∧ t.hub.time.ptp = c ∧
        t.hub.get (Obj.ethRxDiscarded u) = (s.hub.get (Obj.ethRxDiscarded u) + 1) % 2 ^ 32 ∧
        t.hub.get (Obj.ethRxPtp u) = s.hub.get (Obj.ethRxPtp u)) ∧
    (a.badFcs = true → ∃ t, exec (.ptpAnnounce dt a) s = .next t ∧ t.mb = s.mb ∧ t.hub.time.ptp = c ∧
      t.hub.get (Obj.ethRxFcsErrors u) = (s.hub.get (Obj.ethRxFcsErrors u) + 1) % 2 ^ 32) ∧
    (p.badFcs = false → p.version = 2 → p.domain = s.hub.get Obj.ptpDomain → c.sel = some p.sender →
      (∃ t, exec (.ptpSync dt f lane4 true p) s = .next t ∧ t.mb = s.mb ∧ t.hub.time.ptp.syncSeq = p.seq ∧
        t.hub.time.ptp.syncT1 = none ∧ t.hub.time.ptp.syncT2 =
          some ((((s.hub.waitTicks dt).edgeStamp s.hub.ptpBase f + lane4Shift lane4 : Nat) : Int) -
            uOfPs (s.hub.get (Obj.portRxLatency (upPort u))))) ∧
      (∃ t, exec (.ptpSync dt f lane4 false p) s = .next t ∧ t.mb = s.mb ∧
        t.hub.time.ptp.syncT1 = some (p.time + p.correction)) ∧
      (c.twoStep = true → c.syncSeq = p.seq → c.syncT2.isSome = true → ∃ t, exec (.ptpFollowUp dt p) s = .next t ∧ t.mb = s.mb ∧
        t.hub.time.ptp.syncT1 = some (p.time + p.correction + c.syncCorr)) ∧
      (c.syncT1 = some t1 → c.syncT2 = some t2 → c.reqT3 = some t3 → c.reqSeq = p.seq → c.wrongScale = false →
        ∃ t, exec (.ptpDelayResp dt p (s.hub.portIdentity u)) s = .next t ∧ t.mb = s.mb ∧ t.hub.get Obj.ptpState = 3 ∧
          t.hub.time.ptp.reqT3 = none ∧
          (((t2 - t1) - (p.time - p.correction - t3)) % 2 = 0 →
            t.hub.get Obj.offsetFromMaster = ofSigned 64 (((t2 - t1) - (p.time - p.correction - t3)) / 2)))) ∧
    (c.syncT1.isSome = true → ∃ t, exec (.ptpDelayReqSend dt f) s = .next t ∧ t.mb = s.mb ∧
      t.hub.time.ptp.reqSeq = (c.reqSeq + 1) % 65536 ∧ t.hub.time.ptp.reqT3.isSome = true ∧
      t.hub.time.ticks = max s.hub.time.ticks (c.reqAt + min dt (2 * tSec * 2 ^ s.hub.get Obj.logDelayReqInterval)) ∧
      t.hub.out = [.eth u 4 (s.hub.portIdentity u * 65536 + (c.reqSeq + 1) % 65536)]) ∧
    ∃ t, exec (.ptpAnnounceTimeout dt) s = .next t ∧ t.mb = s.mb ∧ t.hub.time.ptp.masters = [] ∧ t.hub.time.ptp.sel = none ∧
      t.hub.get Obj.ptpState = 1

/-- Time cues and PPS_OUT (R219 to R223): a fire, unless a higher-numbered cue of the same tick has brought it about already, is
counted and dated by its instant and ends the cue after its last; ARM arms, or
finds no instant left, or disarms; a write of INSTANT, PERIOD or COUNT stays in force; PPS_OUT rises at a whole second or at its
cue and falls PPS_OUT_WIDTH later.
(Model's choices within it: log 85, log 97.) -/
def Obligations.TimeCues : Prop :=
  ∀ (c : Fin 32) (q : ReqHead) (w : Fin 79228162514264337593543950336) (v : Fin 18446744073709551616) (n u : Nat) (s : State),
    let b := s.hub.cueBase c
    let k := vget s.hub.time.cueNext c
    let instant := s.hub.cueInstantAt c k
    (s.mb.up = true → s.hub.cueArmed c = true → ¬(s.hub.time.cueJoint.1 = s.hub.time.ticks ∧ c.val ∈ s.hub.time.cueJoint.2) →
      ∃ t, exec (.timeCueFire c) s = .next t ∧ t.mb = s.mb ∧
      t.hub.get (Obj.cueFireCount c) = (s.hub.get (Obj.cueFireCount c) + 1) % 2 ^ 32 ∧
      t.hub.get (Obj.cueLastFire c) = time96 instant b ∧ vget t.hub.time.cueNext c = k + 1 ∧
      (0 < s.hub.incr b → instant ≤ t.hub.now b) ∧
      (s.hub.cueOver c (k + 1) = true → t.hub.get (Obj.cueState c) % 4 = 2 ∧ t.hub.get (Obj.cueArm c) = 0) ∧
      (s.hub.cueOver c (k + 1) = false → t.hub.cueArmed c = true)) ∧
    (Granted q (Obj.cueArm c) 1 1 (actCueArm c 1) s → ∃ t, exec (.timeCueArm q c true) s = .next t ∧ t.mb = s.mb ∧
      t.hub.get (Obj.cueFireCount c) = 0 ∧ (t.hub.get (Obj.cueState c) = 1 ∧ t.hub.get (Obj.cueArm c) = 1 ∨
        t.hub.get (Obj.cueState c) = 3 ∧ t.hub.get (Obj.cueArm c) = 0)) ∧
    (Granted q (Obj.cueArm c) 1 0 (actCueArm c 0) s → ∃ t, exec (.timeCueArm q c false) s = .next t ∧ t.mb = s.mb ∧
      t.hub.get (Obj.cueState c) = 0 ∧ t.hub.get (Obj.cueArm c) = 0) ∧
    (Granted q (Obj.cueInstant c) 12 w (actCue c (Obj.cueInstant c) w) s → ∃ t, exec (.timeCueRearm q c false w) s = .next t ∧
      t.mb = s.mb ∧ t.hub.get (Obj.cueInstant c) = w ∧ (s.hub.cueArmed c = true → t.hub.get (Obj.cueFireCount c) = 0)) ∧
    (Granted q (Obj.cueCount c) 4 (w.val % 4294967296) (actCue c (Obj.cueCount c) (w.val % 4294967296)) s →
      ∃ t, exec (.timeCueRearm q c true w) s = .next t ∧ t.mb = s.mb ∧ t.hub.get (Obj.cueCount c) = w.val % 4294967296) ∧
    (Granted q (Obj.cuePeriod c) 8 v (actCue c (Obj.cuePeriod c) v) s → ∃ t, exec (.timeCuePeriodWrite q c v) s = .next t ∧
      t.mb = s.mb ∧ t.hub.get (Obj.cuePeriod c) = v) ∧
    (s.mb.up = true → s.hub.gateOk (s.hub.get Obj.ppsOutGate) = true →
      (n < 2 → s.hub.get Obj.ppsOutSource = n + 1 → ∃ t, exec .ppsOutPulse s = .next t ∧ t.mb = s.mb ∧
        t.hub.time.pins.ppsOut = true ∧ (0 < s.hub.incr n → (s.hub.now n / uSec + 1) * uSec ≤ t.hub.now n)) ∧
      (s.hub.get Obj.ppsOutSource = 3 → s.hub.time.pins.ppsDue = some u → ∃ t, exec .ppsOutPulse s = .next t ∧ t.mb = s.mb ∧
        t.hub.time.pins.ppsOut = true ∧ t.hub.time.pins.ppsDue = none ∧ t.hub.time.pins.ppsEnd =
          t.hub.placed ((u : Int) - uOfPs (s.hub.getI 32 Obj.ppsOutDelay)).toNat + s.hub.get Obj.ppsOutWidth * uUs)) ∧
    (s.hub.time.pins.ppsOut = true → ∃ t e, exec .ppsOutPulseEnd s = .next t ∧ t.mb = s.mb ∧
      t.hub.time.pins.ppsOut = false ∧ t.hub.out = [.pin 3 false e] ∧ t.hub.objs = s.hub.objs)

/-! ### Writes and services (chapter 14) -/

/-- A granted write (R423, R425): each of the 64 rows that `asWrite` lists, from MODE_REQUEST and the FAULT_CLEARs to the lane
configuration, completes. Its act is carried out on the hub that the checks leave, the client is answered once, and every object
that the act leaves alone and that no answer counts stays as it was.
(Model's choices within it: log 5, log 42.) -/
def Obligations.GrantedWriteActs : Prop :=
  ∀ (c : Instr) (q : ReqHead) (k len v : Nat) (act : Act) (s : State), asWrite c = some (q, k, len, v, act) →
    Granted q k len v act s →
    exec c s = .next (written q k len v act s) ∧
      (written q k len v act s).mb = (act.apply s.mb (checkedHub q k v act s)).1 ∧
      (written q k len v act s).hub.sansAnswer = (act.apply s.mb (checkedHub q k v act s)).2.sansAnswer ∧
      (∀ j, ¬ answerCounter j → (written q k len v act s).hub.get j = (act.apply s.mb (checkedHub q k v act s)).2.get j) ∧
      (act.held s.mb (grantedHub q k v act s) = 0 → ∃ rest, (written q k len v act s).hub.srv.answered =
        { req := headed q (writeReq k len v), at_ := (act.apply s.mb (checkedHub q k v act s)).2.time.ticks,
          pdus := respPdus (headed q (writeReq k len v)) false [] } :: rest)

/-- The services (R425, R428, R430, R432, R437, R438, R447): a request of each of the 17 rows that `asService` lists, from READ and WRITE
to ABORT and HEARTBEAT, is served as its PDU says. A READ leaves the mode as it was and answers the object's bytes or an abort; a
HEARTBEAT and an unknown service change no object but the counters of answers. A WRITE of up to 54 bytes is checked and acted on, a STAGE
joins the staging set, STAGE_CLEAR empties it; a BLOCK-READ answers the bytes asked for, a BLOCK-WRITE acts on its whole value and keeps a
first segment; an ABORT ends the transfer it names.
Completion of CB_RECORD_READ, BLOCK_READ, CAPTURE_DATA_READ, TRACE_DATA_READ, WRITE, STAGE, STAGE_CLEAR, BLOCK_WRITE, ABORT_TRANSFER,
FW_TARGET_SLOT, FW_ERASE, FW_DATA, FW_VERIFY, FW_BOOT_SLOT, CONFIG_SAVE_STORE, CONFIG_SAVE_ERASE and CAL_RECORD_IMPORT.
(Model's choices within it: log 5, log 14, log 57, log 58, log 64, log 72, log 73, log 79.) -/
def Obligations.ServicesRun : Prop :=
  ∀ (q : ReqHead) (s : State),
    (∀ (c : Instr) (r : SrvReq), asService c = some (q, r) → Reaches q r s → r.length ≤ 13824 →
      exec c s = .next { s with mb := (handle s.mb (arrived q s) (headed q r)).1,
                                hub := (handle s.mb (arrived q s) (headed q r)).2 }) ∧
    (∀ (i : Fin 65536) (sub : Fin 256) (staged : Bool), Reaches q (rowReq 1 i sub 0 staged 0 []) s →
      ∃ t, exec (.read q i sub staged) s = .next t ∧ t.mb = s.mb ∧ t.hub =
        (let e := readReply s.mb (if staged then (arrived q s).readStaged s.mb (i * 256 + sub)
                                  else (arrived q s).readShort s.mb (i * 256 + sub))
         e.2.2.answer (headed q (rowReq 1 i sub 0 staged 0 [])) e.1)) ∧
    (Reaches q (rowReq 8 0 0 0 false 0 []) s → ∃ t, exec (.heartbeat q) s = .next t ∧ t.mb = s.mb ∧
      t.hub = (arrived q s).answer (headed q (rowReq 8 0 0 0 false 0 [])) (.data (beatBytes s.mb (arrived q s))) ∧
      ∀ j, ¬ answerCounter j → t.hub.get j = s.hub.get j) ∧
    (∀ (c : Fin 32) (i : Fin 65536) (sub : Fin 256), knownService c = false → Reaches q (rowReq c i sub 0 false 0 []) s →
      ∃ t, exec (.serviceUnknown q c i sub) s = .next t ∧ t.mb = s.mb ∧
      t.hub = (arrived q s).answer (headed q (rowReq c i sub 0 false 0 [])) (.abort Abort.serviceUnknown) ∧
      ∀ j, ¬ answerCounter j → t.hub.get j = s.hub.get j) ∧
    (let r := rowReq 1 (Obj.cbRecord / 256) (Obj.cbRecord % 256) 0 false 0 []
     let e := readReply s.mb ((arrived q s).readShort s.mb Obj.cbRecord)
     Reaches q r s → exec (.cbRecordRead q) s = .next { s with hub := e.2.2.answer (headed q r) e.1 }) ∧
    (∀ n : Fin 65536,
      let serves (c : Instr) (k : Nat) : Prop :=
        let r := rowReq 5 (k / 256) (k % 256) 0 false 2 (toBytes 2 n)
        let e := blockRead s.mb (arrived q s) q.src k n
        Reaches q r s → exec c s = .next { s with hub := e.2.2.answer (headed q r) e.1 }
      (∀ (i : Fin 65536) (sub : Fin 256), serves (.blockRead q i sub n) (i * 256 + sub)) ∧
      (∀ j : Fin 16, serves (.captureDataRead q j n) (Obj.slotData j)) ∧
      (∀ b : Fin 8, serves (.traceDataRead q b n) (Obj.traceTraceData b))) ∧
    (∀ (i : Fin 65536) (sub : Fin 256) (b : List (Fin 256)), b.length ≤ 54 →
      let k := i.val * 256 + sub.val
      let d := byteVals b
      let does (c : Instr) (r : SrvReq) (e : Served) : Prop :=
        Reaches q r s → exec c s = .next { s with mb := e.2.1, hub := e.2.2.answer (headed q r) e.1 }
      does (.write q i sub b) (rowReq 2 i sub 0 false b.length d) (writeBytes s.mb (arrived q s) q.nvm false k d) ∧
      (∀ len : Fin 16384, len.val = b.length →
        does (.blockWrite q i sub 0 false len b) (rowReq 6 i sub 0 false len d) (writeBytes s.mb (arrived q s) q.nvm true k d) ∧
        does (.blockWrite q i sub 0 true len b) (rowReq 6 i sub 0 true len d) (stageBytes s.mb (arrived q s) k d)) ∧
      (∀ (seg : Fin 256) (staged : Bool) (len : Fin 16384), 54 < len.val → len.val ≤ 13824 → seg.val < segCount len →
        b.length = segLen len seg →
        let r := rowReq 6 i sub seg staged len d
        let h := arrived q s
        Reaches q r s → h.srv.transfers.all (fun t => !t.takes (headed q r)) = true →
        let l := h.srv.transfers ++ [{ first := headed q r, at_ := h.time.ticks, segs := [(seg.val, d)] }]
        let g := h.modSrv (fun v => { v with transfers := l })
        exec (.blockWrite q i sub seg staged len b) s = .next { s with hub := g.answer (headed q r) .more }) ∧
      (let r := rowReq 3 i sub 0 false b.length d
       let l := stageInto s.hub.srv.staging { key := k, len := b.length, val := ofBytes d }
       Reaches q r s → writeCheck s.mb (arrived q s) true k b.length (ofBytes d) = 0 → k ≠ Obj.fwTargetSlot → stagingFits l = true →
       ∃ t, exec (.stage q i sub b) s = .next t ∧ t.mb = s.mb ∧ t.hub.srv.staging = l ∧ t.hub.get Obj.stagedEntries = l.length ∧
         ∀ j, j ≠ Obj.stagedEntries → ¬ answerCounter j → t.hub.get j = s.hub.get j)) ∧
    (∀ x : Fin 256,
      let r := rowReq 9 0 0 0 false 4 [0, x, 0, 0]
      let h := (arrived q s).abortTransfer q.src x
      Reaches q r s → exec (.abortTransfer q x) s = .next { s with hub := h.answer (headed q r) (.data []) }) ∧
    (Granted q Obj.stageClear 1 1 actStageClear s → ∃ t, exec (.stageClear q) s = .next t ∧ t.mb = s.mb ∧ t.hub.srv.staging = [] ∧
      t.hub.get Obj.stagedEntries = 0) ∧
    (∀ v : Fin 256, Granted q Obj.fwTargetSlot 1 v (actFwTarget v) s →
      ∃ t, exec (.fwTargetSlot q v) s = .next t ∧ t.mb = s.mb ∧ t.hub.get Obj.fwTargetSlot = v) ∧
    (s.hub.get Obj.fwTargetSlot < 2 → ∀ x, x ∈ s.hub.part.hubDies →
      let slot := s.hub.get Obj.fwTargetSlot
      (Granted q Obj.fwErase 1 1 actFwErase s → ∃ t, exec (.fwErase q) s = .next t ∧ t.mb = s.mb ∧ t.hub.get Obj.fwOffset = 0 ∧
        t.hub.fwSlot x slot = {}) ∧
      (Granted q Obj.fwVerify 1 1 actFwVerify s → ∃ t, exec (.fwVerify q) s = .next t ∧ t.mb = s.mb ∧ (t.hub.fwSlot x slot).state = 2) ∧
      (∀ b : List (Fin 256),
        let d := byteVals b
        let r := blockReq Obj.fwData d
        let o := s.hub.get Obj.fwOffset
        Reaches q r s → writeCheck s.mb (arrived q s) false Obj.fwData d.length (ofBytes d) = 0 → q.nvm = true →
        s.hub.fwBusy = 0 → o + d.length ≤ 3 * 1024 * 1024 →
        ∃ t, exec (.fwData q b) s = .next t ∧ t.mb = s.mb ∧ t.hub.get Obj.fwOffset = o + d.length ∧
          t.hub.fwSlot x slot = { s.hub.fwSlot x slot with
            state := 1, factory := false, blocks := (o, d) :: (s.hub.fwSlot x slot).blocks })) ∧
    (∀ (x : Fin 2) (v : Fin 256), Granted q (Obj.fwBootSlot x) 1 v (actStore (Obj.fwBootSlot x) v) s →
      ∃ t, exec (.fwBootSlot q x v) s = .next t ∧ t.mb = s.mb ∧ t.hub.get (Obj.fwBootSlot x) = v) ∧
    (Granted q Obj.configSave 1 1 actConfigSave s → ∃ t, exec (.configSaveStore q) s = .next t ∧ t.mb = s.mb ∧
      t.hub.srv.saved = some s.hub.savable) ∧
    (Granted q Obj.configSave 1 2 actConfigErase s → ∃ t, exec (.configSaveErase q) s = .next t ∧ t.mb = s.mb ∧
      t.hub.srv.saved = none) ∧
    (∀ b : List (Fin 256),
      let d := byteVals b
      let r := blockReq Obj.calRecordImport d
      Reaches q r s → writeCheck s.mb (arrived q s) false Obj.calRecordImport d.length (ofBytes d) = 0 → q.nvm = true →
      (arrived q s).importRefusal s.mb.mode d = 0 →
      let h := ((arrived q s).passOn Obj.calRecordImport).waitBoundary.applyImport d
      exec (.calRecordImport q b) s = .next { s with hub := h.answer (headed q r) (.data []) })

/-! ### Triggers (chapter 8) -/

/-- The sequencer (R234 to R236): a tick evaluates the current state and uses up the edges. On a tick without a timer, counter or
software source due, A's transition is taken when A is true, else B's when B is true, and otherwise the state stays; an action word
of NEXT alone changes no other object. A timer stops at its end, a counter at its target, and each makes its sources true.
The comparators (R239, R241): an input of an FE die that is UP moves the output as Table 8.8 and the hysteresis say; a
transition to true that follows the last one its die has stamped by 20 ns or more is stamped and its stamp sent over the die
link, where it is counted and stored when it arrives; one that follows it closer carries the earlier stamp and sends none.
(Model's choices within it: log 89, log 90, log 181.) -/
def Obligations.TriggerSources : Prop :=
  (∀ (dt : Nat) (s : State), s.hub.seqRuns s.mb = true →
      (∃ t, exec (.sequencerTick dt) s = .next t ∧ t.mb = s.mb ∧ t.hub.trig.lastEval = t.hub.time.ticks ∧
        ∀ i, i < 32 → (t.hub.src i).edge = false) ∧
      (s.hub.trig.soft = [] → vget s.hub.trig.timers 0 = none → vget s.hub.trig.timers 1 = none →
        vget s.hub.trig.reachDue 0 = false → vget s.hub.trig.reachDue 1 = false →
        let word (i : Nat) := s.hub.get (Obj.seqWord (s.hub.get Obj.seqState) i)
        (∀ w, (s.hub.condTrue (word 0) = true ∧ w = word 1) ∨
            (s.hub.condTrue (word 0) = false ∧ s.hub.condTrue (word 2) = true ∧ w = word 3) → field w 4 12 = 0 →
          ∃ t, exec (.sequencerTick dt) s = .next t ∧ t.hub.get Obj.seqState = field w 0 4 ∧
            ∀ k, k ≠ Obj.seqState → t.hub.get k = s.hub.get k) ∧
        (s.hub.condTrue (word 0) = false → s.hub.condTrue (word 2) = false →
          ∃ t, exec (.sequencerTick dt) s = .next t ∧ t.hub.objs = s.hub.objs)) ∧
      (∀ (i : Fin 2) (d : Nat), vget s.hub.trig.timers i = some d →
        ∃ t, exec (.seqTimerExpire i) s = .next t ∧ t.mb = s.mb ∧ t.hub.objs = s.hub.objs ∧
          t.hub.time.ticks = max s.hub.time.ticks d ∧ vget t.hub.trig.timers i = none ∧
          ∀ j, j < 32 → s.hub.srcKind j = 8 → s.hub.srcNum j = i.val → (t.hub.src j).edge = true ∧ (t.hub.src j).level = true) ∧
      (∀ c : Fin 2, vget s.hub.trig.reachDue c = true →
        ∃ t, exec (.seqCounterReached c) s = .next t ∧ t.mb = s.mb ∧ t.hub.objs = s.hub.objs ∧
          vget t.hub.trig.reachDue c = false ∧
          ∀ j, j < 32 → s.hub.srcKind j = 7 → s.hub.srcNum j = c.val →
            (t.hub.src j).edge = true ∧ (t.hub.src j).time = (vget s.hub.trig.reach c).2)) ∧
  (∀ (k : Fin 32) (dt : Nat) (f : Fin 512) (x : Int) (s : State), s.mb.up = true →
      (s.hub.feUp (k / 8) = true →
        let old := vget s.hub.trig.cmps k
        ∃ t, exec (.comparatorEdge k dt f x) s = .next t ∧ t.mb = s.mb ∧
          (vget t.hub.trig.cmps k).out = cmpOutput (s.hub.get (Obj.cmpMode k)) (s.hub.getI 16 (Obj.cmpThreshHi k))
            (s.hub.getI 16 (Obj.cmpThreshLo k)) (s.hub.get (Obj.cmpHyst k)) x old.out ∧
          (vget t.hub.trig.cmps k).input = some x ∧ (∀ j, j ≠ Obj.cmpStampShared k → t.hub.get j = s.hub.get j) ∧
          ((vget t.hub.trig.cmps k).out = true → old.out = false →
            (∀ p, vget s.hub.trig.tdc (k / 8) = some p → p.1 + 20 * 65536 ≤ (s.hub.waitTicks dt).edgeStamp 2 f) →
            (vget t.hub.trig.cmps k).link = old.link ++ [(s.hub.waitTicks dt).edgeStamp 0 f]) ∧
          (∀ p, (vget t.hub.trig.cmps k).out = true → old.out = false → vget s.hub.trig.tdc (k / 8) = some p →
            (s.hub.waitTicks dt).edgeStamp 2 f < p.1 + 20 * 65536 →
            (vget t.hub.trig.cmps k).link = old.link ∧ (vget t.hub.trig.cmps k).stamp = p.2 ∧
              t.hub.get (Obj.cmpStampShared k) = (s.hub.get (Obj.cmpStampShared k) + 1) % 2 ^ 32)) ∧
      (∀ (u : Nat) (rest : List Nat), (vget s.hub.trig.cmps k).link = u :: rest →
        (∀ e ∈ s.hub.trig.events, ¬ (e.wait = some k.val ∧ e.time = u)) →
        ∃ t, exec (.comparatorStamp k dt) s = .next t ∧ t.mb = s.mb ∧ (vget t.hub.trig.cmps k).link = rest ∧
          t.hub.get (Obj.cmpEdges k) = (s.hub.get (Obj.cmpEdges k) + 1) % 2 ^ 32 ∧
          t.hub.get (Obj.cmpLastEdge k) = time96 u 0 ∧
          ∀ j, j ≠ Obj.cmpEdges k → j ≠ Obj.cmpLastEdge k → t.hub.get j = s.hub.get j))

/-- Joins and fires (R243 to R247, Table 8.5): an ARMED manager joins a falling edge of CUE_FIRE and a FIRE message where JOIN
allows it, at the edge's stamp less CUE_FIRE_DELAY and at the message's time, and fires by itself at AUTO_TIMEOUT; each counts an
event and leaves the manager FIRED. CUE_FIRE is released after its pulse, and the oldest event that settles is FINAL after
EVENT_SETTLE.
Arming (R243, R245, Table 8.5): CUE_ARM arms and disarms the manager of a MEMBER_WIRE hub, and an accepted ARM or DISARM
message that of a MEMBER_LINK hub. A message is accepted once, one whose CRC fails only counts, and a duplicate changes nothing
but the counter of received messages. FIRE_INJECT and ARM_INJECT act as the message they carry, and SOFT_TRIGGER makes an edge on
each SOFT source it names from the next raw-frame boundary (R232).
Completion of ARM_MESSAGE, DISARM_MESSAGE, FIRE_INJECT, ARM_INJECT, SOFT_TRIGGER.
(Model's choices within it: log 91, log 92, log 93, log 180.) -/
def Obligations.Manager : Prop :=
  (∀ s : State, s.mb.up = true →
      (∀ (dt : Nat) (f : Fin 512), s.hub.seqRuns s.mb = true → s.hub.trig.fireIn = false → s.hub.trig.pulse = none →
        s.hub.get Obj.cueRole ≠ 0 → s.hub.bit Obj.join 0 = true → s.hub.manager = 1 →
        ∃ t e r, exec (.cueFireInEdge dt f true) s = .next t ∧ t.mb = s.mb ∧ t.hub.trig.fireIn = true ∧ t.hub.manager = 2 ∧
          t.hub.get Obj.eventCount = (s.hub.get Obj.eventCount + 1) % 2 ^ 32 ∧ t.hub.trig.events = e :: r ∧ e.cause = 2 ∧
          e.own = false ∧
          e.time = (((s.hub.waitTicks dt).edgeStamp 0 f : Int) - uOfPs (s.hub.getI 32 Obj.cueFireDelay)).toNat) ∧
      (∀ (dt : Nat) (f : Fin 512), ∃ t, exec (.cueFireInEdge dt f false) s = .next t ∧ t.mb = s.mb ∧
        t.hub.trig.fireIn = false ∧ t.hub.objs = s.hub.objs) ∧
      (∀ (l : Fin 16) (dt : Nat) (m : TrigMsg), s.hub.laneNative l = true → s.hub.msgNew m.hub 0x12 m.num = true →
        s.hub.seqRuns s.mb = true → s.hub.get Obj.cueRole ≠ 0 → s.hub.bit Obj.join 1 = true → s.hub.manager = 1 →
        ∃ t e r, exec (.fireMessage l dt m true) s = .next t ∧ t.mb = s.mb ∧ t.hub.manager = 2 ∧
          t.hub.msgNew m.hub 0x12 m.num = false ∧
          t.hub.get Obj.eventCount = (s.hub.get Obj.eventCount + 1) % 2 ^ 32 ∧ t.hub.trig.events = e :: r ∧ e.cause = 3 ∧
          e.own = false ∧ e.time = uOfTime96 m.time) ∧
      (∀ d, s.hub.seqRuns s.mb = true → s.hub.manager = 1 → s.hub.trig.autoAt = some d →
        ∃ t e r, exec .autoTimeout s = .next t ∧ t.mb = s.mb ∧ t.hub.manager = 2 ∧
          t.hub.time.ticks = max s.hub.time.ticks d ∧
          t.hub.get Obj.eventCount = (s.hub.get Obj.eventCount + 1) % 2 ^ 32 ∧ t.hub.trig.events = e :: r ∧ e.cause = 1 ∧
          e.own = true ∧ e.forced = true ∧ e.time = (s.hub.waitTick d).now 0) ∧
      (∀ u, s.hub.trig.pulse = some u → ∃ t, exec .cueFirePulseEnd s = .next t ∧ t.mb = s.mb ∧ t.hub.objs = s.hub.objs ∧
        t.hub.trig.pulse = none ∧ t.hub.out = [.pin pinCueFire true (t.hub.now 0)]) ∧
      (∀ e, s.hub.settling = some e →
        ∃ t, exec .eventSettleExpiry s = .next t ∧ t.mb = s.mb ∧
          t.hub.time.ticks = max s.hub.time.ticks (e.tick + s.hub.get Obj.eventSettle * tMs) ∧
          (∃ e' ∈ t.hub.trig.events, e'.number = e.number ∧ e'.final = true ∧ e'.time = e.time) ∧
          (∀ o ∈ s.hub.trig.events, o.number ≠ e.number → o ∈ t.hub.trig.events) ∧
          (t.hub.settling = none → t.hub.trig.fires = []))) ∧
  (∀ s : State, s.mb.up = true →
      (∀ (dt : Nat) (f : Fin 512) (high : Bool),
        ∃ t, exec (.cueArmInEdge dt f high) s = .next t ∧ t.mb = s.mb ∧ t.hub.trig.armIn = high ∧
          (s.hub.get Obj.cueRole = 2 → s.hub.seqRuns s.mb = true → s.hub.trig.armIn ≠ high →
            (high = true → s.hub.manager = 0 → t.hub.manager = 1) ∧ (high = false → s.hub.manager = 1 → t.hub.manager = 0)) ∧
          ∀ j, j ≠ Obj.managerState → t.hub.get j = s.hub.get j) ∧
      (∀ (l : Fin 16) (dt : Nat) (m : TrigMsg), s.hub.laneNative l = true → s.hub.trig.resumeAt = none →
        (s.hub.msgNew m.hub 0x10 m.num = true → ∃ t, exec (.armMessage l dt m true) s = .next t ∧ t.mb = s.mb ∧
          t.hub.msgNew m.hub 0x10 m.num = false ∧
          t.hub.get (Obj.laneMsgRx l) = (s.hub.get (Obj.laneMsgRx l) + 1) % 2 ^ 32 ∧
          (s.hub.get Obj.cueRole = 3 → s.hub.seqRuns s.mb = true → s.hub.manager = 0 → t.hub.manager = 1)) ∧
        (s.hub.msgNew m.hub 0x10 m.num = false → ∃ t, exec (.armMessage l dt m true) s = .next t ∧ t.mb = s.mb ∧
          t.hub.trig = s.hub.trig ∧ ∀ j, j ≠ Obj.laneMsgRx l → t.hub.get j = s.hub.get j) ∧
        (∃ t, exec (.armMessage l dt m false) s = .next t ∧ t.mb = s.mb ∧ t.hub.trig = s.hub.trig ∧
          t.hub.get (Obj.laneMsgCrcErrors l) = (s.hub.get (Obj.laneMsgCrcErrors l) + 1) % 2 ^ 32 ∧
          ∀ j, j ≠ Obj.laneMsgCrcErrors l → t.hub.get j = s.hub.get j) ∧
        (s.hub.msgNew m.hub 0x11 m.num = true → ∃ t, exec (.disarmMessage l dt m true) s = .next t ∧ t.mb = s.mb ∧
          t.hub.msgNew m.hub 0x11 m.num = false ∧
          t.hub.get (Obj.laneMsgRx l) = (s.hub.get (Obj.laneMsgRx l) + 1) % 2 ^ 32 ∧
          (s.hub.get Obj.cueRole = 3 → s.hub.seqRuns s.mb = true → s.hub.manager = 1 → t.hub.manager = 0)) ∧
        (s.hub.msgNew m.hub 0x11 m.num = false → ∃ t, exec (.disarmMessage l dt m true) s = .next t ∧ t.mb = s.mb ∧
          t.hub.trig = s.hub.trig ∧ ∀ j, j ≠ Obj.laneMsgRx l → t.hub.get j = s.hub.get j) ∧
        (∃ t, exec (.disarmMessage l dt m false) s = .next t ∧ t.mb = s.mb ∧ t.hub.trig = s.hub.trig ∧
          t.hub.get (Obj.laneMsgCrcErrors l) = (s.hub.get (Obj.laneMsgCrcErrors l) + 1) % 2 ^ 32 ∧
          ∀ j, j ≠ Obj.laneMsgCrcErrors l → t.hub.get j = s.hub.get j))) ∧
  (∀ (q : ReqHead) (s : State),
      (∀ v, Granted q Obj.fireInject 17 (v : Fin 87112285931760246646623899502532662132736).val (actFireInject v) s →
        let m := injectMsg v
        ∃ t, exec (.fireInject q v) s = .next t ∧ t.mb = s.mb ∧ t.hub.msgNew m.hub 0x12 m.num = false ∧
          (s.hub.msgNew m.hub 0x12 m.num = false → s.hub.trig.resumeAt = none → t.hub.trig = s.hub.trig) ∧
          (s.hub.msgNew m.hub 0x12 m.num = true → s.hub.seqRuns s.mb = true → s.hub.get Obj.cueRole ≠ 0 →
            s.hub.bit Obj.join 1 = true → s.hub.manager = 1 → t.hub.manager = 2 ∧
              t.hub.get Obj.eventCount = (s.hub.get Obj.eventCount + 1) % 2 ^ 32 ∧
              ∃ e r, t.hub.trig.events = e :: r ∧ e.cause = 3 ∧ e.own = false ∧ e.time = uOfTime96 m.time)) ∧
      (∀ v, Granted q Obj.armInject 17 (v : Fin 87112285931760246646623899502532662132736).val (actArmInject v) s →
        let m := injectMsg v
        let code := if m.forced then 0x10 else 0x11
        ∃ t, exec (.armInject q v) s = .next t ∧ t.mb = s.mb ∧ t.hub.msgNew m.hub code m.num = false ∧
          (s.hub.msgNew m.hub code m.num = true → s.hub.get Obj.cueRole = 3 → s.hub.seqRuns s.mb = true →
            (m.forced = true → s.hub.manager = 0 → t.hub.manager = 1) ∧
            (m.forced = false → s.hub.manager = 1 → t.hub.manager = 0))) ∧
      (∀ v, Granted q Obj.softTrigger 1 (v : Fin 256).val (actSoftTrigger v) s →
        ∃ t, exec (.softTrigger q v) s = .next t ∧ t.mb = s.mb ∧ t.hub.trig.soft = s.hub.trig.soft ++
          (maskList 4 v).map (fun n => (n, (checkedHub q Obj.softTrigger v (actSoftTrigger v) s).boundary))))

/-- Captures (R253, R258): a triggered slot with its POST rows is COMPLETE, or READING under AUTO_READOUT, with its rows kept;
RELEASE empties it and READOUT_START starts its readout; the last frame of a readout leaves it COMPLETE, or filling again; and a
read of DATA returns the image from READ_OFFSET, which advances by the length returned.
(Model's choices within it: log 96, log 98.) -/
def Obligations.Captures : Prop :=
  ∀ (n : Fin 16) (s : State),
    (s.hub.slotDone n = true → ∃ t, exec (.captureComplete n) s = .next t ∧ t.mb = s.mb ∧
      t.hub.get (Obj.slotState n) = (if s.hub.flag (Obj.slotAutoReadout n) then 4 else 3) ∧
      t.hub.get (Obj.slotImageSize n) = (s.hub.slot n).imageSize ∧ (t.hub.slot n).rows = (s.hub.slot n).rows ∧
      (t.hub.slot n).incomplete = false) ∧
    (∀ q, Granted q (Obj.slotRelease n) 1 1 (actRelease n) s → ∃ t, exec (.release q n) s = .next t ∧ t.mb = s.mb ∧
      t.hub.get (Obj.slotState n) = 1 ∧ (t.hub.slot n).rows = [] ∧
      (t.hub.slot n).from_ = (checkedHub q (Obj.slotRelease n) 1 (actRelease n) s).boundary) ∧
    (∀ q, Granted q (Obj.slotReadoutStart n) 1 1 (actReadout n) s → ∃ t, exec (.readoutStart q n) s = .next t ∧ t.mb = s.mb ∧
      t.hub.get (Obj.slotState n) = 4 ∧ (t.hub.slot n).rows = (s.hub.slot n).rows ∧ (t.hub.slot n).sent = 0) ∧
    (s.mb.up = true → s.hub.get (Obj.slotState n) = 4 → ∃ t, exec (.captureReadoutDone n) s = .next t ∧ t.mb = s.mb ∧
      t.hub.get (Obj.slotState n) = if s.hub.flag (Obj.slotAutoReadout n) then 1 else 3) ∧
    (∀ (q : ReqHead) (m : Fin 65536), Reaches q (rowReq 5 (Obj.slotData n / 256) (Obj.slotData n % 256) 0 false 2 (toBytes 2 m)) s →
      0 < m.val → m.val ≤ 13824 → readCheck s.mb (arrived q s) (Obj.slotData n) = 0 → s.hub.slotReadable n = true →
      let size := if q.src = .mailbox then min m.val 756 else m.val
      let r := headed q (rowReq 5 (Obj.slotData n / 256) (Obj.slotData n % 256) 0 false 2 (toBytes 2 m))
      let d := (((arrived q s).slotImage n (arrived q s).leadDie).drop (s.hub.get (Obj.slotReadOffset n))).take size
      ∃ t, exec (.captureDataRead q n m) s = .next t ∧ t.mb = s.mb ∧
        t.hub.get (Obj.slotReadOffset n) = s.hub.get (Obj.slotReadOffset n) + d.length ∧
        t.hub = ((arrived q s).put (Obj.slotReadOffset n) (s.hub.get (Obj.slotReadOffset n) + d.length)).answer r (.data d))

/-- R240: TRIG_INDEX is the sample before the trigger and TRIG_FRAC the rest in 2⁻¹⁶ of 500 ns, to the nearest and ties up. -/
def Obligations.TrigPointIsNearest : Prop :=
  ∀ t first : Nat,
    (trigPoint t first).2 < 65536 ∧
    -(uGrid : Int) ≤ 2 * (65536 * ((t : Int) - first) - ((trigPoint t first).1 * 65536 + (trigPoint t first).2) * uGrid) ∧
    2 * (65536 * ((t : Int) - first) - ((trigPoint t first).1 * 65536 + (trigPoint t first).2) * uGrid) < uGrid

/-! ### The control engine and the footlights (chapters 9 and 10) -/

/-- The control engine (R263, R266, R276, R278, R282, R285): each frame is counted; a loop whose SAFE cause has come about goes to
SAFE with its output at the safe level, or what a PAIR can drive of it at once; an injection and a ONE_SHOT trace end as DONE and
FULL; and the writes of LOOP_MODE, MANUAL_OUTPUT, TARGET, INJ_GO and TRACE_GO set what they name: those of an RW-live object of a
loop that runs wait, with their responses, for the loop's next cycle (R264), which leaves none waiting.
Completion of LOOP_MODE_OFF, LOOP_MODE_MANUAL, LOOP_MODE_HYSTERETIC, LOOP_MODE_PROFILE, LOOP_MODE_TUNE, MANUAL_OUTPUT, TARGET and
TRACE_DATA_READ.
R266: the loops due in a frame are all decided, in their order; those evaluated take 40 units less what is left, and a loop
overruns only when its cost exceeds the units left before it.
(Model's choices within it: log 42, log 99, log 100, log 101, log 102, log 184.) -/
def Obligations.ControlLoops : Prop :=
  (∀ (l : Fin 32) (b : Fin 8) (s : State),
      (s.mb.up = true → ∃ t, exec .engineFrame s = .next t ∧ t.mb = s.mb ∧
        t.hub.eng.frame = max s.hub.eng.frame (ceilDiv (s.hub.now 0 - 262144) uFrame) + 1 ∧
        (s.mb.drives = false → ∀ k, (∀ i, i < 8 → k ≠ Obj.flEffTarget i ∧ k ≠ Obj.flStatus i) →
          (∀ o, o < 16 → k ≠ Obj.ctlStatus o ∧ k ≠ Obj.ctlEdges o) → t.hub.get k = s.hub.get k)) ∧
      ((s.hub.loop l).safeDue ≠ 0 → s.hub.get (Obj.loopLoopState l) ≠ 5 → s.hub.get (Obj.loopLoopState l) ≠ 6 →
        ∃ t, exec (.loopSafe l) s = .next t ∧ t.mb = s.mb ∧ t.hub.get (Obj.loopLoopState l) = 5 ∧
          t.hub.get (Obj.loopSafeCause l) = (s.hub.loop l).safeDue ∧ t.hub.get (Obj.loopOutput l) = s.hub.pairNow l (s.hub.loopSafeO l) ∧
          (t.hub.loop l).safeDue = 0) ∧
      ((s.hub.loop l).injEnd = true → s.hub.stalled = false → ∃ t, exec (.injectionDone l) s = .next t ∧ t.mb = s.mb ∧
        t.hub.get (Obj.injInjState l) = 3 ∧ t.hub.get (Obj.injInjValue l) = 0 ∧ (t.hub.loop l).injEnd = false ∧
        t.hub.cb.lastSeq = nextSeq s.hub.cb.lastSeq ∧
        ∀ k, k ≠ Obj.injInjState l → k ≠ Obj.injInjValue l → k ≠ Obj.loopStatus l → k ≠ Obj.cbLost → t.hub.get k = s.hub.get k) ∧
      ((s.hub.trace b).full = true → s.hub.stalled = false → ∃ t, exec (.traceFull b) s = .next t ∧ t.mb = s.mb ∧
        t.hub.get (Obj.traceTraceState b) = 3 ∧ (t.hub.trace b).words = (s.hub.trace b).words ∧
        t.hub.cb.lastSeq = nextSeq s.hub.cb.lastSeq ∧
        ∀ k, k ≠ Obj.traceTraceState b → k ≠ Obj.cbLost → t.hub.get k = s.hub.get k) ∧
      (let waits (t : State) (q : ReqHead) (k len v : Nat) : Prop :=
          t.hub.srv.loopLive = s.hub.srv.loopLive ++ [{
            loop := l, key := k, val := v, req := some (headed q (writeReq k len v))
            from_ := if s.hub.srv.appliedAt = some (arrived q s).time.ticks then (arrived q s).now 0 + 1 else 0 }] ∧
          ∀ j, ¬ answerCounter j → t.hub.get j = s.hub.get j
       let takes (t : State) (q : ReqHead) (m : Nat) : Prop := t.mb = s.mb ∧
          if s.hub.loopCycles s.mb l then waits t q (Obj.loopLoopMode l) 1 m
          else t.hub.get (Obj.loopLoopMode l) = m ∧
            t.hub.get (Obj.loopLoopState l) = if s.hub.get (Obj.loopLoopState l) = 6 then 6 else m
       let puts (t : State) (q : ReqHead) (k len v : Nat) : Prop := t.mb = s.mb ∧
          if s.hub.loopCycles s.mb l then waits t q k len v
          else t.hub.get k = v ∧ ∀ j, j ≠ k → ¬ answerCounter j → t.hub.get j = s.hub.get j
       (∀ q, Granted q (Obj.loopLoopMode l) 1 0 (actLoopMode l 0) s → ∃ t, exec (.loopModeOff q l) s = .next t ∧ takes t q 0) ∧
       (∀ q, Granted q (Obj.loopLoopMode l) 1 1 (actLoopMode l 1) s → ∃ t, exec (.loopModeManual q l) s = .next t ∧ takes t q 1) ∧
       (∀ q, Granted q (Obj.loopLoopMode l) 1 2 (actLoopMode l 2) s → ∃ t, exec (.loopModeHysteretic q l) s = .next t ∧ takes t q 2) ∧
       (∀ q, Granted q (Obj.loopLoopMode l) 1 3 (actLoopMode l 3) s → ∃ t, exec (.loopModeProfile q l) s = .next t ∧ takes t q 3) ∧
       (∀ q, Granted q (Obj.loopLoopMode l) 1 4 (actLoopMode l 4) s → ∃ t, exec (.loopModeTune q l) s = .next t ∧ takes t q 4) ∧
       (∀ (q : ReqHead) (v : Fin 65536), Granted q (Obj.loopManualOutput l) 2 v (actManual l v) s →
          s.hub.get (Obj.loopLoopState l) = 1 ∧
            ∃ t, exec (.manualOutput q l v) s = .next t ∧ puts t q (Obj.loopManualOutput l) 2 v) ∧
       (∀ (q : ReqHead) (v : Fin 18446744073709551616), Granted q (Obj.genTarget l) 8 v (actTarget l v) s →
          ∃ t, exec (.target q l v) s = .next t ∧ puts t q (Obj.genTarget l) 8 v)) ∧
      (∀ (n u : Nat) (run : Bool), ∀ w ∈ (s.hub.loopCycleAt l n u run).srv.loopLive, w.loop ≠ l.val) ∧
      (∀ q, Granted q (Obj.injInjGo l) 1 1 (actInjGo l) s → ∃ t, exec (.injGo q l) s = .next t ∧ t.mb = s.mb ∧
        (t.hub.loop l).injGo = true ∧ ∀ k, ¬ answerCounter k → t.hub.get k = s.hub.get k) ∧
      (∀ q, Granted q (Obj.traceTraceGo b) 1 1 (actTraceGo b 1) s → ∃ t, exec (.traceGoStart q b) s = .next t ∧ t.mb = s.mb ∧
        (t.hub.trace b).words = [] ∧
        t.hub.get (Obj.traceTraceState b) = if s.hub.get (Obj.traceTraceStart b) = 2 then 2 else 1) ∧
      (∀ q, Granted q (Obj.traceTraceGo b) 1 0 (actTraceGo b 0) s → ∃ t, exec (.traceGoStop q b) s = .next t ∧ t.mb = s.mb ∧
        (t.hub.trace b).words = (s.hub.trace b).words ∧
        (s.hub.get (Obj.traceTraceState b) = 1 ∨ s.hub.get (Obj.traceTraceState b) = 2 → t.hub.get (Obj.traceTraceState b) = 0) ∧
        ∀ k, k ≠ Obj.traceTraceState b → ¬ answerCounter k → t.hub.get k = s.hub.get k) ∧
      (∀ (q : ReqHead) (m : Fin 65536),
        let r := rowReq 5 (Obj.traceTraceData b / 256) (Obj.traceTraceData b % 256) 0 false 2 (toBytes 2 m)
        Reaches q r s → 0 < m.val → m.val ≤ 13824 → readCheck s.mb (arrived q s) (Obj.traceTraceData b) = 0 →
        s.hub.get (Obj.traceTraceState b) ≠ 1 → s.hub.get (Obj.traceTraceState b) ≠ 2 →
        let d := (arrived q s).traceBytes b (if q.src = .mailbox then min m.val 756 else m.val)
        ∃ t, exec (.traceDataRead q b m) s = .next t ∧ t.mb = s.mb ∧
          t.hub = ((arrived q s).bumpBy (Obj.traceTraceReadOffset b) d.length).answer (headed q r) (.data d))) ∧
  (∀ (cost : Nat → Nat) (left : Nat) (due : List Nat),
      (schedule cost left due).1.map (·.1) = due ∧
      sumNat (((schedule cost left due).1.filter (·.2)).map (fun e => cost e.1)) + (schedule cost left due).2 = left ∧
      ∀ (pre : List Nat) (l : Nat) (post : List Nat), due = pre ++ l :: post →
        (schedule cost left due).1[pre.length]? = some (l, decide (cost l ≤ (schedule cost left pre).2)))

/-- What the Lead orders of an output at an instant that has come takes effect at once: ARRAY runs, and the 10 µs after the latest
hand-over are over (R328). -/
def outputsFree (h : Hub) : Prop := h.incr 0 ≠ 0 ∧ ∀ t, h.red.switched = some t → t + uFrame ≤ h.now 0

/-- Control outputs (R280, R281), strings (R296, R302) and pattern engines (R306, R308 to R310): what each of their events and
writes does to the levels, the latches and the states.
(Model's choices within it: log 105, log 163, log 165, log 184.) -/
def Obligations.OutputsAndFootlights : Prop :=
  ∀ (o : Fin 16) (n : Fin 8) (g : Fin 4) (dt : Nat) (s : State),
    (∀ u, (s.hub.ctl o).pulseEnd = some u → s.hub.obeys (o / 4) = true → s.hub.feUp (o / 4) = true → outputsFree s.hub →
      ∃ t, exec (.ctlPulseEnd o) s = .next t ∧ t.mb = s.mb ∧ t.hub.bit (Obj.ctlStatus o) 0 = false ∧
        (t.hub.ctl o).pulseEnd = none ∧
        ∀ k, k ≠ Obj.ctlStatus o → k ≠ Obj.ctlEdges o → t.hub.get k = s.hub.get k) ∧
    (s.mb.up = true → s.hub.feUp (o / 4) = true → s.hub.bit (Obj.ctlStatus o) 3 = false →
      s.hub.stalled = false → ∃ t, exec (.ctlFault o dt) s = .next t ∧ t.mb = s.mb ∧ t.hub.bit (Obj.ctlStatus o) 3 = true ∧
        t.hub.bit (Obj.ctlStatus o) 1 = false ∧ t.hub.bit (Obj.ctlStatus o) 0 = s.hub.bit (Obj.ctlStatus o) 0 ∧
        t.hub.cb.lastSeq = nextSeq s.hub.cb.lastSeq ∧
        ∀ l, s.hub.ctlLoop o = some l → t.hub.bit (Obj.loopStatus l) 7 = true) ∧
    (∀ q, Granted q (Obj.ctlFaultClear o) 1 1 (actCtlFaultClear o) s → ∃ t, exec (.ctlFaultClear q o) s = .next t ∧
      t.mb = s.mb ∧ t.hub.bit (Obj.ctlStatus o) 3 = false ∧
      ∀ l, s.hub.bit (Obj.ctlStatus o) 3 = true → s.hub.ctlLoop o = some l → t.hub.bit (Obj.loopStatus l) 7 = false) ∧
    (∀ (q : ReqHead) (v : Bool), Granted q (Obj.ctlHostLevel o) 1 (b2n v) (actHostLevel o (b2n v)) s →
      ∃ t, exec (.hostLevel q o v) s = .next t ∧ t.mb = s.mb ∧ t.hub.flag (Obj.ctlHostLevel o) = v ∧
        (s.mb.drives = true → s.hub.get (Obj.ctlSource o) = 0 → s.hub.obeys (o / 4) = true → s.hub.feUp (o / 4) = true →
          outputsFree s.hub → (∀ k, s.hub.srv.appliedAt = some k → k ≤ s.hub.time.ticks) →
          t.hub.bit (Obj.ctlStatus o) 0 = v)) ∧
    (∀ again, s.hub.strRuns n = true → ∃ t, exec (.flOvercurrent n dt again) s = .next t ∧ t.mb = s.mb ∧
      (t.hub.str n).ocRun = (if again then (s.hub.str n).ocRun + 1 else 1) ∧
      (again = true → (s.hub.str n).ocRun + 1 = 16 → s.hub.bit (Obj.flStatus n) 3 = false →
        t.hub.bit (Obj.flStatus n) 3 = true ∧ t.hub.bit (Obj.flStatus n) 5 = true ∧
        t.hub.get (Obj.flFaultCount n) = (s.hub.get (Obj.flFaultCount n) + 1) % 2 ^ 32)) ∧
    (let h := (s.hub.waitTicks dt).gateFollow n
     (h.str n).gate = true → h.gateRuns n = true → (h.str n).gateAt + 50 * uUs ≤ h.now 2 → 51 ≤ h.get (Obj.flEffTarget n) →
      s.hub.bit (Obj.flStatus n) 2 = h.bit (Obj.flStatus n) 2 → ∃ t, exec (.flOpen n dt) s = .next t ∧ t.mb = s.mb ∧
      (t.hub.str n).openAt = some (s.hub.time.ticks + dt) ∧ t.hub.bit (Obj.flStatus n) 2 = true ∧
      (s.hub.bit (Obj.flStatus n) 2 = false → t.hub.bit (Obj.flStatus n) 5 = true ∧
        t.hub.get (Obj.flFaultCount n) = (s.hub.get (Obj.flFaultCount n) + 1) % 2 ^ 32)) ∧
    (∀ a ok, (s.hub.str n).openAt = some a → s.hub.bit (Obj.flStatus n) 4 = false →
      ∃ t, exec (.flOpenRetry n ok) s = .next t ∧ t.mb = s.mb ∧ t.hub.time.ticks = max s.hub.time.ticks (a + tMs) ∧
        (t.hub.str n).openAt = none ∧ t.hub.bit (Obj.flStatus n) 2 = (s.hub.bit (Obj.flStatus n) 2 && !ok) ∧
        ∀ k, k ≠ Obj.flStatus n → t.hub.get k = s.hub.get k) ∧
    (∀ a, (s.hub.str n).faultAt = some a → s.hub.bit (Obj.flStatus n) 4 = false → s.hub.stalled = false →
      ∃ t, exec (.flLatchedOff n) s = .next t ∧ t.mb = s.mb ∧ t.hub.time.ticks = max s.hub.time.ticks (a + 10 * tMs) ∧
        t.hub.bit (Obj.flStatus n) 4 = true ∧ t.hub.bit (Obj.flStatus n) 0 = false ∧ (t.hub.str n).on = false ∧
        t.hub.get (Obj.flEffTarget n) = 0 ∧ t.hub.cb.lastSeq = nextSeq s.hub.cb.lastSeq ∧
        ∀ l, s.hub.strLoop n = some l → t.hub.bit (Obj.loopStatus l) 7 = true) ∧
    (∀ q, Granted q (Obj.flFaultClear n) 1 1 (actFlFaultClear n) s → ∃ t, exec (.flFaultClear q n) s = .next t ∧
      t.mb = s.mb ∧ t.hub.bit (Obj.flStatus n) 4 = false ∧ t.hub.bit (Obj.flStatus n) 5 = false ∧
      (s.hub.bit (Obj.flStatus n) 4 = true → s.mb.drives = true → s.hub.flag (Obj.flEnable n) = true → s.hub.obeys (n / 2) = true →
        (t.hub.str n).on = true)) ∧
    (∀ q, Granted q (Obj.engEngGo g) 1 1 (actEngGo g 1) s → ∃ t, exec (.engGoStart q g) s = .next t ∧ t.mb = s.mb ∧
      (t.hub.pat g).start = true ∧ ∀ k, ¬ answerCounter k → t.hub.get k = s.hub.get k) ∧
    (∀ q, Granted q (Obj.engEngGo g) 1 0 (actEngGo g 0) s → ∃ t, exec (.engGoStop q g) s = .next t ∧ t.mb = s.mb ∧
      t.hub.get (Obj.engEngState g) = 0 ∧ (t.hub.pat g).levels = (s.hub.pat g).levels ∧
      ∀ k, k ≠ Obj.engEngState g → ¬ answerCounter k → t.hub.get k = s.hub.get k) ∧
    (let i := s.hub.get (Obj.engEngStep g)
     let w := s.hub.stepWord g i
     s.mb.drives = true →
      (s.hub.get (Obj.engEngState g) = 1 → isTimed w = true → stepDur w < (s.hub.pat g).i →
        ∃ t, exec (.patternStepDone g) s = .next t ∧ t.mb = s.mb ∧ (t.hub.pat g).levels = (s.hub.pat g).levels ∧
          (i < 63 → t.hub.get (Obj.engEngStep g) = i + 1 ∧ (t.hub.pat g).i = 1 ∧
            (t.hub.pat g).entry = (s.hub.pat g).entry + stepDur w ∧ t.hub.get (Obj.engEngState g) = 1) ∧
          (63 ≤ i → t.hub.get (Obj.engEngState g) = 3)) ∧
      (s.hub.get (Obj.engEngState g) = 2 → stepType w = 6 → stepDur w ≠ 0 →
        (s.hub.pat g).fired (stepCue w) (s.hub.pat g).entry ((s.hub.pat g).entry + stepDur w) = false →
        s.hub.stalled = false →
        ∃ t, exec (.patternCueTimeout g) s = .next t ∧ t.mb = s.mb ∧
          t.hub.get (Obj.engCueTimeouts g) = (s.hub.get (Obj.engCueTimeouts g) + 1) % 2 ^ 32 ∧
          t.hub.cb.lastSeq = nextSeq s.hub.cb.lastSeq ∧
          (i < 63 → t.hub.get (Obj.engEngStep g) = i + 1 ∧ t.hub.get (Obj.engEngState g) = 1) ∧
          (63 ≤ i → t.hub.get (Obj.engEngState g) = 3))) ∧
    (let i := s.hub.get (Obj.engEngStep g)
     s.mb.drives = true → (s.hub.pat g).start = false → s.hub.patActive g = true → i ≤ 63 →
      stepType (s.hub.stepWord g i) = 4 → stepArg (s.hub.stepWord g i) = i → s.hub.stalled = false →
      ∃ t, exec (.patternFault g) s = .next t ∧ t.mb = s.mb ∧
        t.hub.get (Obj.engEngState g) = 4 ∧ (t.hub.pat g).levels = (s.hub.pat g).levels ∧ t.hub.get (Obj.engEngStep g) = i ∧
        t.hub.cb.lastSeq = nextSeq s.hub.cb.lastSeq ∧
        ∀ k, k ≠ Obj.engEngState g → k ≠ Obj.engEngStepTime g → k ≠ Obj.cbLost → t.hub.get k = s.hub.get k)

/-! ### Lead, Understudy and fail-over (chapter 11) -/

/-- Fail-over (R321, R322, R328, R329, R333, R334, Table 11.2): a faulty hub die relinquishes, hands over, or takes a hub without an
Understudy to SAFE, its line asserted in each case; the hand-over moves the Lead, all arbiters and the mode at its switch instant,
the first frame boundary after the line is asserted; an arbiter that loses its die selects the other, but on a simplex part stays
(R33); an FE die without commands makes its outputs safe; and the loss of the peer link ends the peer's role.
Completion of ISLAND_SILENT, CLOCK_FAULT, MD_INTERFACE_LOST, RELINQUISH.
(Model's choices within it: log 110, log 111.) -/
def Obligations.FailOver : Prop :=
  ∀ s : State,
    let lead := s.hub.leadDie
    let peer := peerOf lead
    (∀ v, s.hub.red.handover = some v → s.hub.understudy = true → s.hub.srv.waiting = [] →
      ∃ t, exec .handover s = .next t ∧ t.hub.red.handover = none ∧ t.hub.role peer = 2 ∧ t.hub.leadDie = peer ∧
        t.hub.role lead = (if v.swap then 3 else if fatalCause v.cause then 6 else 5) ∧
        t.hub.get Obj.handovers = (s.hub.get Obj.handovers + 1) % 2 ^ 32 ∧ t.hub.get Obj.lastHandover = time96 v.at_ 0 ∧
        (s.mb.mode = .run → t.mb.mode = if v.swap then .run else .runSimplex) ∧
        (s.mb.mode = .calibrate → t.mb.mode = .configure) ∧
        ∀ f, f < 4 → (t.hub.arb f).sel = peer ∧ (t.hub.arb f).take = none) ∧
    (let faulty (t : State) (x : Fin 2) (c : Nat) : Prop :=
        (s.hub.role x = 3 ∨ s.hub.role x = 4 → t.hub.get (Obj.relinquishCause x) = 2 ^ c ∧
          t.hub.role x = (if fatalCause c then 6 else 5) ∧ (t.hub.hdie x).line = true ∧
          t.mb.mode = (if s.hub.role x = 3 ∧ s.mb.mode = .run then .runSimplex else s.mb.mode)) ∧
        (s.hub.role x = 2 → s.hub.understudy = true → s.hub.red.handover = none → t.mb = s.mb ∧
          t.hub.red.handover = some { at_ := frameAfter (s.hub.assertTick.now 0), cause := c, swap := false } ∧
          (t.hub.hdie x).line = true ∧ t.hub.get (Obj.relinquishCause x) = 2 ^ c ∧ t.hub.role x = 2) ∧
        (s.hub.role x = 2 → s.hub.understudy = false → canSafe s.mb.mode = true → s.mb.mode ≠ .safe →
          t.mb.mode = .safe ∧ t.mb.safeFrom = s.mb.mode ∧ bitOf t.mb.safeCause 2 = true ∧
          t.hub.red.sole = (if s.hub.red.sole.any fatalCause then s.hub.red.sole else some c) ∧
          (t.hub.hdie x).line = true ∧ t.hub.get (Obj.relinquishCause x) = 2 ^ c ∧ t.hub.role x = 2)
     ∀ x : Fin 2, s.mb.up = true →
      (∃ t, exec (.islandSilent x) s = .next t ∧ faulty t x 6) ∧
      (∃ t, exec (.clockFault x) s = .next t ∧ faulty t x 7) ∧
      (s.hub.die (6 + x) = 3 → ∃ t, exec (.mdInterfaceLost x) s = .next t ∧ faulty t x 4) ∧
      (∀ (c : Fin 13) (item : Nat), c = 1 ∨ (c = 2 ∧ 16 ≤ (s.hub.lastSecond (s.hub.queue x).poison).length) ∨
          (c = 3 ∧ 16 ≤ (s.hub.lastSecond (s.hub.hdie x).mdErrs).length) →
        ∃ t, exec (.relinquish x c item) s = .next t ∧ faulty t x c)) ∧
    (∀ (f : Fin 4) (dt : Nat), s.hub.feUp f = true →
      (∀ v, s.hub.red.handover = some v → ∃ t, exec (.takeMessage f dt) s = .next t ∧ t.mb = s.mb ∧ t.hub.objs = s.hub.objs ∧
        (t.hub.arb f).take = some v.at_ ∧ (t.hub.arb f).silent = false) ∧
      (s.hub.red.handover = none → ∃ t, exec (.takeMessage f dt) s = .next t ∧ t.mb = s.mb ∧ t.hub.objs = s.hub.objs ∧
        (t.hub.arb f).sel = lead ∧ (t.hub.arb f).take = none ∧ (t.hub.arb f).silent = false)) ∧
    (∀ (f : Fin 4) (clock : Bool), s.hub.feUp f = true →
      ∃ t, exec (.arbiterFailover f clock) s = .next t ∧ t.mb = s.mb ∧
        (if (s.hub.arb f).sel = 0 then (t.hub.arb f).ok0 else (t.hub.arb f).ok1) = false ∧
        (s.hub.part.simplex = true → (t.hub.arb f).sel = (s.hub.arb f).sel ∧ t.hub.objs = s.hub.objs) ∧
        (s.hub.part.simplex = false → (t.hub.arb f).sel = peerOf (s.hub.arb f).sel ∧
          ((s.hub.arb f).sel = lead → s.hub.understudy = true → s.hub.red.handover = none →
            t.hub.red.handover = some { at_ := frameAfter (s.hub.now 0), cause := 8, swap := true }))) ∧
    (∀ f : Fin 4, s.hub.feUp f = true → ∃ t, exec (.feCommandTimeout f) s = .next t ∧ t.mb = s.mb ∧
      (t.hub.arb f).silent = true ∧ (∀ e, e < 24 → (t.hub.drv (f * 24 + e)).active = false) ∧
      ∀ j, j < 4 → s.hub.ctlPair (f * 4 + j) = none →
        t.hub.bit (Obj.ctlStatus (f * 4 + j)) 0 = s.hub.flag (Obj.ctlSafeLevel (f * 4 + j))) ∧
    (∀ crc, s.mb.up = true → s.hub.red.peerUp = true → ∃ t, exec (.peerLinkLost crc) s = .next t ∧ t.hub.red.peerUp = false ∧
      t.hub.red.peerLostAt = s.hub.time.ticks ∧ t.hub.red.readmit = none ∧
      (∀ y, y < 2 → t.hub.get (Obj.hdPeerLinkLosses y) = (s.hub.get (Obj.hdPeerLinkLosses y) + 1) % 2 ^ 32) ∧
      ((s.hub.role peer = 3 ∧ s.hub.lineReads lead = false) ∨ s.hub.role peer = 4 →
        t.hub.role peer = 5 ∧ t.hub.get (Obj.relinquishCause peer) = 512 ∧
        t.mb.mode = if s.hub.role peer = 3 ∧ s.mb.mode = .run then .runSimplex else s.mb.mode)) ∧
    (∀ ok, s.mb.up = true → s.hub.red.peerUp = false → s.hub.part.simplex = false →
      ∃ t, exec (.peerLinkRetry ok) s = .next t ∧ t.mb = s.mb ∧ t.hub.red.peerUp = ok ∧ s.hub.time.ticks < t.hub.time.ticks ∧
        (ok = true → s.hub.role peer = 5 → s.hub.get (Obj.relinquishCause peer) = 512 → t.hub.role peer = 4)) ∧
    (∀ (x : Fin 2) (f : Fin 4), s.mb.up = true → (s.hub.alignOf x f).failed = false →
      16 ≤ ((s.hub.alignOf x f).recent.filter id).length →
      ∃ t, exec (.dieLinkFailed x f) s = .next t ∧ t.mb = s.mb ∧ (t.hub.alignOf x f).failed = true ∧ t.hub.linkOk x f = false ∧
        (s.hub.role x = 2 → s.hub.understudy = true → s.hub.linkOk (peerOf x) f = true → s.hub.red.handover = none →
          t.hub.red.handover = some { at_ := frameAfter (s.hub.assertTick.now 0), cause := 8, swap := true })) ∧
    (∀ q, Granted q Obj.roleSwapRequest 1 1 actRoleSwap s → s.hub.red.handover = none →
      ∃ t, exec (.roleSwapRequest q) s = .next t ∧ t.mb = s.mb ∧
        t.hub.red.handover = some {
          at_ := frameAfter ((checkedHub q Obj.roleSwapRequest 1 actRoleSwap s).assertTick.now 0), cause := 11, swap := true } ∧
        t.hub.srv.swapHeld = s.hub.srv.swapHeld ++ [headed q (writeReq Obj.roleSwapRequest 1 1)])

/-- The cross-compare, the election, recovery and readmission (R43, R198, R318, R319, R324 to R326, R332, Table 11.3).
(Model's choices within it: log 106, log 107, log 108, log 146, log 184.) -/
def Obligations.RolesReturn : Prop :=
  ∀ s : State,
    let lead := s.hub.leadDie
    let peer := peerOf lead
    (∀ dt, s.mb.up = true → s.hub.compares = true →
      let n := (s.hub.waitTicks dt).now 0 / uFrame - 1
      uFrame ≤ (s.hub.waitTicks dt).now 0 → s.hub.red.cmpNext ≤ n →
      (∃ t, exec (.crossCompare dt 0) s = .next t ∧ t.mb = s.mb ∧ t.hub.red.cmpNext = n + 1 ∧
        t.hub.get Obj.cmpFrames = (s.hub.get Obj.cmpFrames + 1) % 2 ^ 64 ∧
        t.hub.get Obj.cmpMismatches = s.hub.get Obj.cmpMismatches ∧
        (s.hub.role peer = 4 → t.hub.get Obj.shadowMatched = min (2 ^ 32 - 1) (s.hub.get Obj.shadowMatched + 1))) ∧
      (s.hub.attributed n = 0 → s.hub.understudy = true →
        ∃ t, exec (.crossCompare dt 16) s = .next t ∧ t.hub.role peer = 4 ∧ t.hub.role lead = s.hub.role lead ∧
          t.hub.get Obj.cmpMismatches = (s.hub.get Obj.cmpMismatches + 1) % 2 ^ 32 ∧
          t.hub.get Obj.cmpUnattributed = (s.hub.get Obj.cmpUnattributed + 1) % 2 ^ 32 ∧
          t.mb.mode = if s.mb.mode = .run then .runSimplex else s.mb.mode)) ∧
    (s.mb.up = true → s.hub.compares = true →
      (∃ t, exec (.timebaseCompare false) s = .next t ∧ t.mb = s.mb ∧ t.hub.objs = s.hub.objs ∧
        t.hub.time.ticks = t.hub.red.seconds * tSec ∧ s.hub.red.seconds < t.hub.red.seconds ∧
        s.hub.time.ticks ≤ t.hub.time.ticks) ∧
      (s.hub.understudy = true → ∃ t, exec (.timebaseCompare true) s = .next t ∧ t.hub.role peer = 4 ∧
        t.hub.get Obj.cmpUnattributed = (s.hub.get Obj.cmpUnattributed + 1) % 2 ^ 32)) ∧
    (∀ (i : Fin 65536) (sub : Fin 256) (u : Nat), s.mb.up = true → s.hub.understudy = true → s.hub.srv.unconfirmed = none →
      s.hub.srv.passed = some (i.val * 256 + sub.val, u) → s.hub.time.ticks ≤ u + 25000 →
      ∃ t, exec (.peerWriteTimeout i sub) s = .next t ∧ t.hub.srv.passed = none ∧ u + 25000 ≤ t.hub.time.ticks ∧
        t.hub.role peer = 4 ∧ t.hub.get (Obj.relinquishCause peer) = 1024 ∧
        t.mb.mode = if s.mb.mode = .run then .runSimplex else s.mb.mode) ∧
    (∀ (i : Fin 65536) (sub : Fin 256) (r : SrvReq) (u : Nat), s.mb.up = true → s.hub.srv.unconfirmed = some (r, u) →
      r.key = i.val * 256 + sub.val → s.hub.time.ticks ≤ u + 25000 →
      ∃ t, exec (.peerWriteTimeout i sub) s = .next t ∧
        let e := handle s.mb ((({ s.hub with out := [] } : Hub).waitTick (u + 25000)).modSrv (fun v => { v with unconfirmed := none })) r
        let f := endUnderstudy e.1 ((e.2.modSrv (fun v => { v with passed := none })).log 0x0101 2 srcPkg (i.val + sub.val * 65536))
        t.mb = f.1 ∧ t.hub = f.2) ∧
    (∀ (x : Fin 2) (n : Nat), s.mb.up = true → 1000 < n → s.hub.stalled = false → ∃ t, exec (.eccRate x n) s = .next t ∧ t.mb = s.mb ∧
      t.hub.cb.lastSeq = nextSeq s.hub.cb.lastSeq ∧ ∀ k, k ≠ Obj.cbLost → t.hub.get k = s.hub.get k) ∧
    (∀ (sel : Bool) (r0 r1 : Fin 16), s.mb.mode = .boot →
      let a := s.hub.reachOf r0
      let b := s.hub.reachOf r1
      (s.hub.part.simplex = true → s.hub.electable = true → ∃ t, exec (.roleElection sel r0 r1) s = .next t ∧ t.mb = s.mb ∧
        t.hub.role 0 = 2 ∧ t.hub.get Obj.leadDie = srcHd 0) ∧
      (s.hub.part.simplex = false → s.hub.role 0 = 1 → s.hub.role 1 = 1 → s.hub.eligibleDie 0 a = true →
        s.hub.eligibleDie 1 b = true →
        let p := if ones 4 a > ones 4 b then 0 else if ones 4 b > ones 4 a then 1 else s.hub.preferred sel
        (∃ t, exec (.roleElection sel r0 r1) s = .next t ∧ t.mb = s.mb ∧ t.hub.role p = 2 ∧ t.hub.role (peerOf p) = 3 ∧
          t.hub.red.peerUp = true ∧ ∀ f, f < 4 → (t.hub.arb f).sel = p) ∧
        (∃ t, exec (.peerLinkBootTimeout sel r0 r1) s = .next t ∧ t.mb = s.mb ∧ t.hub.role 0 = 2 ∧ t.hub.role 1 = 5 ∧
          t.hub.get (Obj.relinquishCause 1) = 512 ∧ t.hub.red.peerUp = false))) ∧
    (∀ x : Fin 2, s.mb.up = true →
      let c := (s.hub.get (Obj.relinquishCause x)).log2
      (s.hub.role x = 5 → s.hub.recovered x c = true → s.hub.red.peerUp = true →
        ∃ t, exec (.roleRecovery x) s = .next t ∧ t.mb = s.mb ∧ t.hub.role x = 4 ∧ t.hub.get Obj.shadowMatched = 0) ∧
      (∀ d, s.hub.role x = 2 → s.hub.red.sole = some d → s.hub.recovered x d = true →
        ∃ t, exec (.roleRecovery x) s = .next t ∧ t.mb = { s.mb with conds := { s.mb.conds with soleDie := false } } ∧
          t.hub.red.sole = none ∧ t.hub.role x = 2)) ∧
    (∀ u auto, s.hub.red.readmit = some (u, auto) → s.hub.role peer = 4 → s.hub.red.sole = none →
      ∃ t, exec .readmission s = .next t ∧ t.hub.role peer = 3 ∧ t.hub.red.readmit = none ∧
        t.hub.get Obj.readmitsLeft = (if auto then s.hub.get Obj.readmitsLeft - 1 else s.hub.get Obj.readmitsLeft) ∧
        t.mb.mode = (if s.mb.mode = .runSimplex then .run else s.mb.mode)) ∧
    (∀ q, Granted q Obj.readmitRequest 1 1 actReadmit s → s.hub.shadowReady = true ∧
      ∃ t, exec (.readmitRequest q) s = .next t ∧ t.mb = s.mb ∧
        (s.hub.red.readmit = none → t.hub.red.readmit = some ((checkedHub q Obj.readmitRequest 1 actReadmit s).readmitCue, false)) ∧
        ∀ k, ¬ answerCounter k → t.hub.get k = s.hub.get k) ∧
    (s.mb.up = true → s.hub.get Obj.readmitsLeft < 3 → ∃ t, exec .readmitsRestore s = .next t ∧ t.mb = s.mb ∧
      t.hub.get Obj.readmitsLeft = 3 ∧ t.hub.time.ticks = max s.hub.time.ticks (s.hub.red.autoAt + 86400 * tSec) ∧
      ∀ k, k ≠ Obj.readmitsLeft → t.hub.get k = s.hub.get k)

/-! ### Streams and queues (chapter 12) -/

/-- Streams, queues and forwarding (R335, R351, R360, R362 to R366, R378, R381, R401): what a received frame or gap record counts,
marks and forwards; a RECORD frame closes at MAX_AGE with the next number; gap records are issued; open numbers and silent entries
time out; a flush empties a queue; and the next packet of a port is the oldest of its highest class.
(Model's choices within it: log 115, log 118, log 119, log 120, log 184.) -/
def Obligations.StreamsAndQueues : Prop :=
  (∀ (w : DupWin) (seq check : Nat), w.verdict seq check = .accept → (w.take seq check).verdict seq check = .duplicate) ∧
  (∀ (h : Hub) (x p : Nat) (k : Packet), h.nextPacket x p = some k → k.cls ≤ 7 ∧ (h.waiting x p k.cls).head? = some k ∧
    ∀ c, k.cls < c → c ≤ 7 → h.waiting x p c = []) ∧
  ∀ s : State, s.mb.up = true →
    (∀ (l : Fin 16) (dt : Nat) (words : List Nat), s.hub.laneNative l = true →
      let hd := rxHead words
      let x := laneDie l
      (∃ t, exec (.frameRx l dt words true) s = .next t ∧ t.mb = s.mb ∧
        t.hub.get (Obj.laneAbortsRx l) = (s.hub.get (Obj.laneAbortsRx l) + 1) % 2 ^ 32 ∧
        ∀ k, k ≠ Obj.laneAbortsRx l → t.hub.get k = s.hub.get k) ∧
      (rxOk words = false → ∃ t, exec (.frameRx l dt words false) s = .next t ∧ t.mb = s.mb ∧
        t.hub.get (Obj.laneFrameCheckErrors l) = (s.hub.get (Obj.laneFrameCheckErrors l) + 1) % 2 ^ 32 ∧
        ∀ k, k ≠ Obj.laneFrameCheckErrors l → t.hub.get k = s.hub.get k) ∧
      (rxOk words = true → laneUp l = true → ∃ t, exec (.frameRx l dt words false) s = .next t ∧ t.mb = s.mb ∧
        t.hub.get (Obj.laneFramesRx l) = (s.hub.get (Obj.laneFramesRx l) + 1) % 2 ^ 64 ∧
        t.hub.get (Obj.laneUplinkRxDiscarded l) = (s.hub.get (Obj.laneUplinkRxDiscarded l) + 1) % 2 ^ 32) ∧
      (rxOk words = true → laneUp l = false →
        (s.hub.entryOf hd.hub hd.stream = none → ∃ t, exec (.frameRx l dt words false) s = .next t ∧ t.mb = s.mb ∧
          t.hub.get Obj.fwdUndeclared = (s.hub.get Obj.fwdUndeclared + 1) % 2 ^ 32 ∧ t.hub.queues = s.hub.queues) ∧
        (∀ j, s.hub.entryOf hd.hub hd.stream = some j →
          (hd.type ≠ 3 → s.hub.win x hd.hub hd.stream false = none → 4 * words.length ≤ s.hub.get (Obj.fwdMaxFrameBytes j) →
            tSec ≤ (s.hub.waitTicks dt).budget j x → ∃ t, exec (.frameRx l dt words false) s = .next t ∧ t.mb = s.mb ∧
              t.hub.get (Obj.fwdForwarded j) = (s.hub.get (Obj.fwdForwarded j) + 1) % 2 ^ 64 ∧
              t.hub.seenNum x hd.hub hd.stream hd.seq = true) ∧
          (∀ w, hd.type ≠ 3 → s.hub.win x hd.hub hd.stream false = some w →
            w.verdict hd.seq (words.getLastD 0) = .duplicate → ∃ t, exec (.frameRx l dt words false) s = .next t ∧ t.mb = s.mb ∧
              t.hub.get Obj.dedupDiscarded = (s.hub.get Obj.dedupDiscarded + 1) % 2 ^ 64 ∧
              t.hub.get (Obj.fwdForwarded j) = s.hub.get (Obj.fwdForwarded j) ∧ t.hub.queues = s.hub.queues) ∧
          (hd.type = 3 → s.hub.win x hd.hub hd.stream true = none →
            let n := wordsNat ((words.drop 8).take 8)
            field n 56 2 ≠ 1 → ∃ t w, exec (.gapRecordRx l dt words) s = .next t ∧ t.mb = s.mb ∧
              t.hub.win x hd.hub hd.stream false = some w ∧ (hd.seq, field n 0 48) ∈ w.marked)))) ∧
    (∀ (q : Fin 64) (r : RecordSt) (rest : List RecordSt), s.mb.streams = true → (s.hub.stream q).recs = r :: rest →
      ∃ t, exec (.recordFrameMaxAge q) s = .next t ∧ t.mb = s.mb ∧ (t.hub.stream q).recs = (r :: rest).drop (s.hub.recordMax q) ∧
        t.hub.time = (s.hub.waitFor 0 (r.left + s.hub.get (Obj.stMaxAge q) * uUs)).time ∧
        t.hub.get (Obj.stNextSeq q) = seqMod (s.hub.get (Obj.stNextSeq q) + 1) ∧
        t.hub.get (Obj.stFrames q) = (s.hub.get (Obj.stFrames q) + 1) % 2 ^ 64) ∧
    (∃ t, exec .gapRecordIssue s = .next t ∧ t.mb = s.mb ∧ t.hub.gaps = [] ∧
      ∀ g, s.hub.lost = [] → s.hub.gaps = [g] → g.hub = s.hub.get Obj.hubIdActive → g.stream < 64 →
        t.hub.get (Obj.stGaps g.stream) = (s.hub.get (Obj.stGaps g.stream) + 1) % 2 ^ 32) ∧
    (∀ (j : Fin 128) (o : OpenRange) (rest : List OpenRange), (s.hub.fwd j).opens = o :: rest →
      ∃ t, exec (.fwdTimeout j) s = .next t ∧ t.mb = s.mb ∧ t.hub.time.ticks = max s.hub.time.ticks o.due ∧
        (t.hub.fwd j).opens = rest.filter (fun o => !o.nums.isEmpty) ∧
        t.hub.bit (Obj.fwdStatus j) 1 = !(rest.filter (fun o => !o.nums.isEmpty)).isEmpty) ∧
    (∀ j : Fin 128, s.hub.flag (Obj.fwdEnable j) = true → s.hub.bit (Obj.fwdStatus j) 0 = false →
      s.hub.stalled = false →
      ∃ t, exec (.fwdStreamSilent j) s = .next t ∧ t.mb = s.mb ∧ t.hub.bit (Obj.fwdStatus j) 0 = true ∧
        t.hub.time.ticks = max s.hub.time.ticks ((s.hub.fwd j).lastRx + s.hub.get (Obj.fwdFwdTimeout j) * tMs) ∧
        t.hub.cb.lastSeq = nextSeq s.hub.cb.lastSeq ∧
        ∀ k, k ≠ Obj.fwdStatus j → k ≠ Obj.cbLost → t.hub.get k = s.hub.get k) ∧
    (∀ (q : ReqHead) (x : Fin 2), Granted q (Obj.queueFlush x) 1 1 (actFlush x) s → ∃ t, exec (.queueFlush q x) s = .next t ∧
      t.mb = s.mb ∧ (t.hub.queue x).packets = [] ∧ t.hub.get (Obj.gapsPending x) = 0)

/-! ### Serial lanes (chapter 13) -/

/-- The lane states (R391 to R399, Tables 13.2 and 13.3): each event and write takes a lane from the state it meets to the state the
tables give, alone among the lanes; a failure is DOWN with its code.
(Model's choices within it: log 127, log 128, log 129, log 130.) -/
def Obligations.LaneStates : Prop :=
  ∀ (l : Fin 16) (dt : Nat) (s : State),
    let st := s.hub.get (Obj.laneState l)
    let v := s.hub.lane l
    let eth := s.hub.laneEth l
    (st = 1 →
      (∀ found, eth = false → ∃ t, exec (.receiverDetectStep l found) s = .next t ∧ t.mb = s.mb ∧
        t.hub.bit (Obj.laneStatus l) 0 = found ∧ t.hub.time.ticks = max s.hub.time.ticks v.detectAt ∧
        (t.hub.lane l).detectAt = v.detectAt + tMs ∧ ∀ k, k ≠ Obj.laneStatus l → t.hub.get k = s.hub.get k) ∧
      LaneGoes s l (.laneDetectDone l dt) 2 ∧
      (∀ signal, eth = true → ∃ t, exec (.laneHalfDetect l dt signal) s = .next t ∧ t.mb = s.mb ∧ t.hub.objs = s.hub.objs) ∧
      (∀ signal, eth = false → ∃ t, exec (.laneHalfDetect l dt signal) s = .next t ∧ t.mb = s.mb ∧
        t.hub.bit (Obj.laneStatus l) 0 = !signal ∧ t.hub.bit (Obj.laneStatus l) 1 = signal ∧
        t.hub.bit (Obj.laneStatus l) 2 = true ∧
        ∀ k, k ≠ Obj.laneStatus l → k ≠ Obj.cbLost → t.hub.get k = s.hub.get k)) ∧
    (st = 2 →
      (∀ w : TrainWord, eth = false → w.good = true → w.rate.val = s.hub.get (Obj.laneRate l) →
        LaneGoes s l (.trainingWordRx l dt w) (if w.ready = true ∧ v.rxReady = true ∧ 15 ≤ v.peerReady then 3 else 2) ∧
        ∃ t, exec (.trainingWordRx l dt w) s = .next t ∧
          (w.ffeReq.val ≤ 10 → t.hub.get (Obj.laneFfeTx l) = w.ffeReq) ∧
          (w.ffeReq.val ≤ 10 → w.ffeReq.val ≠ s.hub.get (Obj.laneFfeTx l) → .training l (t.hub.trainWord l) ∈ t.hub.out)) ∧
      (∀ w : TrainWord, w.good = false ∨ w.rate.val ≠ s.hub.get (Obj.laneRate l) → ∃ t, exec (.trainingWordRx l dt w) s = .next t ∧
        t.mb = s.mb ∧ t.hub.objs = s.hub.objs ∧ t.hub.lanes = s.hub.lanes) ∧
      (∀ e : TrainPass,
        let fom (r : EyeReading) : Nat := eyeFom r.width r.height
        let top := (e.high.toList.map fom).foldl max 0
        (v.rxReady = true → eth = false → ∃ t, exec (.trainPassDone l dt e) s = .next t ∧ t.mb = s.mb ∧ t.hub.objs = s.hub.objs) ∧
        (v.stored = false → (v.rxReady = true → eth = true) →
          LaneGoes s l (.trainPassDone l dt e) (if s.hub.get Obj.fomMin ≤ top ∧ (eth = true ∨ 16 ≤ v.peerReady) then 3 else 2) ∧
          ∃ t, exec (.trainPassDone l dt e) s = .next t ∧ t.hub.get (Obj.laneFom l) = top ∧
            (t.hub.lane l).rxReady = decide (s.hub.get Obj.fomMin ≤ top) ∧
            (∀ b : Fin 16, (∀ c, c ≠ b → fom e.high[c] < fom e.high[b]) → t.hub.get (Obj.laneCtle l) = b) ∧
            (eth = false → ∀ p : Fin 11, (∀ q, q ≠ p → fom e.presets[q] < fom e.presets[p]) → (t.hub.lane l).ffeReq = p)) ∧
        (v.stored = true → (v.rxReady = true → eth = true) → s.hub.get Obj.fomMin ≤ fom e.first →
          LaneGoes s l (.trainPassDone l dt e) (if eth = true ∨ 16 ≤ v.peerReady then 3 else 2))) ∧
      (eth = false ∧ v.div < s.hub.get (Obj.laneFallbackDiv l) → LaneGoes s l (.trainTimeout l) 2 ∧
        ∃ t, exec (.trainTimeout l) s = .next t ∧ (t.hub.lane l).div = 2 * v.div ∧ t.hub.get (Obj.laneCtle l) = 0 ∧
          t.hub.get (Obj.laneDfeTaps l) = 0 ∧ t.hub.get (Obj.laneFfeTx l) = 0) ∧
      (eth = true ∨ s.hub.get (Obj.laneFallbackDiv l) ≤ v.div → LaneFails s l (.trainTimeout l) 1) ∧
      LaneGoes s l (.trainSignalLost l dt) 1) ∧
    (st = 3 →
      LaneGoes s l (.blockLock l dt) (if eth then 5 else 4) ∧
      (v.lockFails = 0 → LaneGoes s l (.lockTimeout l) 2) ∧ (v.lockFails ≠ 0 → LaneFails s l (.lockTimeout l) 2)) ∧
    (st = 4 →
      (∀ c : CapMsg, eth = false →
        (c.down = laneUp l → c.hub.val ≠ s.hub.get Obj.hubIdActive → c.version.val = 1 → LaneGoes s l (.cap l dt c true) 5 ∧
          ∃ t, exec (.cap l dt c true) s = .next t ∧ t.hub.get (Obj.lanePeerHubId l) = c.hub ∧
            t.hub.get (Obj.lanePeerBrev l) = c.brev) ∧
        (c.down ≠ laneUp l → LaneFails s l (.cap l dt c true) 4) ∧
        (c.down = laneUp l → c.hub.val = s.hub.get Obj.hubIdActive → LaneFails s l (.cap l dt c true) 5) ∧
        (c.down = laneUp l → c.hub.val ≠ s.hub.get Obj.hubIdActive → c.version.val ≠ 1 → LaneFails s l (.cap l dt c true) 6) ∧
        LaneGoes s l (.cap l dt c false) 4) ∧
      (∃ t, exec (.capResend l) s = .next t ∧ t.mb = s.mb ∧ t.hub.objs = s.hub.objs ∧
        t.hub.out.head? = some (.lane l 0x30 (s.hub.capBytes l)) ∧ t.hub.time.ticks = max s.hub.time.ticks (v.capAt + tMs) ∧
        (t.hub.lane l).capAt = t.hub.time.ticks) ∧
      LaneFails s l (.exchangeTimeout l) 3) ∧
    (st = 5 →
      LaneGoes s l (.laneSignalLost l dt) 1 ∧
      (∀ (n : RxBlocks) (wide : Bool),
        LaneGoes s l (.syncHeaderErrors l dt n wide) (if n.headers.val < 16 ∨ (wide = true ∧ eth = false) then 5 else 3) ∧
        ∃ t, exec (.syncHeaderErrors l dt n wide) s = .next t ∧
          t.hub.get (Obj.laneBlockErrors l) = (s.hub.get (Obj.laneBlockErrors l) + (n.headers + n.types)) % 2 ^ 32 ∧
          (eth = false → t.hub.get (Obj.laneMsgRx l) = (s.hub.get (Obj.laneMsgRx l) + n.strays) % 2 ^ 32 ∧
            t.hub.get (Obj.laneAbortsRx l) =
              if n.inFrame = true ∧ 0 < n.headers.val + n.types.val then (s.hub.get (Obj.laneAbortsRx l) + 1) % 2 ^ 32
              else s.hub.get (Obj.laneAbortsRx l))) ∧
      (∀ e : EyeReading, ∃ t, exec (.eyeScan l e) s = .next t ∧ t.mb = s.mb ∧ t.hub.get (Obj.laneState l) = 5 ∧
        t.hub.get (Obj.laneFom l) = eyeFom e.width e.height ∧ t.hub.get (Obj.laneEyeWidth l) = e.width ∧
        t.hub.time.ticks = max s.hub.time.ticks (v.eyeAt + s.hub.get Obj.eyePeriod * tMs) ∧
        (s.hub.get Obj.fomWarn ≤ eyeFom e.width e.height → t.hub.bit (Obj.laneStatus l) 7 = false) ∧
        (eyeFom e.width e.height < s.hub.get Obj.fomWarn → 9 ≤ v.eyeLowRun → t.hub.bit (Obj.laneStatus l) 7 = true))) ∧
    (st = 9 → LaneGoes s l (.laneRetry l) 1) ∧
    (∀ p : Fin 8, p.val = lanePair l → st ≠ 0 → ∃ t, exec (.pllUnlock p dt) s = .next t ∧ t.mb = s.mb ∧
      t.hub.get (Obj.laneState l) = 9 ∧ t.hub.get (Obj.laneLastFail l) = 7 ∧ t.hub.flag (Obj.pairPllLocked p) = false ∧
      t.hub.get (Obj.pairPllUnlocks p) = (s.hub.get (Obj.pairPllUnlocks p) + 1) % 2 ^ 32) ∧
    (∀ q : ReqHead,
      (Granted q (Obj.laneRetrain l) 1 1 (actRetrain l) s → LaneGoes s l (.retrain q l) 2) ∧
      (Granted q (Obj.laneEnable l) 1 0 (actStore (Obj.laneEnable l) 0) s → LaneGoes s l (.laneEnable q l false) 0) ∧
      (Granted q (Obj.laneEnable l) 1 1 (actStore (Obj.laneEnable l) 1) s → s.hub.die (4 + laneDie l) = 3 →
        LaneGoes s l (.laneEnable q l true) (if st ≠ 0 then st else if s.mb.mode = .selfTest then 8 else 1)) ∧
      (∀ (o : LaneField) (x : Fin 256), Granted q (laneFieldKey o l) 1 x (actStore (laneFieldKey o l) x) s →
        ∃ t, exec (.laneConfigWrite q l o x) s = .next t ∧ t.mb = s.mb ∧ t.hub.get (laneFieldKey o l) = x ∧
          t.hub.get (Obj.laneState l) = if st = 0 then 0 else 1))

/-- Low-power states, loopbacks and what an ACTIVE lane sends (R325, R378, R380, R402, R403, R408, R409, R411).
Completion of LPM_REQUEST_NONE, LPM_REQUEST_L1, LPM_REQUEST_L2, LOOPBACK_NEAR_SERIAL and LOOPBACK_NEAR_PARALLEL.
(Model's choices within it: log 131, log 132, log 133, log 134, log 137, log 190.) -/
def Obligations.LanePowerAndData : Prop :=
  ∀ (l : Fin 16) (dt : Nat) (s : State),
    let st := s.hub.get (Obj.laneState l)
    let v := s.hub.lane l
    (∀ q : ReqHead,
      (let lpm (t : State) (x : Nat) : Prop := t.mb = s.mb ∧ t.hub.get (Obj.laneLpmRequest l) = x ∧
          ∀ k, k ≠ Obj.laneLpmRequest l → ¬ answerCounter k → t.hub.get k = s.hub.get k
       (Granted q (Obj.laneLpmRequest l) 1 0 (actStore (Obj.laneLpmRequest l) 0) s →
          ∃ t, exec (.lpmRequestNone q l) s = .next t ∧ lpm t 0) ∧
       (Granted q (Obj.laneLpmRequest l) 1 1 (actStore (Obj.laneLpmRequest l) 1) s →
          ∃ t, exec (.lpmRequestL1 q l) s = .next t ∧ lpm t 1) ∧
       (Granted q (Obj.laneLpmRequest l) 1 2 (actStore (Obj.laneLpmRequest l) 2) s →
          ∃ t, exec (.lpmRequestL2 q l) s = .next t ∧ lpm t 2)) ∧
      (Granted q (Obj.laneLoopback l) 1 1 (actLoopback l 1) s → 1 ≤ st → st ≤ 5 → LaneGoes s l (.loopbackNearSerial q l) 8 ∧
        ∃ t, exec (.loopbackNearSerial q l) s = .next t ∧ (t.hub.lane l).loopKind = 1 ∧ t.hub.get (Obj.laneLoopback l) = 1) ∧
      (Granted q (Obj.laneLoopback l) 1 2 (actLoopback l 2) s → 1 ≤ st → st ≤ 5 → LaneGoes s l (.loopbackNearParallel q l) 8 ∧
        ∃ t, exec (.loopbackNearParallel q l) s = .next t ∧ (t.hub.lane l).loopKind = 2 ∧ t.hub.get (Obj.laneLoopback l) = 2) ∧
      (Granted q (Obj.laneLoopback l) 1 0 (actLoopback l 0) s → s.mb.mode = .service →
        LaneGoes s l (.loopbackStop q l) (if st = 8 then 1 else st)) ∧
      (Granted q (Obj.laneLoopback l) 1 3 (actLoopback l 3) s →
        LaneGoes s l (.loopbackFar q l) 5 ∧ ∃ t, exec (.loopbackFar q l) s = .next t ∧
          (t.hub.lane l).floopSent = some (checkedHub q (Obj.laneLoopback l) 3 (actLoopback l 3) s).time.ticks ∧
          t.hub.srv.loopHeld = s.hub.srv.loopHeld ++ [(l.val, headed q (writeReq (Obj.laneLoopback l) 1 3))])) ∧
    (s.hub.laneNative l = true →
      (∀ target : Fin 256, LaneGoes s l (.lpEnter l dt target true) 5 ∧
        ∃ t, exec (.lpEnter l dt target true) s = .next t ∧
          (t.hub.lane l).lpAck = (if s.hub.flag (Obj.laneLpmAllow l) = true ∧ s.hub.packetWaits l = false ∧
            (target.val = 6 ∨ target.val = 7) then some target.val else v.lpAck)) ∧
      (∀ a x, v.lpSent = some (a, x) → LaneGoes s l (.lpAck l dt true true) x ∧
        ∃ t, exec (.lpAck l dt false true) s = .next t ∧ t.mb = s.mb ∧ t.hub.get (Obj.laneState l) = 5 ∧
          (t.hub.lane l).lpSent = none ∧ (t.hub.lane l).lpRetry = some (a + 100 * tMs)) ∧
      (∀ ok, s.hub.bit (Obj.laneStatus l) 8 = false → v.msgs.length < 64 → (s.mb.mode = .service → s.hub.flag Obj.farLoopAllow = ok) → (s.mb.mode ≠ .service → ok = false) →
        ∃ t, exec (.floopReq l dt true true) s = .next t ∧ t.mb = s.mb ∧ t.hub.bit (Obj.laneStatus l) 8 = ok ∧
          (t.hub.lane l).msgs = v.msgs ++ [⟨0x51, [b2n ok]⟩] ∧ t.hub.get (Obj.laneState l) = 5) ∧
      (s.hub.bit (Obj.laneStatus l) 8 = true → LaneGoes s l (.floopReq l dt false true) 1) ∧
      (v.floopSent.isSome = true → s.mb.mode = .service →
        (LaneGoes s l (.floopAck l dt true true) 8 ∧ ∃ t, exec (.floopAck l dt true true) s = .next t ∧
          (t.hub.lane l).loopKind = 3 ∧ t.hub.get (Obj.laneLoopback l) = 3) ∧
        (LaneGoes s l (.floopAck l dt false true) 5 ∧ ∃ t, exec (.floopAck l dt false true) s = .next t ∧
          (t.hub.lane l).floopSent = none ∧ t.hub.get (Obj.laneLoopback l) = 0)) ∧
      (s.mb.up = true → s.hub.srv.events = [] → (s.hub.waitTicks dt).captureDue l = none → s.hub.bit (Obj.laneStatus l) 8 = true →
        v.msgNow = none → ⟨0x51, [1]⟩ ∉ v.msgs → ∃ t, exec (.laneTxBlock l dt false) s = .next t ∧ t.mb = s.mb ∧
          t.hub.objs = s.hub.objs ∧ t.hub.lanes = s.hub.lanes ∧ t.hub.out = []) ∧
      (s.mb.up = true → s.hub.srv.events = [] → s.hub.get (Obj.laneLpmRequest l) = 0 → (s.hub.waitTicks dt).captureDue l = none →
        s.hub.bit (Obj.laneStatus l) 8 = false →
        (∀ m left, v.msgNow = some (m, left) → v.lpAck = none → ∃ t, exec (.laneTxBlock l dt false) s = .next t ∧ t.mb = s.mb ∧
          t.hub.objs = s.hub.objs ∧ (t.hub.lane l).blocks = v.blocks + 1 ∧
          (t.hub.lane l).msgNow = if left - 1 = 0 then none else some (m, left - 1)) ∧
        (∀ m, v.msgNow = none → v.nextMsg = some m → v.lpAck = none → ∃ t, exec (.laneTxBlock l dt false) s = .next t ∧
          t.mb = s.mb ∧ t.hub.objs = s.hub.objs ∧ t.hub.out.head? = some (.lane l m.code m.bytes) ∧
          (t.hub.lane l).msgs = v.msgs.erase m ∧ (t.hub.lane l).msgNow = if m.bodies = 0 then none else some (m, m.bodies)) ∧
        (v.msgNow = none → v.nextMsg = none →
          (∀ p w, v.frameNow = some (p, w) → 2 ≤ w.length → (w.take 2).all parityOk = true →
            ∃ t, exec (.laneTxBlock l dt false) s = .next t ∧ t.mb = s.mb ∧ t.hub.objs = s.hub.objs ∧
              (t.hub.lane l).frameNow = some (p, w.drop 2)) ∧
          (∀ p w, v.frameNow = some (p, w) → w.length ≤ 1 → w.all parityOk = true →
            ∃ t, exec (.laneTxBlock l dt false) s = .next t ∧ t.mb = s.mb ∧ (t.hub.lane l).frameNow = none ∧
              t.hub.get (Obj.pqFramesSent (lanePort l)) = (s.hub.get (Obj.pqFramesSent (lanePort l)) + 1) % 2 ^ 64 ∧
              t.hub.out.getLast? = some (.frame (laneDie l) (l % 4) p.type p.stream p.seq)) ∧
          (∀ p w, v.frameNow = some (p, w) → w ≠ [] → ∃ t, exec (.laneTxBlock l dt true) s = .next t ∧ t.mb = s.mb ∧
            (t.hub.lane l).frameNow = none ∧
            t.hub.get (Obj.hdPoisonCount (laneDie l)) = (s.hub.get (Obj.hdPoisonCount (laneDie l)) + 1) % 2 ^ 32 ∧
            t.hub.get (Obj.abortedPackets (laneDie l)) = (s.hub.get (Obj.abortedPackets (laneDie l)) + 1) % 2 ^ 32) ∧
          (∀ p, v.frameNow = none → s.hub.lanePacket l = some p → ∃ t, exec (.laneTxBlock l dt false) s = .next t ∧ t.mb = s.mb ∧
            t.hub.objs = s.hub.objs ∧ (t.hub.lane l).frameNow = some (p, p.words) ∧
            (t.hub.queue (laneDie l)).packets = (s.hub.queue (laneDie l)).packets.erase p) ∧
          (v.frameNow = none → s.hub.lanePacket l = none → ∃ t x, exec (.laneTxBlock l dt false) s = .next t ∧ t.mb = s.mb ∧
            t.hub.objs = s.hub.objs ∧ t.hub.out = [.block l 2 x])))) ∧
    (∀ a x, v.lpSent = some (a, x) → ∃ t, exec (.lpAckTimeout l) s = .next t ∧ t.mb = s.mb ∧ t.hub.objs = s.hub.objs ∧
      t.hub.time.ticks = max s.hub.time.ticks (a + tMs) ∧ (t.hub.lane l).lpSent = none ∧
      (t.hub.lane l).lpRetry = some (a + 100 * tMs)) ∧
    (∀ a, v.lpRetry = some a → ∃ t, exec (.lpRequestRepeat l) s = .next t ∧ t.mb = s.mb ∧
      t.hub.time.ticks = max s.hub.time.ticks a ∧ (t.hub.lane l).lpRetry = none ∧
      (s.hub.get (Obj.laneLpmRequest l) ≠ 0 → s.hub.laneTalks l = true → v.lpSent = none → s.hub.packetWaits l = false →
        s.hub.exchanging l = false →
        (t.hub.lane l).lpSent = some (t.hub.time.ticks, 5 + s.hub.get (Obj.laneLpmRequest l)))) ∧
    (st = 6 ∨ st = 7 →
      (∀ far, far = true ∨ s.hub.wakes l = true → LaneGoes s l (.laneWake l dt far) (if st = 6 then 5 else 2)) ∧
      (s.hub.wakes l = false → ∃ t, exec (.laneWake l dt false) s = .next t ∧ t.mb = s.mb ∧ t.hub.objs = s.hub.objs ∧
        t.hub.time.ticks = s.hub.time.ticks) ∧
      LaneGoes s l (.lpNoWakeTimeout l dt) 1) ∧
    (∀ a, s.mb.up = true → v.floopSent = some a → ∃ t, exec (.farLoopTimeout l) s = .next t ∧ t.mb = s.mb ∧
      t.hub.time.ticks = max s.hub.time.ticks (a + 10 * tMs) ∧ (t.hub.lane l).floopSent = none ∧
      t.hub.get (Obj.laneLoopback l) = 0 ∧ t.hub.get (Obj.laneState l) = st)

/-- Ethernet ports, carriers and the commit at its cue point (R406, R414, R416, R431, R434, R437, R438, R441 to R443): what a received
frame is answered with or counted as, resolution and its refresh, link faults; a CAN frame for this hub is served and any other not; a
tunnelled request is sent on; the HEARTBEAT; the phases of a COMMIT and its ABORT; and a commit that is applied, discarded or expired.
Completion of ARP_REQUEST_RX, NEIGHBOR_SOLICITATION_RX, ARP_REPLY_RX, NEIGHBOR_ADVERTISEMENT_RX, COMMIT_PREPARE, COMMIT_CONFIRM,
COMMIT_PREPARE_CONFIRM and ABORT_COMMIT.
(Model's choices within it: log 55, log 61, log 78, log 104, log 135, log 183, log 184.) -/
def Obligations.EthernetCarriersAndCommits : Prop :=
  (∀ (u : Fin 8) (dt n size mac : Nat) (r : EthRx) (s : State), s.hub.ethActive u = true →
    let now := s.hub.time.ticks + dt
    let v4 := s.hub.v4 u
    let own := n ≠ 0 ∧ n = s.hub.ownAddr u
    let local6 := n = linkLocal (netValue 6 (s.hub.get (Obj.ethMacAddress u)))
    let recent := (vget s.hub.eths u).echoes.filter (fun t => decide (now < t + tSec))
    let counts (t : State) (lost bad : Nat) : Prop :=
      t.hub.get (Obj.ethRxDiscarded u) = (s.hub.get (Obj.ethRxDiscarded u) + (r.other + r.pauses) + lost) % 2 ^ 32 ∧
      t.hub.get (Obj.ethRxFcsErrors u) = (s.hub.get (Obj.ethRxFcsErrors u) + r.otherBad + bad) % 2 ^ 32 ∧
      t.hub.get (Obj.ethPauseIgnored u) = (s.hub.get (Obj.ethPauseIgnored u) + r.pauses) % 2 ^ 32
    let keeps (t : State) : Prop := t.mb = s.mb ∧ t.hub.time.ticks = now ∧
      ∀ k, k ∉ [Obj.ethRxDiscarded u, Obj.ethRxFcsErrors u, Obj.ethPauseIgnored u, Obj.ethEchoAnswered u] → t.hub.get k = s.hub.get k
    let lives (t : State) : Prop := keeps t ∧ counts t 1 0 ∧ t.hub.out = []
    let answers (t : State) (kind m : Nat) : Prop := keeps t ∧ counts t 0 0 ∧ t.hub.out = [.eth u kind m]
    let resolves (t : State) : Prop := t.mb = s.mb ∧ (vget t.hub.eths u).resolvedAt = some now ∧
      t.hub.get (Obj.ethResolvedMac u) = netValue 6 mac ∧ counts t 0 0
    let badFcs (t : State) : Prop := keeps t ∧ counts t 0 1 ∧ t.hub.out = []
    let awaited := n ≠ 0 ∧ n = s.hub.nextHop u ∧ s.hub.get (Obj.ethDestMac u) = 0
    let e := vget s.hub.eths u
    let pong (v6 : Bool) := v6 = !v4 ∧ (own ∨ (n ≠ 0 ∧ v6 = true ∧ local6)) ∧ size ≤ 1472 ∧ recent.length < 100
    (r.badFcs = true →
      (∃ t, exec (.arpRequestRx u dt n r) s = .next t ∧ badFcs t) ∧
      (∃ t, exec (.neighborSolicitationRx u dt n r) s = .next t ∧ badFcs t) ∧
      (∃ t, exec (.arpReplyRx u dt n mac r) s = .next t ∧ badFcs t) ∧
      (∃ t, exec (.neighborAdvertisementRx u dt n mac r) s = .next t ∧ badFcs t) ∧
      ∀ v6, ∃ t, exec (.echoRequestRx u dt v6 n size r) s = .next t ∧ badFcs t) ∧
    (r.badFcs = false → r.odd = true →
      (∃ t, exec (.arpRequestRx u dt n r) s = .next t ∧ lives t) ∧
      (∃ t, exec (.neighborSolicitationRx u dt n r) s = .next t ∧ lives t) ∧
      (∃ t, exec (.arpReplyRx u dt n mac r) s = .next t ∧ lives t) ∧
      (∃ t, exec (.neighborAdvertisementRx u dt n mac r) s = .next t ∧ lives t) ∧
      ∀ v6, ∃ t, exec (.echoRequestRx u dt v6 n size r) s = .next t ∧ lives t) ∧
    (r.badFcs = false → r.odd = false →
      (v4 = true ∧ own → ∃ t, exec (.arpRequestRx u dt n r) s = .next t ∧ answers t 1 n) ∧
      (¬ (v4 = true ∧ own) → ∃ t, exec (.arpRequestRx u dt n r) s = .next t ∧ lives t) ∧
      (v4 = false ∧ (own ∨ local6) → ∃ t, exec (.neighborSolicitationRx u dt n r) s = .next t ∧ answers t 2 n) ∧
      (¬ (v4 = false ∧ (own ∨ local6)) → ∃ t, exec (.neighborSolicitationRx u dt n r) s = .next t ∧ lives t) ∧
      (v4 = true ∧ awaited → ∃ t, exec (.arpReplyRx u dt n mac r) s = .next t ∧ resolves t) ∧
      (¬ (v4 = true ∧ awaited) → ∃ t, exec (.arpReplyRx u dt n mac r) s = .next t ∧ lives t) ∧
      (v4 = false ∧ awaited → ∃ t, exec (.neighborAdvertisementRx u dt n mac r) s = .next t ∧ resolves t) ∧
      (¬ (v4 = false ∧ awaited) → ∃ t, exec (.neighborAdvertisementRx u dt n mac r) s = .next t ∧ lives t) ∧
      ∀ v6, (pong v6 → ∃ t, exec (.echoRequestRx u dt v6 n size r) s = .next t ∧ answers t 3 n ∧
          t.hub.get (Obj.ethEchoAnswered u) = (s.hub.get (Obj.ethEchoAnswered u) + 1) % 2 ^ 32) ∧
        (¬ pong v6 → ∃ t, exec (.echoRequestRx u dt v6 n size r) s = .next t ∧ lives t)) ∧
    ((s.hub.unresolved u = true → e.requests < 10 → ∃ t, exec (.resolveRequest u) s = .next t ∧ t.mb = s.mb ∧
        t.hub.objs = s.hub.objs ∧ t.hub.time.ticks = max s.hub.time.ticks e.requestAt ∧
        (vget t.hub.eths u).requests = e.requests + 1 ∧ (vget t.hub.eths u).requestAt = t.hub.time.ticks + tSec ∧
        t.hub.out = [.eth u (s.hub.resolveKind u) (s.hub.nextHop u)]) ∧
      (s.hub.unresolved u = true → 10 ≤ e.requests → e.failLog = none → s.hub.stalled = false →
        ∃ t, exec (.resolveRequest u) s = .next t ∧ t.mb = s.mb ∧
        (vget t.hub.eths u).failLog = some t.hub.time.ticks ∧ t.hub.cb.lastSeq = nextSeq s.hub.cb.lastSeq) ∧
      (∀ a, e.resolvedAt = some a →
        (e.refreshed = false → ∃ t, exec (.resolveRefresh u) s = .next t ∧ t.mb = s.mb ∧ t.hub.objs = s.hub.objs ∧
          t.hub.time.ticks = max s.hub.time.ticks (a + 240 * tSec) ∧ (vget t.hub.eths u).refreshed = true ∧
          t.hub.out = [.eth u (s.hub.resolveKind u) (s.hub.nextHop u)]) ∧
        ∃ t, exec (.resolveDrop u) s = .next t ∧ t.mb = s.mb ∧ t.hub.time.ticks = max s.hub.time.ticks (a + 300 * tSec) ∧
          (vget t.hub.eths u).resolvedAt = none ∧ (vget t.hub.eths u).requests = 0 ∧ t.hub.get (Obj.ethResolvedMac u) = 0) ∧
      (∃ t, exec (.membershipReport u) s = .next t ∧ t.mb = s.mb ∧ t.hub.objs = s.hub.objs ∧
        (vget t.hub.eths u).memberAt = e.memberAt + 125 * tSec ∧ t.hub.out = [.eth u 5 0]) ∧
      (∀ remote, ∃ t, exec (.ethFault u dt remote) s = .next t ∧ t.mb = s.mb ∧ (vget t.hub.eths u).faultAt = some now ∧
        t.hub.bit (Obj.ethEthStatus u) (if remote then 3 else 2) = true ∧
        (s.hub.bit (Obj.ethEthStatus u) (if remote then 3 else 2) = false → s.hub.stalled = false →
          t.hub.cb.lastSeq = nextSeq s.hub.cb.lastSeq) ∧
        (.eth u 6 2 ∈ t.hub.out ↔ remote = false)) ∧
      (∀ a, e.faultAt = some a → ∃ t, exec (.ethFaultEnd u) s = .next t ∧ t.mb = s.mb ∧ (vget t.hub.eths u).faultAt = none ∧
        t.hub.time.ticks = max s.hub.time.ticks (a + 10 * tMs) ∧ t.hub.bit (Obj.ethEthStatus u) 2 = false ∧
        t.hub.bit (Obj.ethEthStatus u) 3 = false))) ∧
  (∀ (p : Fin 2) (dt : Nat) (node : Fin 128) (nvm : Bool) (b : List (Fin 256)) (s : State), s.mb.up = true → s.hub.canOpen p = true →
    let h := ({ s.hub with out := [] }).waitTicks dt
    let mine := node.val = 0 ∨ node.val = s.hub.nodeOf p
    (∀ (fd : Bool) (fn : Fin 16), fd = false ∨ fn.val ∉ [1, 2, 3, 4, 5, 7] → ∃ t, exec (.request p fd fn node b dt nvm) s = .next t ∧
      t.mb = s.mb ∧ t.hub.get (Obj.canIgnored p) = (s.hub.get (Obj.canIgnored p) + 1) % 2 ^ 32 ∧
      ∀ k, k ≠ Obj.canIgnored p → t.hub.get k = s.hub.get k) ∧
    (¬ mine → exec (.request p true 5 node b dt nvm) s = .next { s with hub := h }) ∧
    (∀ r, mine → parsePdu (.can p) nvm (byteVals b) = some r → s.hub.serverAway = false → quiet s.mb h r s.pending.head? = true →
      exec (.request p true 5 node b dt nvm) s = .next { s with mb := (handle s.mb h r).1, hub := (handle s.mb h r).2 }) ∧
    (∀ (r : SrvReq) (dest : Fin 65536), mine → parsePdu (.own p) nvm (byteVals b) = some r →
      let w : TunnelWait := { port := p, tx := r.tx, service := r.service, index := r.index, sub := r.sub, at_ := h.time.ticks }
      let g := (h.modSrv (fun v => { v with tunnels := w :: v.tunnels.filter (fun t => h.time.ticks ≤ t.at_ + 10 * tSec) })).sendHorol
        dest (byteVals b)
      (s.hub.addressed dest = false → exec (.tunnelRequest p node dest b dt nvm) s = .next { s with hub := g }) ∧
      (s.hub.addressed dest = true → s.hub.serverAway = false → quiet s.mb g r s.pending.head? = true →
        exec (.tunnelRequest p node dest b dt nvm) s = .next { s with mb := (handle s.mb g r).1, hub := (handle s.mb g r).2 })) ∧
    (∃ t, exec (.canBusOff p dt) s = .next t ∧ t.mb = s.mb ∧ t.hub.get (Obj.canStatus p) = 2 ∧ t.hub.canOpen p = false ∧
      t.hub.get (Obj.canBusOffCount p) = (s.hub.get (Obj.canBusOffCount p) + 1) % 2 ^ 32 ∧
      (s.hub.stalled = false → t.hub.cb.lastSeq = nextSeq s.hub.cb.lastSeq))) ∧
  (∀ s : State, s.mb.up = true →
    (∀ (p : Fin 2) (dt : Nat), s.hub.get (Obj.canStatus p) = 2 → ∃ t, exec (.canBusOffRecovery p dt) s = .next t ∧ t.mb = s.mb ∧
      t.hub.get (Obj.canStatus p) = 0 ∧ ∀ k, k ≠ Obj.canStatus p → t.hub.get k = s.hub.get k) ∧
    (s.hub.get Obj.heartbeatPeriod ≠ 0 → s.hub.serverAway = false → ∃ t, exec .heartbeatSend s = .next t ∧ t.mb = s.mb ∧
      t.hub.objs = s.hub.objs ∧
      t.hub.time.ticks = max s.hub.time.ticks (s.hub.srv.beatAt + s.hub.get Obj.heartbeatPeriod * tMs) ∧
      t.hub.srv.beatAt = t.hub.time.ticks ∧
      ∀ p : Fin 2, s.hub.canOpen p = true → t.hub.canOut p 7 (pduHead 8 0 0 0 0 0 15 ++ beatBytes s.mb t.hub) ∈ t.hub.out) ∧
    (∀ a, s.hub.firstTransfer = some a → ∃ t, exec .transferIncomplete s = .next t ∧ t.mb = s.mb ∧ a ∉ t.hub.srv.transfers ∧
      t.hub.time.ticks = max s.hub.time.ticks (a.at_ + 100 * tMs) ∧ t.hub.srv.answered.head?.map (·.req) = some a.first)) ∧
  (∀ (l : Fin 16) (dt : Nat) (m : HorolMsg) (nvm : Bool) (s : State), s.hub.laneNative l = true →
    (∃ t, exec (.horol l dt m false nvm) s = .next t ∧ t.mb = s.mb ∧ t.hub.srv = s.hub.srv ∧
      t.hub.get (Obj.laneMsgCrcErrors l) = (s.hub.get (Obj.laneMsgCrcErrors l) + 1) % 2 ^ 32) ∧
    (s.hub.srv.unseen m.origin m.number = false → ∃ t, exec (.horol l dt m true nvm) s = .next t ∧ t.mb = s.mb ∧
      t.hub.srv = s.hub.srv ∧ t.hub.lanes = s.hub.lanes ∧ t.hub.out = []) ∧
    (s.hub.srv.unseen m.origin m.number = true → s.hub.addressed m.dest = false → ∃ t, exec (.horol l dt m true nvm) s = .next t ∧
      t.mb = s.mb ∧ t.hub.srv.unseen m.origin m.number = false)) ∧
  ∀ s : State,
    let w := s.hub.get Obj.commitCue
    let at_ (h : Hub) (u : Nat) := ({ h with out := [] }).waitFor 0 u
    (s.hub.get Obj.commitState = 2 → s.hub.stagedStopped = false ∨ s.mb.mode.stopped = true →
      s.hub.staged.slotsBusy s.hub = false → s.hub.stalled = false →
      let r := applyStaged s.mb (at_ s.hub (uOfTime96 w)) (uOfTime96 w)
      ∃ t, exec .commitApply s = .next t ∧ t.mb = r.1 ∧ t.hub.srv.staging = [] ∧ t.hub.get Obj.commitState = 0 ∧
        t.hub.get Obj.commitId = 0 ∧ t.hub.get Obj.commitCue = 0 ∧ t.hub.cb.lastSeq = nextSeq r.2.cb.lastSeq ∧
        ∀ k, k ∉ [Obj.commitState, Obj.commitId, Obj.commitCue, Obj.lastCommit, Obj.stagedEntries, Obj.cbLost] →
          t.hub.get k = r.2.get k) ∧
    (∀ e, s.hub.srv.staging.getLast? = some e → s.hub.staged.get e.key = e.val) ∧
    (s.hub.get Obj.commitState = 2 → s.hub.stagedStopped = true → s.mb.mode.stopped = false → ∃ t, exec .commitApply s = .next t ∧
      t.mb = s.mb ∧ t.hub.srv.staging = s.hub.srv.staging ∧ t.hub.get Obj.commitState = 0 ∧
      field (t.hub.get Obj.lastCommit) 112 16 = 0x0E06 ∧
      ∀ k, k ∉ [Obj.commitState, Obj.commitId, Obj.commitCue, Obj.lastCommit, Obj.cbLost] → t.hub.get k = s.hub.get k) ∧
    (s.hub.get Obj.commitState = 2 → s.hub.stagedStopped = false → s.hub.staged.slotsBusy s.hub = true →
      ∃ t, exec .commitApply s = .next t ∧ t.mb = s.mb ∧ t.hub.srv.staging = s.hub.srv.staging ∧ t.hub.get Obj.commitState = 0 ∧
        field (t.hub.get Obj.lastCommit) 112 16 = Abort.busy ∧
        ∀ k, k ∉ [Obj.commitState, Obj.commitId, Obj.commitCue, Obj.lastCommit, Obj.cbLost] → t.hub.get k = s.hub.get k) ∧
    (∀ (q : ReqHead) (id : Fin 65536) (w : Fin 79228162514264337593543950336),
      let h := arrived q s
      let said (t : State) (phase : Nat) (r : CommitReply × Hub) : Prop := t.mb = s.mb ∧
        t.hub = r.2.answer (headed q (commitReq phase id w)) (.data (r.1.bytes phase id))
      let armed (t : State) (st : Nat) : Prop := t.hub.get Obj.commitState = st ∧ t.hub.get Obj.commitId = id.val ∧
        (w.val ≠ 0 → t.hub.get Obj.commitCue = w.val)
      (Reaches q (commitReq 1 id w) s → ∃ t, exec (.commitPrepare q id w) s = .next t ∧ said t 1 (h.prepare false id w) ∧
        ((h.prepare false id w).1.result = 0 → armed t 1)) ∧
      (Reaches q (commitReq 2 id w) s → ∃ t, exec (.commitConfirm q id w) s = .next t ∧ said t 2 (h.confirm id w) ∧
        (s.hub.get Obj.commitState = 1 → (h.confirm id w).1.result = 0 → armed t 2)) ∧
      (Reaches q (commitReq 3 id w) s → ∃ t, exec (.commitPrepareConfirm q id w) s = .next t ∧ said t 3 (h.prepare true id w) ∧
        ((h.prepare true id w).1.result = 0 → armed t 2)) ∧
      (let r := rowReq 9 0 0 0 false 4 ([1, 0] ++ toBytes 2 id)
       Reaches q r s → ∃ t, exec (.abortCommit q id) s = .next t ∧ t.mb = s.mb ∧
        (let e := h.abortCommit id (h.originOf q.src)
         t.hub = e.2.answer (headed q r) (replyOf e.1)) ∧
        (s.hub.commitPending = true → s.hub.get Obj.commitId = id.val → t.hub.get Obj.commitState = 0 ∧
          field (t.hub.get Obj.lastCommit) 112 16 = Abort.commitCancelled))) ∧
    (s.hub.get Obj.commitState = 1 → ∃ t, exec .commitExpire s = .next t ∧ t.mb = s.mb ∧ t.hub.srv.staging = s.hub.srv.staging ∧
      t.hub.get Obj.commitState = 0 ∧ field (t.hub.get Obj.lastCommit) 112 16 = 0x0E16 ∧
      ∀ k, k ∉ [Obj.commitState, Obj.commitId, Obj.commitCue, Obj.lastCommit, Obj.cbLost] → t.hub.get k = s.hub.get k)

/-- The mirror port and the memories (R325, R444, R455, R460, R462, R469, R473): a read of an item's first word holds the item, whose
other words then come from what is held; any other read is counted as torn; a write reaches the mailbox or is ignored; DOORBELL
submits a request or is rejected; the port follows a hand-over; the scrubbers count, mark and report, a pass at the end of its period; and GR_COUNTERS_CLEAR clears
what R467 names.
Completion of DOORBELL and GR_COUNTERS_CLEAR.
(Model's choices within it: log 76, log 138, log 139, log 142.) -/
def Obligations.MirrorAndMemories : Prop :=
  ∀ (dt : Nat) (s : State), s.mb.up = true →
    let h := ({ s.hub with out := [] }).waitTicks dt
    let said (x : Nat) : List Out := if s.hub.flag Obj.mirEnable then [.mirror x] else []
    (∀ a : Fin 32768, s.hub.mir.switch = none →
      (∀ first n v, itemAt s.mb h a = some (first, n, v) →
        let ws := itemWords n v
        (a.val = first → ∃ t, exec (.mirrorRead a dt) s = .next t ∧ t.mb = s.mb ∧ t.hub.mir.held = some (first, ws) ∧
          t.hub.out = said (ws.getD 0 0) ∧ t.hub.get Obj.mirReads = (s.hub.get Obj.mirReads + 1) % 2 ^ 64 ∧
          (first = 2 → t.hub.mir.torn = false ∧ t.hub.mir.seen = false) ∧
          ∀ k, k ≠ Obj.mirReads → t.hub.get k = s.hub.get k) ∧
        (∀ held, a.val ≠ first → s.hub.mir.held = some (first, held) → ∃ t, exec (.mirrorRead a dt) s = .next t ∧ t.mb = s.mb ∧
          t.hub.mir = s.hub.mir ∧ t.hub.out = said (held.getD (a - first) 0) ∧
          ∀ k, k ≠ Obj.mirReads → t.hub.get k = s.hub.get k) ∧
        (a.val ≠ first → (∀ held, s.hub.mir.held ≠ some (first, held)) → ∃ t, exec (.mirrorRead a dt) s = .next t ∧ t.mb = s.mb ∧
          t.hub.mir.torn = true ∧ t.hub.mir.held = s.hub.mir.held ∧
          t.hub.get Obj.mirTornCount = (s.hub.get Obj.mirTornCount + 1) % 2 ^ 32 ∧
          (s.hub.flag Obj.mirEnable = true → .mirror (ws.getD (a - first) 0) ∈ t.hub.out))) ∧
      (itemAt s.mb h a = none → ∃ t, exec (.mirrorRead a dt) s = .next t ∧ t.mb = s.mb ∧ t.hub.mir = s.hub.mir ∧
        t.hub.out = said (if 0x200 ≤ a.val ∧ a.val < 0x400 ∧ s.hub.flag Obj.mailboxEnable = true then s.hub.mir.mbox.word (a - 0x200)
          else 0))) ∧
    (∀ (a : Fin 32768) (v : Fin 65536) (nvm : Bool),
      (s.hub.flag Obj.mailboxEnable = true → 0x200 ≤ a.val → a.val < 0x221 → ∃ t, exec (.mirrorWrite a v dt nvm) s = .next t ∧
        t.mb = s.mb ∧ t.hub.objs = s.hub.objs ∧ t.hub.out = [] ∧
        ∀ i, i < 33 → vget t.hub.mir.mbox.req i = if i + 0x200 = a.val then v.val else vget s.hub.mir.mbox.req i) ∧
      (s.hub.flag Obj.mailboxEnable = false ∨ a.val < 0x200 ∨ 0x221 < a.val → ∃ t, exec (.mirrorWrite a v dt nvm) s = .next t ∧
        t.mb = s.mb ∧ t.hub.mir = s.hub.mir ∧ t.hub.get Obj.mirWriteIgnored = (s.hub.get Obj.mirWriteIgnored + 1) % 2 ^ 32 ∧
        ∀ k, k ≠ Obj.mirWriteIgnored → t.hub.get k = s.hub.get k)) ∧
    (∀ (v : Fin 65536) (nvm : Bool), s.hub.flag Obj.mailboxEnable = true →
      let rejects (t : State) : Prop := t.mb = s.mb ∧ t.hub.objs = s.hub.objs ∧ t.hub.out = [] ∧
        t.hub.mir.mbox = { s.hub.mir.mbox with rejected := true }
      let empty (t : State) : Prop := t.mb = s.mb ∧ t.hub.objs = s.hub.objs ∧ t.hub.mir.mbox.busy = false ∧
        t.hub.mir.mbox.respSeq = v.val ∧ t.hub.mir.mbox.respCount = 0
      (s.hub.mir.mbox.busy = true → (∃ t, exec (.doorbell v dt nvm) s = .next t ∧ rejects t) ∧
        ∃ t, exec (.mirrorWrite 0x221 v dt nvm) s = .next t ∧ rejects t) ∧
      (s.hub.mir.mbox.busy = false → v.val ≠ 0 → v.val ≠ s.hub.mir.mbox.doorbell →
        let g := h.modMir (fun r => { r with mbox := { r.mbox with doorbell := v, busy := true, rejected := false } })
        (∀ q, parsePdu .mailbox nvm s.hub.mir.mbox.pdu = some q → s.hub.serverAway = false → quiet s.mb g q s.pending.head? = true →
          exec (.doorbell v dt nvm) s = .next { s with mb := (handle s.mb g q).1, hub := (handle s.mb g q).2 } ∧
          exec (.mirrorWrite 0x221 v dt nvm) s = .next { s with mb := (handle s.mb g q).1, hub := (handle s.mb g q).2 }) ∧
        (parsePdu .mailbox nvm s.hub.mir.mbox.pdu = none → (∃ t, exec (.doorbell v dt nvm) s = .next t ∧ empty t) ∧
          ∃ t, exec (.mirrorWrite 0x221 v dt nvm) s = .next t ∧ empty t))) ∧
    (∀ (a : Fin 32768) (d : Fin 250) (u : Nat), s.hub.mir.switch = some u →
      (∃ t, exec (.mirrorPortHandover d true a) s = .next t ∧ t.mb = s.mb ∧ t.hub.objs = s.hub.objs ∧ t.hub.out = [] ∧
        t.hub.mir = { s.hub.mir with lead := s.hub.leadDie, switch := none, held := none }) ∧
      (∃ t, exec (.mirrorPortHandover d false a) s = .next t ∧ t.mb = s.mb ∧ t.hub.mir.lead = s.hub.leadDie ∧
        t.hub.mir.held = none ∧ t.hub.mir.torn = true ∧
        (s.hub.flag Obj.mirEnable = true → ∃ x, x < 65536 ∧ .mirror x ∈ t.hub.out))) ∧
    (∀ x : Fin 2,
      (∀ (b : Fin 8) (bs : List (Fin 8)), s.hub.die (4 + x) = 3 → ∃ t, exec (.grScrub x dt (b :: bs) [] true) s = .next t ∧ t.mb = s.mb ∧
        t.hub.get (Obj.hdGrEccCorrected x) = (s.hub.get (Obj.hdGrEccCorrected x) + bs.length + 1) % 2 ^ 32 ∧
        t.hub.get (Obj.bankEccCorrected x b) = (s.hub.get (Obj.bankEccCorrected x b) + bs.count b + 1) % 2 ^ 32 ∧
        (∀ i : Fin 8, i ∉ b :: bs → t.hub.get (Obj.bankEccCorrected x i) = s.hub.get (Obj.bankEccCorrected x i)) ∧
        t.hub.get (Obj.scrubPasses x) = (s.hub.get (Obj.scrubPasses x) + 1) % 2 ^ 32 ∧ t.hub.out = [] ∧
        t.hub.time.ticks = max s.hub.time.ticks (vget s.hub.mir.grFrom x + s.hub.get Obj.grScrubPeriod * tSec)) ∧
      (∀ a, s.hub.die (4 + x) = 3 → s.hub.role x = 4 → ∃ t, exec (.grScrub x dt [] [a] false) s = .next t ∧ t.mb = s.mb ∧
        t.hub.get (Obj.hdGrEccUncorrected x) = (s.hub.get (Obj.hdGrEccUncorrected x) + 1) % 2 ^ 32) ∧
      (∀ n, s.hub.die (6 + x) = 3 → ∃ t, exec (.mdScrub x dt n [] true) s = .next t ∧ t.mb = s.mb ∧
        t.hub.get (Obj.hdMdEccCorrected x) = (s.hub.get (Obj.hdMdEccCorrected x) + n) % 2 ^ 32 ∧
        t.hub.get (Obj.mdScrubPasses x) = (s.hub.get (Obj.mdScrubPasses x) + 1) % 2 ^ 32 ∧
        t.hub.get (Obj.mdLastScrub x) = t.hub.stamp ∧ t.hub.out = [] ∧
        t.hub.time.ticks = max s.hub.time.ticks (vget s.hub.mir.mdFrom x + s.hub.get Obj.mdScrubPeriod * 3600 * tSec)) ∧
      (∀ (e : MdError) (slot : Nat) (r : CapRow), s.hub.die (6 + x) = 3 → e.addr.val < 0xF0000000 →
        s.hub.slotAt e.addr = some slot → (vget s.hub.slots slot).rows[e.place]? = some r → ∃ t, exec (.mdScrub x dt 0 [e] false) s = .next t ∧ t.mb = s.mb ∧
        t.hub.get (Obj.hdMdEccUncorrected x) = (s.hub.get (Obj.hdMdEccUncorrected x) + 1) % 2 ^ 32 ∧
        (vget t.hub.slots slot).rows[e.place]? =
          some (if x.val = 0 then { r with miss0 := 15 } else { r with miss1 := 15 }))) ∧
    (∀ q, Granted q Obj.grCountersClear 1 1 actGrClear s → ∃ t, exec (.grCountersClear q) s = .next t ∧ t.mb = s.mb ∧
      ∀ x, x < 2 → t.hub.get (Obj.rotateSplits x) = 0 ∧ ∀ i, i < 7 → t.hub.get (Obj.conflicts x i) = 0)
end

