-- ==== Sys2Proof/Laws/State.lean ====
section
/-! SUPPORT. What each update of the hub leaves unchanged, field by field, and what a read of the object store gives after each. -/
namespace Sys2Proof.Machine

/-! ### `put` -/

@[simp] theorem Hub.put_part (h : Hub) (k v : Nat) : (h.put k v).part = h.part := rfl
@[simp] theorem Hub.put_time (h : Hub) (k v : Nat) : (h.put k v).time = h.time := rfl
@[simp] theorem Hub.put_cb (h : Hub) (k v : Nat) : (h.put k v).cb = h.cb := rfl
@[simp] theorem Hub.put_lanes (h : Hub) (k v : Nat) : (h.put k v).lanes = h.lanes := rfl
@[simp] theorem Hub.put_eths (h : Hub) (k v : Nat) : (h.put k v).eths = h.eths := rfl
@[simp] theorem Hub.put_ins (h : Hub) (k v : Nat) : (h.put k v).ins = h.ins := rfl
@[simp] theorem Hub.put_drvs (h : Hub) (k v : Nat) : (h.put k v).drvs = h.drvs := rfl
@[simp] theorem Hub.put_cores (h : Hub) (k v : Nat) : (h.put k v).cores = h.cores := rfl
@[simp] theorem Hub.put_fes (h : Hub) (k v : Nat) : (h.put k v).fes = h.fes := rfl
@[simp] theorem Hub.put_align (h : Hub) (k v : Nat) : (h.put k v).align = h.align := rfl
@[simp] theorem Hub.put_relIdx (h : Hub) (k v : Nat) : (h.put k v).relIdx = h.relIdx := rfl
@[simp] theorem Hub.put_chains (h : Hub) (k v : Nat) : (h.put k v).chains = h.chains := rfl
@[simp] theorem Hub.put_outs (h : Hub) (k v : Nat) : (h.put k v).outs = h.outs := rfl
@[simp] theorem Hub.put_loopOuts (h : Hub) (k v : Nat) : (h.put k v).loopOuts = h.loopOuts := rfl
@[simp] theorem Hub.put_injOuts (h : Hub) (k v : Nat) : (h.put k v).injOuts = h.injOuts := rfl
@[simp] theorem Hub.put_dets (h : Hub) (k v : Nat) : (h.put k v).dets = h.dets := rfl
@[simp] theorem Hub.put_cal (h : Hub) (k v : Nat) : (h.put k v).cal = h.cal := rfl
@[simp] theorem Hub.put_eng (h : Hub) (k v : Nat) : (h.put k v).eng = h.eng := rfl
@[simp] theorem Hub.put_strings (h : Hub) (k v : Nat) : (h.put k v).strings = h.strings := rfl
@[simp] theorem Hub.put_pats (h : Hub) (k v : Nat) : (h.put k v).pats = h.pats := rfl
@[simp] theorem Hub.put_trig (h : Hub) (k v : Nat) : (h.put k v).trig = h.trig := rfl
@[simp] theorem Hub.put_streams (h : Hub) (k v : Nat) : (h.put k v).streams = h.streams := rfl
@[simp] theorem Hub.put_queues (h : Hub) (k v : Nat) : (h.put k v).queues = h.queues := rfl
@[simp] theorem Hub.put_fwds (h : Hub) (k v : Nat) : (h.put k v).fwds = h.fwds := rfl
@[simp] theorem Hub.put_wins (h : Hub) (k v : Nat) : (h.put k v).wins = h.wins := rfl
@[simp] theorem Hub.put_lost (h : Hub) (k v : Nat) : (h.put k v).lost = h.lost := rfl
@[simp] theorem Hub.put_gaps (h : Hub) (k v : Nat) : (h.put k v).gaps = h.gaps := rfl
@[simp] theorem Hub.put_recMoves (h : Hub) (k v : Nat) : (h.put k v).recMoves = h.recMoves := rfl
@[simp] theorem Hub.put_undeclared (h : Hub) (k v : Nat) : (h.put k v).undeclared = h.undeclared := rfl
@[simp] theorem Hub.put_divergeLog (h : Hub) (k v : Nat) : (h.put k v).divergeLog = h.divergeLog := rfl
@[simp] theorem Hub.put_slots (h : Hub) (k v : Nat) : (h.put k v).slots = h.slots := rfl
@[simp] theorem Hub.put_capFull0 (h : Hub) (k v : Nat) : (h.put k v).capFull0 = h.capFull0 := rfl
@[simp] theorem Hub.put_capFull1 (h : Hub) (k v : Nat) : (h.put k v).capFull1 = h.capFull1 := rfl
@[simp] theorem Hub.put_red (h : Hub) (k v : Nat) : (h.put k v).red = h.red := rfl
@[simp] theorem Hub.put_mir (h : Hub) (k v : Nat) : (h.put k v).mir = h.mir := rfl
@[simp] theorem Hub.put_pow (h : Hub) (k v : Nat) : (h.put k v).pow = h.pow := rfl
@[simp] theorem Hub.put_srv (h : Hub) (k v : Nat) : (h.put k v).srv = h.srv := rfl
@[simp] theorem Hub.put_out (h : Hub) (k v : Nat) : (h.put k v).out = h.out := rfl
@[simp] theorem Hub.put_free (h : Hub) (k v : Nat) : (h.put k v).free = h.free := rfl

/-! ### `waitTicks` -/

@[simp] theorem Hub.waitTicks_part (h : Hub) (n : Nat) : (h.waitTicks n).part = h.part := rfl
@[simp] theorem Hub.waitTicks_objs (h : Hub) (n : Nat) : (h.waitTicks n).objs = h.objs := rfl
@[simp] theorem Hub.waitTicks_cb (h : Hub) (n : Nat) : (h.waitTicks n).cb = h.cb := rfl
@[simp] theorem Hub.waitTicks_lanes (h : Hub) (n : Nat) : (h.waitTicks n).lanes = h.lanes := rfl
@[simp] theorem Hub.waitTicks_eths (h : Hub) (n : Nat) : (h.waitTicks n).eths = h.eths := rfl
@[simp] theorem Hub.waitTicks_ins (h : Hub) (n : Nat) : (h.waitTicks n).ins = h.ins := rfl
@[simp] theorem Hub.waitTicks_drvs (h : Hub) (n : Nat) : (h.waitTicks n).drvs = h.drvs := rfl
@[simp] theorem Hub.waitTicks_cores (h : Hub) (n : Nat) : (h.waitTicks n).cores = h.cores := rfl
@[simp] theorem Hub.waitTicks_fes (h : Hub) (n : Nat) : (h.waitTicks n).fes = h.fes := rfl
@[simp] theorem Hub.waitTicks_align (h : Hub) (n : Nat) : (h.waitTicks n).align = h.align := rfl
@[simp] theorem Hub.waitTicks_relIdx (h : Hub) (n : Nat) : (h.waitTicks n).relIdx = h.relIdx := rfl
@[simp] theorem Hub.waitTicks_chains (h : Hub) (n : Nat) : (h.waitTicks n).chains = h.chains := rfl
@[simp] theorem Hub.waitTicks_outs (h : Hub) (n : Nat) : (h.waitTicks n).outs = h.outs := rfl
@[simp] theorem Hub.waitTicks_loopOuts (h : Hub) (n : Nat) : (h.waitTicks n).loopOuts = h.loopOuts := rfl
@[simp] theorem Hub.waitTicks_injOuts (h : Hub) (n : Nat) : (h.waitTicks n).injOuts = h.injOuts := rfl
@[simp] theorem Hub.waitTicks_dets (h : Hub) (n : Nat) : (h.waitTicks n).dets = h.dets := rfl
@[simp] theorem Hub.waitTicks_cal (h : Hub) (n : Nat) : (h.waitTicks n).cal = h.cal := rfl
@[simp] theorem Hub.waitTicks_eng (h : Hub) (n : Nat) : (h.waitTicks n).eng = h.eng := rfl
@[simp] theorem Hub.waitTicks_strings (h : Hub) (n : Nat) : (h.waitTicks n).strings = h.strings := rfl
@[simp] theorem Hub.waitTicks_pats (h : Hub) (n : Nat) : (h.waitTicks n).pats = h.pats := rfl
@[simp] theorem Hub.waitTicks_trig (h : Hub) (n : Nat) : (h.waitTicks n).trig = h.trig := rfl
@[simp] theorem Hub.waitTicks_streams (h : Hub) (n : Nat) : (h.waitTicks n).streams = h.streams := rfl
@[simp] theorem Hub.waitTicks_queues (h : Hub) (n : Nat) : (h.waitTicks n).queues = h.queues := rfl
@[simp] theorem Hub.waitTicks_fwds (h : Hub) (n : Nat) : (h.waitTicks n).fwds = h.fwds := rfl
@[simp] theorem Hub.waitTicks_wins (h : Hub) (n : Nat) : (h.waitTicks n).wins = h.wins := rfl
@[simp] theorem Hub.waitTicks_lost (h : Hub) (n : Nat) : (h.waitTicks n).lost = h.lost := rfl
@[simp] theorem Hub.waitTicks_gaps (h : Hub) (n : Nat) : (h.waitTicks n).gaps = h.gaps := rfl
@[simp] theorem Hub.waitTicks_recMoves (h : Hub) (n : Nat) : (h.waitTicks n).recMoves = h.recMoves := rfl
@[simp] theorem Hub.waitTicks_undeclared (h : Hub) (n : Nat) : (h.waitTicks n).undeclared = h.undeclared := rfl
@[simp] theorem Hub.waitTicks_divergeLog (h : Hub) (n : Nat) : (h.waitTicks n).divergeLog = h.divergeLog := rfl
@[simp] theorem Hub.waitTicks_slots (h : Hub) (n : Nat) : (h.waitTicks n).slots = h.slots := rfl
@[simp] theorem Hub.waitTicks_capFull0 (h : Hub) (n : Nat) : (h.waitTicks n).capFull0 = h.capFull0 := rfl
@[simp] theorem Hub.waitTicks_capFull1 (h : Hub) (n : Nat) : (h.waitTicks n).capFull1 = h.capFull1 := rfl
@[simp] theorem Hub.waitTicks_red (h : Hub) (n : Nat) : (h.waitTicks n).red = h.red := rfl
@[simp] theorem Hub.waitTicks_mir (h : Hub) (n : Nat) : (h.waitTicks n).mir = h.mir := rfl
@[simp] theorem Hub.waitTicks_pow (h : Hub) (n : Nat) : (h.waitTicks n).pow = h.pow := rfl
@[simp] theorem Hub.waitTicks_srv (h : Hub) (n : Nat) : (h.waitTicks n).srv = h.srv := rfl
@[simp] theorem Hub.waitTicks_out (h : Hub) (n : Nat) : (h.waitTicks n).out = h.out := rfl
@[simp] theorem Hub.waitTicks_free (h : Hub) (n : Nat) : (h.waitTicks n).free = h.free := rfl
@[simp] theorem Hub.waitTicks_get (h : Hub) (n : Nat) (key : Nat) : (h.waitTicks n).get key = h.get key := rfl

/-! ### `emit` -/

@[simp] theorem Hub.emit_part (h : Hub) (o : Out) : (h.emit o).part = h.part := rfl
@[simp] theorem Hub.emit_objs (h : Hub) (o : Out) : (h.emit o).objs = h.objs := rfl
@[simp] theorem Hub.emit_time (h : Hub) (o : Out) : (h.emit o).time = h.time := rfl
@[simp] theorem Hub.emit_cb (h : Hub) (o : Out) : (h.emit o).cb = h.cb := rfl
@[simp] theorem Hub.emit_lanes (h : Hub) (o : Out) : (h.emit o).lanes = h.lanes := rfl
@[simp] theorem Hub.emit_eths (h : Hub) (o : Out) : (h.emit o).eths = h.eths := rfl
@[simp] theorem Hub.emit_ins (h : Hub) (o : Out) : (h.emit o).ins = h.ins := rfl
@[simp] theorem Hub.emit_drvs (h : Hub) (o : Out) : (h.emit o).drvs = h.drvs := rfl
@[simp] theorem Hub.emit_cores (h : Hub) (o : Out) : (h.emit o).cores = h.cores := rfl
@[simp] theorem Hub.emit_fes (h : Hub) (o : Out) : (h.emit o).fes = h.fes := rfl
@[simp] theorem Hub.emit_align (h : Hub) (o : Out) : (h.emit o).align = h.align := rfl
@[simp] theorem Hub.emit_relIdx (h : Hub) (o : Out) : (h.emit o).relIdx = h.relIdx := rfl
@[simp] theorem Hub.emit_chains (h : Hub) (o : Out) : (h.emit o).chains = h.chains := rfl
@[simp] theorem Hub.emit_outs (h : Hub) (o : Out) : (h.emit o).outs = h.outs := rfl
@[simp] theorem Hub.emit_loopOuts (h : Hub) (o : Out) : (h.emit o).loopOuts = h.loopOuts := rfl
@[simp] theorem Hub.emit_injOuts (h : Hub) (o : Out) : (h.emit o).injOuts = h.injOuts := rfl
@[simp] theorem Hub.emit_dets (h : Hub) (o : Out) : (h.emit o).dets = h.dets := rfl
@[simp] theorem Hub.emit_cal (h : Hub) (o : Out) : (h.emit o).cal = h.cal := rfl
@[simp] theorem Hub.emit_eng (h : Hub) (o : Out) : (h.emit o).eng = h.eng := rfl
@[simp] theorem Hub.emit_strings (h : Hub) (o : Out) : (h.emit o).strings = h.strings := rfl
@[simp] theorem Hub.emit_pats (h : Hub) (o : Out) : (h.emit o).pats = h.pats := rfl
@[simp] theorem Hub.emit_trig (h : Hub) (o : Out) : (h.emit o).trig = h.trig := rfl
@[simp] theorem Hub.emit_streams (h : Hub) (o : Out) : (h.emit o).streams = h.streams := rfl
@[simp] theorem Hub.emit_queues (h : Hub) (o : Out) : (h.emit o).queues = h.queues := rfl
@[simp] theorem Hub.emit_fwds (h : Hub) (o : Out) : (h.emit o).fwds = h.fwds := rfl
@[simp] theorem Hub.emit_wins (h : Hub) (o : Out) : (h.emit o).wins = h.wins := rfl
@[simp] theorem Hub.emit_lost (h : Hub) (o : Out) : (h.emit o).lost = h.lost := rfl
@[simp] theorem Hub.emit_gaps (h : Hub) (o : Out) : (h.emit o).gaps = h.gaps := rfl
@[simp] theorem Hub.emit_recMoves (h : Hub) (o : Out) : (h.emit o).recMoves = h.recMoves := rfl
@[simp] theorem Hub.emit_undeclared (h : Hub) (o : Out) : (h.emit o).undeclared = h.undeclared := rfl
@[simp] theorem Hub.emit_divergeLog (h : Hub) (o : Out) : (h.emit o).divergeLog = h.divergeLog := rfl
@[simp] theorem Hub.emit_slots (h : Hub) (o : Out) : (h.emit o).slots = h.slots := rfl
@[simp] theorem Hub.emit_capFull0 (h : Hub) (o : Out) : (h.emit o).capFull0 = h.capFull0 := rfl
@[simp] theorem Hub.emit_capFull1 (h : Hub) (o : Out) : (h.emit o).capFull1 = h.capFull1 := rfl
@[simp] theorem Hub.emit_red (h : Hub) (o : Out) : (h.emit o).red = h.red := rfl
@[simp] theorem Hub.emit_mir (h : Hub) (o : Out) : (h.emit o).mir = h.mir := rfl
@[simp] theorem Hub.emit_pow (h : Hub) (o : Out) : (h.emit o).pow = h.pow := rfl
@[simp] theorem Hub.emit_srv (h : Hub) (o : Out) : (h.emit o).srv = h.srv := rfl
@[simp] theorem Hub.emit_free (h : Hub) (o : Out) : (h.emit o).free = h.free := rfl
@[simp] theorem Hub.emit_get (h : Hub) (o : Out) (key : Nat) : (h.emit o).get key = h.get key := rfl

/-! ### `modCh` -/

@[simp] theorem Hub.modCh_part (h : Hub) (n : Nat) (f : InSt → InSt) : (h.modCh n f).part = h.part := rfl
@[simp] theorem Hub.modCh_objs (h : Hub) (n : Nat) (f : InSt → InSt) : (h.modCh n f).objs = h.objs := rfl
@[simp] theorem Hub.modCh_time (h : Hub) (n : Nat) (f : InSt → InSt) : (h.modCh n f).time = h.time := rfl
@[simp] theorem Hub.modCh_cb (h : Hub) (n : Nat) (f : InSt → InSt) : (h.modCh n f).cb = h.cb := rfl
@[simp] theorem Hub.modCh_lanes (h : Hub) (n : Nat) (f : InSt → InSt) : (h.modCh n f).lanes = h.lanes := rfl
@[simp] theorem Hub.modCh_eths (h : Hub) (n : Nat) (f : InSt → InSt) : (h.modCh n f).eths = h.eths := rfl
@[simp] theorem Hub.modCh_drvs (h : Hub) (n : Nat) (f : InSt → InSt) : (h.modCh n f).drvs = h.drvs := rfl
@[simp] theorem Hub.modCh_cores (h : Hub) (n : Nat) (f : InSt → InSt) : (h.modCh n f).cores = h.cores := rfl
@[simp] theorem Hub.modCh_fes (h : Hub) (n : Nat) (f : InSt → InSt) : (h.modCh n f).fes = h.fes := rfl
@[simp] theorem Hub.modCh_align (h : Hub) (n : Nat) (f : InSt → InSt) : (h.modCh n f).align = h.align := rfl
@[simp] theorem Hub.modCh_relIdx (h : Hub) (n : Nat) (f : InSt → InSt) : (h.modCh n f).relIdx = h.relIdx := rfl
@[simp] theorem Hub.modCh_chains (h : Hub) (n : Nat) (f : InSt → InSt) : (h.modCh n f).chains = h.chains := rfl
@[simp] theorem Hub.modCh_outs (h : Hub) (n : Nat) (f : InSt → InSt) : (h.modCh n f).outs = h.outs := rfl
@[simp] theorem Hub.modCh_loopOuts (h : Hub) (n : Nat) (f : InSt → InSt) : (h.modCh n f).loopOuts = h.loopOuts := rfl
@[simp] theorem Hub.modCh_injOuts (h : Hub) (n : Nat) (f : InSt → InSt) : (h.modCh n f).injOuts = h.injOuts := rfl
@[simp] theorem Hub.modCh_dets (h : Hub) (n : Nat) (f : InSt → InSt) : (h.modCh n f).dets = h.dets := rfl
@[simp] theorem Hub.modCh_cal (h : Hub) (n : Nat) (f : InSt → InSt) : (h.modCh n f).cal = h.cal := rfl
@[simp] theorem Hub.modCh_eng (h : Hub) (n : Nat) (f : InSt → InSt) : (h.modCh n f).eng = h.eng := rfl
@[simp] theorem Hub.modCh_strings (h : Hub) (n : Nat) (f : InSt → InSt) : (h.modCh n f).strings = h.strings := rfl
@[simp] theorem Hub.modCh_pats (h : Hub) (n : Nat) (f : InSt → InSt) : (h.modCh n f).pats = h.pats := rfl
@[simp] theorem Hub.modCh_trig (h : Hub) (n : Nat) (f : InSt → InSt) : (h.modCh n f).trig = h.trig := rfl
@[simp] theorem Hub.modCh_streams (h : Hub) (n : Nat) (f : InSt → InSt) : (h.modCh n f).streams = h.streams := rfl
@[simp] theorem Hub.modCh_queues (h : Hub) (n : Nat) (f : InSt → InSt) : (h.modCh n f).queues = h.queues := rfl
@[simp] theorem Hub.modCh_fwds (h : Hub) (n : Nat) (f : InSt → InSt) : (h.modCh n f).fwds = h.fwds := rfl
@[simp] theorem Hub.modCh_wins (h : Hub) (n : Nat) (f : InSt → InSt) : (h.modCh n f).wins = h.wins := rfl
@[simp] theorem Hub.modCh_lost (h : Hub) (n : Nat) (f : InSt → InSt) : (h.modCh n f).lost = h.lost := rfl
@[simp] theorem Hub.modCh_gaps (h : Hub) (n : Nat) (f : InSt → InSt) : (h.modCh n f).gaps = h.gaps := rfl
@[simp] theorem Hub.modCh_recMoves (h : Hub) (n : Nat) (f : InSt → InSt) : (h.modCh n f).recMoves = h.recMoves := rfl
@[simp] theorem Hub.modCh_undeclared (h : Hub) (n : Nat) (f : InSt → InSt) : (h.modCh n f).undeclared = h.undeclared := rfl
@[simp] theorem Hub.modCh_divergeLog (h : Hub) (n : Nat) (f : InSt → InSt) : (h.modCh n f).divergeLog = h.divergeLog := rfl
@[simp] theorem Hub.modCh_slots (h : Hub) (n : Nat) (f : InSt → InSt) : (h.modCh n f).slots = h.slots := rfl
@[simp] theorem Hub.modCh_capFull0 (h : Hub) (n : Nat) (f : InSt → InSt) : (h.modCh n f).capFull0 = h.capFull0 := rfl
@[simp] theorem Hub.modCh_capFull1 (h : Hub) (n : Nat) (f : InSt → InSt) : (h.modCh n f).capFull1 = h.capFull1 := rfl
@[simp] theorem Hub.modCh_red (h : Hub) (n : Nat) (f : InSt → InSt) : (h.modCh n f).red = h.red := rfl
@[simp] theorem Hub.modCh_mir (h : Hub) (n : Nat) (f : InSt → InSt) : (h.modCh n f).mir = h.mir := rfl
@[simp] theorem Hub.modCh_pow (h : Hub) (n : Nat) (f : InSt → InSt) : (h.modCh n f).pow = h.pow := rfl
@[simp] theorem Hub.modCh_srv (h : Hub) (n : Nat) (f : InSt → InSt) : (h.modCh n f).srv = h.srv := rfl
@[simp] theorem Hub.modCh_out (h : Hub) (n : Nat) (f : InSt → InSt) : (h.modCh n f).out = h.out := rfl
@[simp] theorem Hub.modCh_free (h : Hub) (n : Nat) (f : InSt → InSt) : (h.modCh n f).free = h.free := rfl
@[simp] theorem Hub.modCh_get (h : Hub) (n : Nat) (f : InSt → InSt) (key : Nat) : (h.modCh n f).get key = h.get key := rfl

/-! ### `modDrv` -/

@[simp] theorem Hub.modDrv_part (h : Hub) (d : Nat) (f : DrvSt → DrvSt) : (h.modDrv d f).part = h.part := rfl
@[simp] theorem Hub.modDrv_objs (h : Hub) (d : Nat) (f : DrvSt → DrvSt) : (h.modDrv d f).objs = h.objs := rfl
@[simp] theorem Hub.modDrv_time (h : Hub) (d : Nat) (f : DrvSt → DrvSt) : (h.modDrv d f).time = h.time := rfl
@[simp] theorem Hub.modDrv_cb (h : Hub) (d : Nat) (f : DrvSt → DrvSt) : (h.modDrv d f).cb = h.cb := rfl
@[simp] theorem Hub.modDrv_lanes (h : Hub) (d : Nat) (f : DrvSt → DrvSt) : (h.modDrv d f).lanes = h.lanes := rfl
@[simp] theorem Hub.modDrv_eths (h : Hub) (d : Nat) (f : DrvSt → DrvSt) : (h.modDrv d f).eths = h.eths := rfl
@[simp] theorem Hub.modDrv_ins (h : Hub) (d : Nat) (f : DrvSt → DrvSt) : (h.modDrv d f).ins = h.ins := rfl
@[simp] theorem Hub.modDrv_cores (h : Hub) (d : Nat) (f : DrvSt → DrvSt) : (h.modDrv d f).cores = h.cores := rfl
@[simp] theorem Hub.modDrv_fes (h : Hub) (d : Nat) (f : DrvSt → DrvSt) : (h.modDrv d f).fes = h.fes := rfl
@[simp] theorem Hub.modDrv_align (h : Hub) (d : Nat) (f : DrvSt → DrvSt) : (h.modDrv d f).align = h.align := rfl
@[simp] theorem Hub.modDrv_relIdx (h : Hub) (d : Nat) (f : DrvSt → DrvSt) : (h.modDrv d f).relIdx = h.relIdx := rfl
@[simp] theorem Hub.modDrv_chains (h : Hub) (d : Nat) (f : DrvSt → DrvSt) : (h.modDrv d f).chains = h.chains := rfl
@[simp] theorem Hub.modDrv_outs (h : Hub) (d : Nat) (f : DrvSt → DrvSt) : (h.modDrv d f).outs = h.outs := rfl
@[simp] theorem Hub.modDrv_loopOuts (h : Hub) (d : Nat) (f : DrvSt → DrvSt) : (h.modDrv d f).loopOuts = h.loopOuts := rfl
@[simp] theorem Hub.modDrv_injOuts (h : Hub) (d : Nat) (f : DrvSt → DrvSt) : (h.modDrv d f).injOuts = h.injOuts := rfl
@[simp] theorem Hub.modDrv_dets (h : Hub) (d : Nat) (f : DrvSt → DrvSt) : (h.modDrv d f).dets = h.dets := rfl
@[simp] theorem Hub.modDrv_cal (h : Hub) (d : Nat) (f : DrvSt → DrvSt) : (h.modDrv d f).cal = h.cal := rfl
@[simp] theorem Hub.modDrv_eng (h : Hub) (d : Nat) (f : DrvSt → DrvSt) : (h.modDrv d f).eng = h.eng := rfl
@[simp] theorem Hub.modDrv_strings (h : Hub) (d : Nat) (f : DrvSt → DrvSt) : (h.modDrv d f).strings = h.strings := rfl
@[simp] theorem Hub.modDrv_pats (h : Hub) (d : Nat) (f : DrvSt → DrvSt) : (h.modDrv d f).pats = h.pats := rfl
@[simp] theorem Hub.modDrv_trig (h : Hub) (d : Nat) (f : DrvSt → DrvSt) : (h.modDrv d f).trig = h.trig := rfl
@[simp] theorem Hub.modDrv_streams (h : Hub) (d : Nat) (f : DrvSt → DrvSt) : (h.modDrv d f).streams = h.streams := rfl
@[simp] theorem Hub.modDrv_queues (h : Hub) (d : Nat) (f : DrvSt → DrvSt) : (h.modDrv d f).queues = h.queues := rfl
@[simp] theorem Hub.modDrv_fwds (h : Hub) (d : Nat) (f : DrvSt → DrvSt) : (h.modDrv d f).fwds = h.fwds := rfl
@[simp] theorem Hub.modDrv_wins (h : Hub) (d : Nat) (f : DrvSt → DrvSt) : (h.modDrv d f).wins = h.wins := rfl
@[simp] theorem Hub.modDrv_lost (h : Hub) (d : Nat) (f : DrvSt → DrvSt) : (h.modDrv d f).lost = h.lost := rfl
@[simp] theorem Hub.modDrv_gaps (h : Hub) (d : Nat) (f : DrvSt → DrvSt) : (h.modDrv d f).gaps = h.gaps := rfl
@[simp] theorem Hub.modDrv_recMoves (h : Hub) (d : Nat) (f : DrvSt → DrvSt) : (h.modDrv d f).recMoves = h.recMoves := rfl
@[simp] theorem Hub.modDrv_undeclared (h : Hub) (d : Nat) (f : DrvSt → DrvSt) : (h.modDrv d f).undeclared = h.undeclared := rfl
@[simp] theorem Hub.modDrv_divergeLog (h : Hub) (d : Nat) (f : DrvSt → DrvSt) : (h.modDrv d f).divergeLog = h.divergeLog := rfl
@[simp] theorem Hub.modDrv_slots (h : Hub) (d : Nat) (f : DrvSt → DrvSt) : (h.modDrv d f).slots = h.slots := rfl
@[simp] theorem Hub.modDrv_capFull0 (h : Hub) (d : Nat) (f : DrvSt → DrvSt) : (h.modDrv d f).capFull0 = h.capFull0 := rfl
@[simp] theorem Hub.modDrv_capFull1 (h : Hub) (d : Nat) (f : DrvSt → DrvSt) : (h.modDrv d f).capFull1 = h.capFull1 := rfl
@[simp] theorem Hub.modDrv_red (h : Hub) (d : Nat) (f : DrvSt → DrvSt) : (h.modDrv d f).red = h.red := rfl
@[simp] theorem Hub.modDrv_mir (h : Hub) (d : Nat) (f : DrvSt → DrvSt) : (h.modDrv d f).mir = h.mir := rfl
@[simp] theorem Hub.modDrv_pow (h : Hub) (d : Nat) (f : DrvSt → DrvSt) : (h.modDrv d f).pow = h.pow := rfl
@[simp] theorem Hub.modDrv_srv (h : Hub) (d : Nat) (f : DrvSt → DrvSt) : (h.modDrv d f).srv = h.srv := rfl
@[simp] theorem Hub.modDrv_out (h : Hub) (d : Nat) (f : DrvSt → DrvSt) : (h.modDrv d f).out = h.out := rfl
@[simp] theorem Hub.modDrv_free (h : Hub) (d : Nat) (f : DrvSt → DrvSt) : (h.modDrv d f).free = h.free := rfl
@[simp] theorem Hub.modDrv_get (h : Hub) (d : Nat) (f : DrvSt → DrvSt) (key : Nat) : (h.modDrv d f).get key = h.get key := rfl

/-! ### `modCore` -/

@[simp] theorem Hub.modCore_part (h : Hub) (k : Nat) (f : CoreSt → CoreSt) : (h.modCore k f).part = h.part := rfl
@[simp] theorem Hub.modCore_objs (h : Hub) (k : Nat) (f : CoreSt → CoreSt) : (h.modCore k f).objs = h.objs := rfl
@[simp] theorem Hub.modCore_time (h : Hub) (k : Nat) (f : CoreSt → CoreSt) : (h.modCore k f).time = h.time := rfl
@[simp] theorem Hub.modCore_cb (h : Hub) (k : Nat) (f : CoreSt → CoreSt) : (h.modCore k f).cb = h.cb := rfl
@[simp] theorem Hub.modCore_lanes (h : Hub) (k : Nat) (f : CoreSt → CoreSt) : (h.modCore k f).lanes = h.lanes := rfl
@[simp] theorem Hub.modCore_eths (h : Hub) (k : Nat) (f : CoreSt → CoreSt) : (h.modCore k f).eths = h.eths := rfl
@[simp] theorem Hub.modCore_ins (h : Hub) (k : Nat) (f : CoreSt → CoreSt) : (h.modCore k f).ins = h.ins := rfl
@[simp] theorem Hub.modCore_drvs (h : Hub) (k : Nat) (f : CoreSt → CoreSt) : (h.modCore k f).drvs = h.drvs := rfl
@[simp] theorem Hub.modCore_fes (h : Hub) (k : Nat) (f : CoreSt → CoreSt) : (h.modCore k f).fes = h.fes := rfl
@[simp] theorem Hub.modCore_align (h : Hub) (k : Nat) (f : CoreSt → CoreSt) : (h.modCore k f).align = h.align := rfl
@[simp] theorem Hub.modCore_relIdx (h : Hub) (k : Nat) (f : CoreSt → CoreSt) : (h.modCore k f).relIdx = h.relIdx := rfl
@[simp] theorem Hub.modCore_chains (h : Hub) (k : Nat) (f : CoreSt → CoreSt) : (h.modCore k f).chains = h.chains := rfl
@[simp] theorem Hub.modCore_outs (h : Hub) (k : Nat) (f : CoreSt → CoreSt) : (h.modCore k f).outs = h.outs := rfl
@[simp] theorem Hub.modCore_loopOuts (h : Hub) (k : Nat) (f : CoreSt → CoreSt) : (h.modCore k f).loopOuts = h.loopOuts := rfl
@[simp] theorem Hub.modCore_injOuts (h : Hub) (k : Nat) (f : CoreSt → CoreSt) : (h.modCore k f).injOuts = h.injOuts := rfl
@[simp] theorem Hub.modCore_dets (h : Hub) (k : Nat) (f : CoreSt → CoreSt) : (h.modCore k f).dets = h.dets := rfl
@[simp] theorem Hub.modCore_cal (h : Hub) (k : Nat) (f : CoreSt → CoreSt) : (h.modCore k f).cal = h.cal := rfl
@[simp] theorem Hub.modCore_eng (h : Hub) (k : Nat) (f : CoreSt → CoreSt) : (h.modCore k f).eng = h.eng := rfl
@[simp] theorem Hub.modCore_strings (h : Hub) (k : Nat) (f : CoreSt → CoreSt) : (h.modCore k f).strings = h.strings := rfl
@[simp] theorem Hub.modCore_pats (h : Hub) (k : Nat) (f : CoreSt → CoreSt) : (h.modCore k f).pats = h.pats := rfl
@[simp] theorem Hub.modCore_trig (h : Hub) (k : Nat) (f : CoreSt → CoreSt) : (h.modCore k f).trig = h.trig := rfl
@[simp] theorem Hub.modCore_streams (h : Hub) (k : Nat) (f : CoreSt → CoreSt) : (h.modCore k f).streams = h.streams := rfl
@[simp] theorem Hub.modCore_queues (h : Hub) (k : Nat) (f : CoreSt → CoreSt) : (h.modCore k f).queues = h.queues := rfl
@[simp] theorem Hub.modCore_fwds (h : Hub) (k : Nat) (f : CoreSt → CoreSt) : (h.modCore k f).fwds = h.fwds := rfl
@[simp] theorem Hub.modCore_wins (h : Hub) (k : Nat) (f : CoreSt → CoreSt) : (h.modCore k f).wins = h.wins := rfl
@[simp] theorem Hub.modCore_lost (h : Hub) (k : Nat) (f : CoreSt → CoreSt) : (h.modCore k f).lost = h.lost := rfl
@[simp] theorem Hub.modCore_gaps (h : Hub) (k : Nat) (f : CoreSt → CoreSt) : (h.modCore k f).gaps = h.gaps := rfl
@[simp] theorem Hub.modCore_recMoves (h : Hub) (k : Nat) (f : CoreSt → CoreSt) : (h.modCore k f).recMoves = h.recMoves := rfl
@[simp] theorem Hub.modCore_undeclared (h : Hub) (k : Nat) (f : CoreSt → CoreSt) : (h.modCore k f).undeclared = h.undeclared := rfl
@[simp] theorem Hub.modCore_divergeLog (h : Hub) (k : Nat) (f : CoreSt → CoreSt) : (h.modCore k f).divergeLog = h.divergeLog := rfl
@[simp] theorem Hub.modCore_slots (h : Hub) (k : Nat) (f : CoreSt → CoreSt) : (h.modCore k f).slots = h.slots := rfl
@[simp] theorem Hub.modCore_capFull0 (h : Hub) (k : Nat) (f : CoreSt → CoreSt) : (h.modCore k f).capFull0 = h.capFull0 := rfl
@[simp] theorem Hub.modCore_capFull1 (h : Hub) (k : Nat) (f : CoreSt → CoreSt) : (h.modCore k f).capFull1 = h.capFull1 := rfl
@[simp] theorem Hub.modCore_red (h : Hub) (k : Nat) (f : CoreSt → CoreSt) : (h.modCore k f).red = h.red := rfl
@[simp] theorem Hub.modCore_mir (h : Hub) (k : Nat) (f : CoreSt → CoreSt) : (h.modCore k f).mir = h.mir := rfl
@[simp] theorem Hub.modCore_pow (h : Hub) (k : Nat) (f : CoreSt → CoreSt) : (h.modCore k f).pow = h.pow := rfl
@[simp] theorem Hub.modCore_srv (h : Hub) (k : Nat) (f : CoreSt → CoreSt) : (h.modCore k f).srv = h.srv := rfl
@[simp] theorem Hub.modCore_out (h : Hub) (k : Nat) (f : CoreSt → CoreSt) : (h.modCore k f).out = h.out := rfl
@[simp] theorem Hub.modCore_free (h : Hub) (k : Nat) (f : CoreSt → CoreSt) : (h.modCore k f).free = h.free := rfl
@[simp] theorem Hub.modCore_get (h : Hub) (k : Nat) (f : CoreSt → CoreSt) (key : Nat) : (h.modCore k f).get key = h.get key := rfl

/-! ### `modFe` -/

@[simp] theorem Hub.modFe_part (h : Hub) (i : Nat) (f : FeSt → FeSt) : (h.modFe i f).part = h.part := rfl
@[simp] theorem Hub.modFe_objs (h : Hub) (i : Nat) (f : FeSt → FeSt) : (h.modFe i f).objs = h.objs := rfl
@[simp] theorem Hub.modFe_time (h : Hub) (i : Nat) (f : FeSt → FeSt) : (h.modFe i f).time = h.time := rfl
@[simp] theorem Hub.modFe_cb (h : Hub) (i : Nat) (f : FeSt → FeSt) : (h.modFe i f).cb = h.cb := rfl
@[simp] theorem Hub.modFe_lanes (h : Hub) (i : Nat) (f : FeSt → FeSt) : (h.modFe i f).lanes = h.lanes := rfl
@[simp] theorem Hub.modFe_eths (h : Hub) (i : Nat) (f : FeSt → FeSt) : (h.modFe i f).eths = h.eths := rfl
@[simp] theorem Hub.modFe_ins (h : Hub) (i : Nat) (f : FeSt → FeSt) : (h.modFe i f).ins = h.ins := rfl
@[simp] theorem Hub.modFe_drvs (h : Hub) (i : Nat) (f : FeSt → FeSt) : (h.modFe i f).drvs = h.drvs := rfl
@[simp] theorem Hub.modFe_cores (h : Hub) (i : Nat) (f : FeSt → FeSt) : (h.modFe i f).cores = h.cores := rfl
@[simp] theorem Hub.modFe_align (h : Hub) (i : Nat) (f : FeSt → FeSt) : (h.modFe i f).align = h.align := rfl
@[simp] theorem Hub.modFe_relIdx (h : Hub) (i : Nat) (f : FeSt → FeSt) : (h.modFe i f).relIdx = h.relIdx := rfl
@[simp] theorem Hub.modFe_chains (h : Hub) (i : Nat) (f : FeSt → FeSt) : (h.modFe i f).chains = h.chains := rfl
@[simp] theorem Hub.modFe_outs (h : Hub) (i : Nat) (f : FeSt → FeSt) : (h.modFe i f).outs = h.outs := rfl
@[simp] theorem Hub.modFe_loopOuts (h : Hub) (i : Nat) (f : FeSt → FeSt) : (h.modFe i f).loopOuts = h.loopOuts := rfl
@[simp] theorem Hub.modFe_injOuts (h : Hub) (i : Nat) (f : FeSt → FeSt) : (h.modFe i f).injOuts = h.injOuts := rfl
@[simp] theorem Hub.modFe_dets (h : Hub) (i : Nat) (f : FeSt → FeSt) : (h.modFe i f).dets = h.dets := rfl
@[simp] theorem Hub.modFe_cal (h : Hub) (i : Nat) (f : FeSt → FeSt) : (h.modFe i f).cal = h.cal := rfl
@[simp] theorem Hub.modFe_eng (h : Hub) (i : Nat) (f : FeSt → FeSt) : (h.modFe i f).eng = h.eng := rfl
@[simp] theorem Hub.modFe_strings (h : Hub) (i : Nat) (f : FeSt → FeSt) : (h.modFe i f).strings = h.strings := rfl
@[simp] theorem Hub.modFe_pats (h : Hub) (i : Nat) (f : FeSt → FeSt) : (h.modFe i f).pats = h.pats := rfl
@[simp] theorem Hub.modFe_trig (h : Hub) (i : Nat) (f : FeSt → FeSt) : (h.modFe i f).trig = h.trig := rfl
@[simp] theorem Hub.modFe_streams (h : Hub) (i : Nat) (f : FeSt → FeSt) : (h.modFe i f).streams = h.streams := rfl
@[simp] theorem Hub.modFe_queues (h : Hub) (i : Nat) (f : FeSt → FeSt) : (h.modFe i f).queues = h.queues := rfl
@[simp] theorem Hub.modFe_fwds (h : Hub) (i : Nat) (f : FeSt → FeSt) : (h.modFe i f).fwds = h.fwds := rfl
@[simp] theorem Hub.modFe_wins (h : Hub) (i : Nat) (f : FeSt → FeSt) : (h.modFe i f).wins = h.wins := rfl
@[simp] theorem Hub.modFe_lost (h : Hub) (i : Nat) (f : FeSt → FeSt) : (h.modFe i f).lost = h.lost := rfl
@[simp] theorem Hub.modFe_gaps (h : Hub) (i : Nat) (f : FeSt → FeSt) : (h.modFe i f).gaps = h.gaps := rfl
@[simp] theorem Hub.modFe_recMoves (h : Hub) (i : Nat) (f : FeSt → FeSt) : (h.modFe i f).recMoves = h.recMoves := rfl
@[simp] theorem Hub.modFe_undeclared (h : Hub) (i : Nat) (f : FeSt → FeSt) : (h.modFe i f).undeclared = h.undeclared := rfl
@[simp] theorem Hub.modFe_divergeLog (h : Hub) (i : Nat) (f : FeSt → FeSt) : (h.modFe i f).divergeLog = h.divergeLog := rfl
@[simp] theorem Hub.modFe_slots (h : Hub) (i : Nat) (f : FeSt → FeSt) : (h.modFe i f).slots = h.slots := rfl
@[simp] theorem Hub.modFe_capFull0 (h : Hub) (i : Nat) (f : FeSt → FeSt) : (h.modFe i f).capFull0 = h.capFull0 := rfl
@[simp] theorem Hub.modFe_capFull1 (h : Hub) (i : Nat) (f : FeSt → FeSt) : (h.modFe i f).capFull1 = h.capFull1 := rfl
@[simp] theorem Hub.modFe_red (h : Hub) (i : Nat) (f : FeSt → FeSt) : (h.modFe i f).red = h.red := rfl
@[simp] theorem Hub.modFe_mir (h : Hub) (i : Nat) (f : FeSt → FeSt) : (h.modFe i f).mir = h.mir := rfl
@[simp] theorem Hub.modFe_pow (h : Hub) (i : Nat) (f : FeSt → FeSt) : (h.modFe i f).pow = h.pow := rfl
@[simp] theorem Hub.modFe_srv (h : Hub) (i : Nat) (f : FeSt → FeSt) : (h.modFe i f).srv = h.srv := rfl
@[simp] theorem Hub.modFe_out (h : Hub) (i : Nat) (f : FeSt → FeSt) : (h.modFe i f).out = h.out := rfl
@[simp] theorem Hub.modFe_free (h : Hub) (i : Nat) (f : FeSt → FeSt) : (h.modFe i f).free = h.free := rfl
@[simp] theorem Hub.modFe_get (h : Hub) (i : Nat) (f : FeSt → FeSt) (key : Nat) : (h.modFe i f).get key = h.get key := rfl

/-! ### `modCal` -/

@[simp] theorem Hub.modCal_part (h : Hub) (f : CalSt → CalSt) : (h.modCal f).part = h.part := rfl
@[simp] theorem Hub.modCal_objs (h : Hub) (f : CalSt → CalSt) : (h.modCal f).objs = h.objs := rfl
@[simp] theorem Hub.modCal_time (h : Hub) (f : CalSt → CalSt) : (h.modCal f).time = h.time := rfl
@[simp] theorem Hub.modCal_cb (h : Hub) (f : CalSt → CalSt) : (h.modCal f).cb = h.cb := rfl
@[simp] theorem Hub.modCal_lanes (h : Hub) (f : CalSt → CalSt) : (h.modCal f).lanes = h.lanes := rfl
@[simp] theorem Hub.modCal_eths (h : Hub) (f : CalSt → CalSt) : (h.modCal f).eths = h.eths := rfl
@[simp] theorem Hub.modCal_ins (h : Hub) (f : CalSt → CalSt) : (h.modCal f).ins = h.ins := rfl
@[simp] theorem Hub.modCal_drvs (h : Hub) (f : CalSt → CalSt) : (h.modCal f).drvs = h.drvs := rfl
@[simp] theorem Hub.modCal_cores (h : Hub) (f : CalSt → CalSt) : (h.modCal f).cores = h.cores := rfl
@[simp] theorem Hub.modCal_fes (h : Hub) (f : CalSt → CalSt) : (h.modCal f).fes = h.fes := rfl
@[simp] theorem Hub.modCal_align (h : Hub) (f : CalSt → CalSt) : (h.modCal f).align = h.align := rfl
@[simp] theorem Hub.modCal_relIdx (h : Hub) (f : CalSt → CalSt) : (h.modCal f).relIdx = h.relIdx := rfl
@[simp] theorem Hub.modCal_chains (h : Hub) (f : CalSt → CalSt) : (h.modCal f).chains = h.chains := rfl
@[simp] theorem Hub.modCal_outs (h : Hub) (f : CalSt → CalSt) : (h.modCal f).outs = h.outs := rfl
@[simp] theorem Hub.modCal_loopOuts (h : Hub) (f : CalSt → CalSt) : (h.modCal f).loopOuts = h.loopOuts := rfl
@[simp] theorem Hub.modCal_injOuts (h : Hub) (f : CalSt → CalSt) : (h.modCal f).injOuts = h.injOuts := rfl
@[simp] theorem Hub.modCal_dets (h : Hub) (f : CalSt → CalSt) : (h.modCal f).dets = h.dets := rfl
@[simp] theorem Hub.modCal_eng (h : Hub) (f : CalSt → CalSt) : (h.modCal f).eng = h.eng := rfl
@[simp] theorem Hub.modCal_strings (h : Hub) (f : CalSt → CalSt) : (h.modCal f).strings = h.strings := rfl
@[simp] theorem Hub.modCal_pats (h : Hub) (f : CalSt → CalSt) : (h.modCal f).pats = h.pats := rfl
@[simp] theorem Hub.modCal_trig (h : Hub) (f : CalSt → CalSt) : (h.modCal f).trig = h.trig := rfl
@[simp] theorem Hub.modCal_streams (h : Hub) (f : CalSt → CalSt) : (h.modCal f).streams = h.streams := rfl
@[simp] theorem Hub.modCal_queues (h : Hub) (f : CalSt → CalSt) : (h.modCal f).queues = h.queues := rfl
@[simp] theorem Hub.modCal_fwds (h : Hub) (f : CalSt → CalSt) : (h.modCal f).fwds = h.fwds := rfl
@[simp] theorem Hub.modCal_wins (h : Hub) (f : CalSt → CalSt) : (h.modCal f).wins = h.wins := rfl
@[simp] theorem Hub.modCal_lost (h : Hub) (f : CalSt → CalSt) : (h.modCal f).lost = h.lost := rfl
@[simp] theorem Hub.modCal_gaps (h : Hub) (f : CalSt → CalSt) : (h.modCal f).gaps = h.gaps := rfl
@[simp] theorem Hub.modCal_recMoves (h : Hub) (f : CalSt → CalSt) : (h.modCal f).recMoves = h.recMoves := rfl
@[simp] theorem Hub.modCal_undeclared (h : Hub) (f : CalSt → CalSt) : (h.modCal f).undeclared = h.undeclared := rfl
@[simp] theorem Hub.modCal_divergeLog (h : Hub) (f : CalSt → CalSt) : (h.modCal f).divergeLog = h.divergeLog := rfl
@[simp] theorem Hub.modCal_slots (h : Hub) (f : CalSt → CalSt) : (h.modCal f).slots = h.slots := rfl
@[simp] theorem Hub.modCal_capFull0 (h : Hub) (f : CalSt → CalSt) : (h.modCal f).capFull0 = h.capFull0 := rfl
@[simp] theorem Hub.modCal_capFull1 (h : Hub) (f : CalSt → CalSt) : (h.modCal f).capFull1 = h.capFull1 := rfl
@[simp] theorem Hub.modCal_red (h : Hub) (f : CalSt → CalSt) : (h.modCal f).red = h.red := rfl
@[simp] theorem Hub.modCal_mir (h : Hub) (f : CalSt → CalSt) : (h.modCal f).mir = h.mir := rfl
@[simp] theorem Hub.modCal_pow (h : Hub) (f : CalSt → CalSt) : (h.modCal f).pow = h.pow := rfl
@[simp] theorem Hub.modCal_srv (h : Hub) (f : CalSt → CalSt) : (h.modCal f).srv = h.srv := rfl
@[simp] theorem Hub.modCal_out (h : Hub) (f : CalSt → CalSt) : (h.modCal f).out = h.out := rfl
@[simp] theorem Hub.modCal_free (h : Hub) (f : CalSt → CalSt) : (h.modCal f).free = h.free := rfl
@[simp] theorem Hub.modCal_get (h : Hub) (f : CalSt → CalSt) (key : Nat) : (h.modCal f).get key = h.get key := rfl

/-! ### `modChain` -/

@[simp] theorem Hub.modChain_part (h : Hub) (n : Nat) (f : ChainSt → ChainSt) : (h.modChain n f).part = h.part := rfl
@[simp] theorem Hub.modChain_objs (h : Hub) (n : Nat) (f : ChainSt → ChainSt) : (h.modChain n f).objs = h.objs := rfl
@[simp] theorem Hub.modChain_time (h : Hub) (n : Nat) (f : ChainSt → ChainSt) : (h.modChain n f).time = h.time := rfl
@[simp] theorem Hub.modChain_cb (h : Hub) (n : Nat) (f : ChainSt → ChainSt) : (h.modChain n f).cb = h.cb := rfl
@[simp] theorem Hub.modChain_lanes (h : Hub) (n : Nat) (f : ChainSt → ChainSt) : (h.modChain n f).lanes = h.lanes := rfl
@[simp] theorem Hub.modChain_eths (h : Hub) (n : Nat) (f : ChainSt → ChainSt) : (h.modChain n f).eths = h.eths := rfl
@[simp] theorem Hub.modChain_ins (h : Hub) (n : Nat) (f : ChainSt → ChainSt) : (h.modChain n f).ins = h.ins := rfl
@[simp] theorem Hub.modChain_drvs (h : Hub) (n : Nat) (f : ChainSt → ChainSt) : (h.modChain n f).drvs = h.drvs := rfl
@[simp] theorem Hub.modChain_cores (h : Hub) (n : Nat) (f : ChainSt → ChainSt) : (h.modChain n f).cores = h.cores := rfl
@[simp] theorem Hub.modChain_fes (h : Hub) (n : Nat) (f : ChainSt → ChainSt) : (h.modChain n f).fes = h.fes := rfl
@[simp] theorem Hub.modChain_align (h : Hub) (n : Nat) (f : ChainSt → ChainSt) : (h.modChain n f).align = h.align := rfl
@[simp] theorem Hub.modChain_relIdx (h : Hub) (n : Nat) (f : ChainSt → ChainSt) : (h.modChain n f).relIdx = h.relIdx := rfl
@[simp] theorem Hub.modChain_outs (h : Hub) (n : Nat) (f : ChainSt → ChainSt) : (h.modChain n f).outs = h.outs := rfl
@[simp] theorem Hub.modChain_loopOuts (h : Hub) (n : Nat) (f : ChainSt → ChainSt) : (h.modChain n f).loopOuts = h.loopOuts := rfl
@[simp] theorem Hub.modChain_injOuts (h : Hub) (n : Nat) (f : ChainSt → ChainSt) : (h.modChain n f).injOuts = h.injOuts := rfl
@[simp] theorem Hub.modChain_dets (h : Hub) (n : Nat) (f : ChainSt → ChainSt) : (h.modChain n f).dets = h.dets := rfl
@[simp] theorem Hub.modChain_cal (h : Hub) (n : Nat) (f : ChainSt → ChainSt) : (h.modChain n f).cal = h.cal := rfl
@[simp] theorem Hub.modChain_eng (h : Hub) (n : Nat) (f : ChainSt → ChainSt) : (h.modChain n f).eng = h.eng := rfl
@[simp] theorem Hub.modChain_strings (h : Hub) (n : Nat) (f : ChainSt → ChainSt) : (h.modChain n f).strings = h.strings := rfl
@[simp] theorem Hub.modChain_pats (h : Hub) (n : Nat) (f : ChainSt → ChainSt) : (h.modChain n f).pats = h.pats := rfl
@[simp] theorem Hub.modChain_trig (h : Hub) (n : Nat) (f : ChainSt → ChainSt) : (h.modChain n f).trig = h.trig := rfl
@[simp] theorem Hub.modChain_streams (h : Hub) (n : Nat) (f : ChainSt → ChainSt) : (h.modChain n f).streams = h.streams := rfl
@[simp] theorem Hub.modChain_queues (h : Hub) (n : Nat) (f : ChainSt → ChainSt) : (h.modChain n f).queues = h.queues := rfl
@[simp] theorem Hub.modChain_fwds (h : Hub) (n : Nat) (f : ChainSt → ChainSt) : (h.modChain n f).fwds = h.fwds := rfl
@[simp] theorem Hub.modChain_wins (h : Hub) (n : Nat) (f : ChainSt → ChainSt) : (h.modChain n f).wins = h.wins := rfl
@[simp] theorem Hub.modChain_lost (h : Hub) (n : Nat) (f : ChainSt → ChainSt) : (h.modChain n f).lost = h.lost := rfl
@[simp] theorem Hub.modChain_gaps (h : Hub) (n : Nat) (f : ChainSt → ChainSt) : (h.modChain n f).gaps = h.gaps := rfl
@[simp] theorem Hub.modChain_recMoves (h : Hub) (n : Nat) (f : ChainSt → ChainSt) : (h.modChain n f).recMoves = h.recMoves := rfl
@[simp] theorem Hub.modChain_undeclared (h : Hub) (n : Nat) (f : ChainSt → ChainSt) : (h.modChain n f).undeclared = h.undeclared := rfl
@[simp] theorem Hub.modChain_divergeLog (h : Hub) (n : Nat) (f : ChainSt → ChainSt) : (h.modChain n f).divergeLog = h.divergeLog := rfl
@[simp] theorem Hub.modChain_slots (h : Hub) (n : Nat) (f : ChainSt → ChainSt) : (h.modChain n f).slots = h.slots := rfl
@[simp] theorem Hub.modChain_capFull0 (h : Hub) (n : Nat) (f : ChainSt → ChainSt) : (h.modChain n f).capFull0 = h.capFull0 := rfl
@[simp] theorem Hub.modChain_capFull1 (h : Hub) (n : Nat) (f : ChainSt → ChainSt) : (h.modChain n f).capFull1 = h.capFull1 := rfl
@[simp] theorem Hub.modChain_red (h : Hub) (n : Nat) (f : ChainSt → ChainSt) : (h.modChain n f).red = h.red := rfl
@[simp] theorem Hub.modChain_mir (h : Hub) (n : Nat) (f : ChainSt → ChainSt) : (h.modChain n f).mir = h.mir := rfl
@[simp] theorem Hub.modChain_pow (h : Hub) (n : Nat) (f : ChainSt → ChainSt) : (h.modChain n f).pow = h.pow := rfl
@[simp] theorem Hub.modChain_srv (h : Hub) (n : Nat) (f : ChainSt → ChainSt) : (h.modChain n f).srv = h.srv := rfl
@[simp] theorem Hub.modChain_out (h : Hub) (n : Nat) (f : ChainSt → ChainSt) : (h.modChain n f).out = h.out := rfl
@[simp] theorem Hub.modChain_free (h : Hub) (n : Nat) (f : ChainSt → ChainSt) : (h.modChain n f).free = h.free := rfl
@[simp] theorem Hub.modChain_get (h : Hub) (n : Nat) (f : ChainSt → ChainSt) (key : Nat) : (h.modChain n f).get key = h.get key := rfl

/-! ### `modDet` -/

@[simp] theorem Hub.modDet_part (h : Hub) (d : Nat) (f : DetSt → DetSt) : (h.modDet d f).part = h.part := rfl
@[simp] theorem Hub.modDet_objs (h : Hub) (d : Nat) (f : DetSt → DetSt) : (h.modDet d f).objs = h.objs := rfl
@[simp] theorem Hub.modDet_time (h : Hub) (d : Nat) (f : DetSt → DetSt) : (h.modDet d f).time = h.time := rfl
@[simp] theorem Hub.modDet_cb (h : Hub) (d : Nat) (f : DetSt → DetSt) : (h.modDet d f).cb = h.cb := rfl
@[simp] theorem Hub.modDet_lanes (h : Hub) (d : Nat) (f : DetSt → DetSt) : (h.modDet d f).lanes = h.lanes := rfl
@[simp] theorem Hub.modDet_eths (h : Hub) (d : Nat) (f : DetSt → DetSt) : (h.modDet d f).eths = h.eths := rfl
@[simp] theorem Hub.modDet_ins (h : Hub) (d : Nat) (f : DetSt → DetSt) : (h.modDet d f).ins = h.ins := rfl
@[simp] theorem Hub.modDet_drvs (h : Hub) (d : Nat) (f : DetSt → DetSt) : (h.modDet d f).drvs = h.drvs := rfl
@[simp] theorem Hub.modDet_cores (h : Hub) (d : Nat) (f : DetSt → DetSt) : (h.modDet d f).cores = h.cores := rfl
@[simp] theorem Hub.modDet_fes (h : Hub) (d : Nat) (f : DetSt → DetSt) : (h.modDet d f).fes = h.fes := rfl
@[simp] theorem Hub.modDet_align (h : Hub) (d : Nat) (f : DetSt → DetSt) : (h.modDet d f).align = h.align := rfl
@[simp] theorem Hub.modDet_relIdx (h : Hub) (d : Nat) (f : DetSt → DetSt) : (h.modDet d f).relIdx = h.relIdx := rfl
@[simp] theorem Hub.modDet_chains (h : Hub) (d : Nat) (f : DetSt → DetSt) : (h.modDet d f).chains = h.chains := rfl
@[simp] theorem Hub.modDet_outs (h : Hub) (d : Nat) (f : DetSt → DetSt) : (h.modDet d f).outs = h.outs := rfl
@[simp] theorem Hub.modDet_loopOuts (h : Hub) (d : Nat) (f : DetSt → DetSt) : (h.modDet d f).loopOuts = h.loopOuts := rfl
@[simp] theorem Hub.modDet_injOuts (h : Hub) (d : Nat) (f : DetSt → DetSt) : (h.modDet d f).injOuts = h.injOuts := rfl
@[simp] theorem Hub.modDet_cal (h : Hub) (d : Nat) (f : DetSt → DetSt) : (h.modDet d f).cal = h.cal := rfl
@[simp] theorem Hub.modDet_eng (h : Hub) (d : Nat) (f : DetSt → DetSt) : (h.modDet d f).eng = h.eng := rfl
@[simp] theorem Hub.modDet_strings (h : Hub) (d : Nat) (f : DetSt → DetSt) : (h.modDet d f).strings = h.strings := rfl
@[simp] theorem Hub.modDet_pats (h : Hub) (d : Nat) (f : DetSt → DetSt) : (h.modDet d f).pats = h.pats := rfl
@[simp] theorem Hub.modDet_trig (h : Hub) (d : Nat) (f : DetSt → DetSt) : (h.modDet d f).trig = h.trig := rfl
@[simp] theorem Hub.modDet_streams (h : Hub) (d : Nat) (f : DetSt → DetSt) : (h.modDet d f).streams = h.streams := rfl
@[simp] theorem Hub.modDet_queues (h : Hub) (d : Nat) (f : DetSt → DetSt) : (h.modDet d f).queues = h.queues := rfl
@[simp] theorem Hub.modDet_fwds (h : Hub) (d : Nat) (f : DetSt → DetSt) : (h.modDet d f).fwds = h.fwds := rfl
@[simp] theorem Hub.modDet_wins (h : Hub) (d : Nat) (f : DetSt → DetSt) : (h.modDet d f).wins = h.wins := rfl
@[simp] theorem Hub.modDet_lost (h : Hub) (d : Nat) (f : DetSt → DetSt) : (h.modDet d f).lost = h.lost := rfl
@[simp] theorem Hub.modDet_gaps (h : Hub) (d : Nat) (f : DetSt → DetSt) : (h.modDet d f).gaps = h.gaps := rfl
@[simp] theorem Hub.modDet_recMoves (h : Hub) (d : Nat) (f : DetSt → DetSt) : (h.modDet d f).recMoves = h.recMoves := rfl
@[simp] theorem Hub.modDet_undeclared (h : Hub) (d : Nat) (f : DetSt → DetSt) : (h.modDet d f).undeclared = h.undeclared := rfl
@[simp] theorem Hub.modDet_divergeLog (h : Hub) (d : Nat) (f : DetSt → DetSt) : (h.modDet d f).divergeLog = h.divergeLog := rfl
@[simp] theorem Hub.modDet_slots (h : Hub) (d : Nat) (f : DetSt → DetSt) : (h.modDet d f).slots = h.slots := rfl
@[simp] theorem Hub.modDet_capFull0 (h : Hub) (d : Nat) (f : DetSt → DetSt) : (h.modDet d f).capFull0 = h.capFull0 := rfl
@[simp] theorem Hub.modDet_capFull1 (h : Hub) (d : Nat) (f : DetSt → DetSt) : (h.modDet d f).capFull1 = h.capFull1 := rfl
@[simp] theorem Hub.modDet_red (h : Hub) (d : Nat) (f : DetSt → DetSt) : (h.modDet d f).red = h.red := rfl
@[simp] theorem Hub.modDet_mir (h : Hub) (d : Nat) (f : DetSt → DetSt) : (h.modDet d f).mir = h.mir := rfl
@[simp] theorem Hub.modDet_pow (h : Hub) (d : Nat) (f : DetSt → DetSt) : (h.modDet d f).pow = h.pow := rfl
@[simp] theorem Hub.modDet_srv (h : Hub) (d : Nat) (f : DetSt → DetSt) : (h.modDet d f).srv = h.srv := rfl
@[simp] theorem Hub.modDet_out (h : Hub) (d : Nat) (f : DetSt → DetSt) : (h.modDet d f).out = h.out := rfl
@[simp] theorem Hub.modDet_free (h : Hub) (d : Nat) (f : DetSt → DetSt) : (h.modDet d f).free = h.free := rfl
@[simp] theorem Hub.modDet_get (h : Hub) (d : Nat) (f : DetSt → DetSt) (key : Nat) : (h.modDet d f).get key = h.get key := rfl

/-! ### `modServo` -/

@[simp] theorem Hub.modServo_part (h : Hub) (b : Nat) (f : Servo → Servo) : (h.modServo b f).part = h.part := by unfold Hub.modServo; split <;> rfl
@[simp] theorem Hub.modServo_objs (h : Hub) (b : Nat) (f : Servo → Servo) : (h.modServo b f).objs = h.objs := by unfold Hub.modServo; split <;> rfl
@[simp] theorem Hub.modServo_cb (h : Hub) (b : Nat) (f : Servo → Servo) : (h.modServo b f).cb = h.cb := by unfold Hub.modServo; split <;> rfl
@[simp] theorem Hub.modServo_lanes (h : Hub) (b : Nat) (f : Servo → Servo) : (h.modServo b f).lanes = h.lanes := by unfold Hub.modServo; split <;> rfl
@[simp] theorem Hub.modServo_eths (h : Hub) (b : Nat) (f : Servo → Servo) : (h.modServo b f).eths = h.eths := by unfold Hub.modServo; split <;> rfl
@[simp] theorem Hub.modServo_ins (h : Hub) (b : Nat) (f : Servo → Servo) : (h.modServo b f).ins = h.ins := by unfold Hub.modServo; split <;> rfl
@[simp] theorem Hub.modServo_drvs (h : Hub) (b : Nat) (f : Servo → Servo) : (h.modServo b f).drvs = h.drvs := by unfold Hub.modServo; split <;> rfl
@[simp] theorem Hub.modServo_cores (h : Hub) (b : Nat) (f : Servo → Servo) : (h.modServo b f).cores = h.cores := by unfold Hub.modServo; split <;> rfl
@[simp] theorem Hub.modServo_fes (h : Hub) (b : Nat) (f : Servo → Servo) : (h.modServo b f).fes = h.fes := by unfold Hub.modServo; split <;> rfl
@[simp] theorem Hub.modServo_align (h : Hub) (b : Nat) (f : Servo → Servo) : (h.modServo b f).align = h.align := by unfold Hub.modServo; split <;> rfl
@[simp] theorem Hub.modServo_relIdx (h : Hub) (b : Nat) (f : Servo → Servo) : (h.modServo b f).relIdx = h.relIdx := by unfold Hub.modServo; split <;> rfl
@[simp] theorem Hub.modServo_chains (h : Hub) (b : Nat) (f : Servo → Servo) : (h.modServo b f).chains = h.chains := by unfold Hub.modServo; split <;> rfl
@[simp] theorem Hub.modServo_outs (h : Hub) (b : Nat) (f : Servo → Servo) : (h.modServo b f).outs = h.outs := by unfold Hub.modServo; split <;> rfl
@[simp] theorem Hub.modServo_loopOuts (h : Hub) (b : Nat) (f : Servo → Servo) : (h.modServo b f).loopOuts = h.loopOuts := by unfold Hub.modServo; split <;> rfl
@[simp] theorem Hub.modServo_injOuts (h : Hub) (b : Nat) (f : Servo → Servo) : (h.modServo b f).injOuts = h.injOuts := by unfold Hub.modServo; split <;> rfl
@[simp] theorem Hub.modServo_dets (h : Hub) (b : Nat) (f : Servo → Servo) : (h.modServo b f).dets = h.dets := by unfold Hub.modServo; split <;> rfl
@[simp] theorem Hub.modServo_cal (h : Hub) (b : Nat) (f : Servo → Servo) : (h.modServo b f).cal = h.cal := by unfold Hub.modServo; split <;> rfl
@[simp] theorem Hub.modServo_eng (h : Hub) (b : Nat) (f : Servo → Servo) : (h.modServo b f).eng = h.eng := by unfold Hub.modServo; split <;> rfl
@[simp] theorem Hub.modServo_strings (h : Hub) (b : Nat) (f : Servo → Servo) : (h.modServo b f).strings = h.strings := by unfold Hub.modServo; split <;> rfl
@[simp] theorem Hub.modServo_pats (h : Hub) (b : Nat) (f : Servo → Servo) : (h.modServo b f).pats = h.pats := by unfold Hub.modServo; split <;> rfl
@[simp] theorem Hub.modServo_trig (h : Hub) (b : Nat) (f : Servo → Servo) : (h.modServo b f).trig = h.trig := by unfold Hub.modServo; split <;> rfl
@[simp] theorem Hub.modServo_streams (h : Hub) (b : Nat) (f : Servo → Servo) : (h.modServo b f).streams = h.streams := by unfold Hub.modServo; split <;> rfl
@[simp] theorem Hub.modServo_queues (h : Hub) (b : Nat) (f : Servo → Servo) : (h.modServo b f).queues = h.queues := by unfold Hub.modServo; split <;> rfl
@[simp] theorem Hub.modServo_fwds (h : Hub) (b : Nat) (f : Servo → Servo) : (h.modServo b f).fwds = h.fwds := by unfold Hub.modServo; split <;> rfl
@[simp] theorem Hub.modServo_wins (h : Hub) (b : Nat) (f : Servo → Servo) : (h.modServo b f).wins = h.wins := by unfold Hub.modServo; split <;> rfl
@[simp] theorem Hub.modServo_lost (h : Hub) (b : Nat) (f : Servo → Servo) : (h.modServo b f).lost = h.lost := by unfold Hub.modServo; split <;> rfl
@[simp] theorem Hub.modServo_gaps (h : Hub) (b : Nat) (f : Servo → Servo) : (h.modServo b f).gaps = h.gaps := by unfold Hub.modServo; split <;> rfl
@[simp] theorem Hub.modServo_recMoves (h : Hub) (b : Nat) (f : Servo → Servo) : (h.modServo b f).recMoves = h.recMoves := by unfold Hub.modServo; split <;> rfl
@[simp] theorem Hub.modServo_undeclared (h : Hub) (b : Nat) (f : Servo → Servo) : (h.modServo b f).undeclared = h.undeclared := by unfold Hub.modServo; split <;> rfl
@[simp] theorem Hub.modServo_divergeLog (h : Hub) (b : Nat) (f : Servo → Servo) : (h.modServo b f).divergeLog = h.divergeLog := by unfold Hub.modServo; split <;> rfl
@[simp] theorem Hub.modServo_slots (h : Hub) (b : Nat) (f : Servo → Servo) : (h.modServo b f).slots = h.slots := by unfold Hub.modServo; split <;> rfl
@[simp] theorem Hub.modServo_capFull0 (h : Hub) (b : Nat) (f : Servo → Servo) : (h.modServo b f).capFull0 = h.capFull0 := by unfold Hub.modServo; split <;> rfl
@[simp] theorem Hub.modServo_capFull1 (h : Hub) (b : Nat) (f : Servo → Servo) : (h.modServo b f).capFull1 = h.capFull1 := by unfold Hub.modServo; split <;> rfl
@[simp] theorem Hub.modServo_red (h : Hub) (b : Nat) (f : Servo → Servo) : (h.modServo b f).red = h.red := by unfold Hub.modServo; split <;> rfl
@[simp] theorem Hub.modServo_mir (h : Hub) (b : Nat) (f : Servo → Servo) : (h.modServo b f).mir = h.mir := by unfold Hub.modServo; split <;> rfl
@[simp] theorem Hub.modServo_pow (h : Hub) (b : Nat) (f : Servo → Servo) : (h.modServo b f).pow = h.pow := by unfold Hub.modServo; split <;> rfl
@[simp] theorem Hub.modServo_srv (h : Hub) (b : Nat) (f : Servo → Servo) : (h.modServo b f).srv = h.srv := by unfold Hub.modServo; split <;> rfl
@[simp] theorem Hub.modServo_out (h : Hub) (b : Nat) (f : Servo → Servo) : (h.modServo b f).out = h.out := by unfold Hub.modServo; split <;> rfl
@[simp] theorem Hub.modServo_free (h : Hub) (b : Nat) (f : Servo → Servo) : (h.modServo b f).free = h.free := by unfold Hub.modServo; split <;> rfl
@[simp] theorem Hub.modServo_get (h : Hub) (b : Nat) (f : Servo → Servo) (key : Nat) : (h.modServo b f).get key = h.get key := by unfold Hub.modServo; split <;> rfl

/-! ### `modPins` -/

@[simp] theorem Hub.modPins_part (h : Hub) (f : PinsTime → PinsTime) : (h.modPins f).part = h.part := rfl
@[simp] theorem Hub.modPins_objs (h : Hub) (f : PinsTime → PinsTime) : (h.modPins f).objs = h.objs := rfl
@[simp] theorem Hub.modPins_cb (h : Hub) (f : PinsTime → PinsTime) : (h.modPins f).cb = h.cb := rfl
@[simp] theorem Hub.modPins_lanes (h : Hub) (f : PinsTime → PinsTime) : (h.modPins f).lanes = h.lanes := rfl
@[simp] theorem Hub.modPins_eths (h : Hub) (f : PinsTime → PinsTime) : (h.modPins f).eths = h.eths := rfl
@[simp] theorem Hub.modPins_ins (h : Hub) (f : PinsTime → PinsTime) : (h.modPins f).ins = h.ins := rfl
@[simp] theorem Hub.modPins_drvs (h : Hub) (f : PinsTime → PinsTime) : (h.modPins f).drvs = h.drvs := rfl
@[simp] theorem Hub.modPins_cores (h : Hub) (f : PinsTime → PinsTime) : (h.modPins f).cores = h.cores := rfl
@[simp] theorem Hub.modPins_fes (h : Hub) (f : PinsTime → PinsTime) : (h.modPins f).fes = h.fes := rfl
@[simp] theorem Hub.modPins_align (h : Hub) (f : PinsTime → PinsTime) : (h.modPins f).align = h.align := rfl
@[simp] theorem Hub.modPins_relIdx (h : Hub) (f : PinsTime → PinsTime) : (h.modPins f).relIdx = h.relIdx := rfl
@[simp] theorem Hub.modPins_chains (h : Hub) (f : PinsTime → PinsTime) : (h.modPins f).chains = h.chains := rfl
@[simp] theorem Hub.modPins_outs (h : Hub) (f : PinsTime → PinsTime) : (h.modPins f).outs = h.outs := rfl
@[simp] theorem Hub.modPins_loopOuts (h : Hub) (f : PinsTime → PinsTime) : (h.modPins f).loopOuts = h.loopOuts := rfl
@[simp] theorem Hub.modPins_injOuts (h : Hub) (f : PinsTime → PinsTime) : (h.modPins f).injOuts = h.injOuts := rfl
@[simp] theorem Hub.modPins_dets (h : Hub) (f : PinsTime → PinsTime) : (h.modPins f).dets = h.dets := rfl
@[simp] theorem Hub.modPins_cal (h : Hub) (f : PinsTime → PinsTime) : (h.modPins f).cal = h.cal := rfl
@[simp] theorem Hub.modPins_eng (h : Hub) (f : PinsTime → PinsTime) : (h.modPins f).eng = h.eng := rfl
@[simp] theorem Hub.modPins_strings (h : Hub) (f : PinsTime → PinsTime) : (h.modPins f).strings = h.strings := rfl
@[simp] theorem Hub.modPins_pats (h : Hub) (f : PinsTime → PinsTime) : (h.modPins f).pats = h.pats := rfl
@[simp] theorem Hub.modPins_trig (h : Hub) (f : PinsTime → PinsTime) : (h.modPins f).trig = h.trig := rfl
@[simp] theorem Hub.modPins_streams (h : Hub) (f : PinsTime → PinsTime) : (h.modPins f).streams = h.streams := rfl
@[simp] theorem Hub.modPins_queues (h : Hub) (f : PinsTime → PinsTime) : (h.modPins f).queues = h.queues := rfl
@[simp] theorem Hub.modPins_fwds (h : Hub) (f : PinsTime → PinsTime) : (h.modPins f).fwds = h.fwds := rfl
@[simp] theorem Hub.modPins_wins (h : Hub) (f : PinsTime → PinsTime) : (h.modPins f).wins = h.wins := rfl
@[simp] theorem Hub.modPins_lost (h : Hub) (f : PinsTime → PinsTime) : (h.modPins f).lost = h.lost := rfl
@[simp] theorem Hub.modPins_gaps (h : Hub) (f : PinsTime → PinsTime) : (h.modPins f).gaps = h.gaps := rfl
@[simp] theorem Hub.modPins_recMoves (h : Hub) (f : PinsTime → PinsTime) : (h.modPins f).recMoves = h.recMoves := rfl
@[simp] theorem Hub.modPins_undeclared (h : Hub) (f : PinsTime → PinsTime) : (h.modPins f).undeclared = h.undeclared := rfl
@[simp] theorem Hub.modPins_divergeLog (h : Hub) (f : PinsTime → PinsTime) : (h.modPins f).divergeLog = h.divergeLog := rfl
@[simp] theorem Hub.modPins_slots (h : Hub) (f : PinsTime → PinsTime) : (h.modPins f).slots = h.slots := rfl
@[simp] theorem Hub.modPins_capFull0 (h : Hub) (f : PinsTime → PinsTime) : (h.modPins f).capFull0 = h.capFull0 := rfl
@[simp] theorem Hub.modPins_capFull1 (h : Hub) (f : PinsTime → PinsTime) : (h.modPins f).capFull1 = h.capFull1 := rfl
@[simp] theorem Hub.modPins_red (h : Hub) (f : PinsTime → PinsTime) : (h.modPins f).red = h.red := rfl
@[simp] theorem Hub.modPins_mir (h : Hub) (f : PinsTime → PinsTime) : (h.modPins f).mir = h.mir := rfl
@[simp] theorem Hub.modPins_pow (h : Hub) (f : PinsTime → PinsTime) : (h.modPins f).pow = h.pow := rfl
@[simp] theorem Hub.modPins_srv (h : Hub) (f : PinsTime → PinsTime) : (h.modPins f).srv = h.srv := rfl
@[simp] theorem Hub.modPins_out (h : Hub) (f : PinsTime → PinsTime) : (h.modPins f).out = h.out := rfl
@[simp] theorem Hub.modPins_free (h : Hub) (f : PinsTime → PinsTime) : (h.modPins f).free = h.free := rfl
@[simp] theorem Hub.modPins_get (h : Hub) (f : PinsTime → PinsTime) (key : Nat) : (h.modPins f).get key = h.get key := rfl

/-! ### `modTt` -/

@[simp] theorem Hub.modTt_part (h : Hub) (p : Nat) (f : TtPort → TtPort) : (h.modTt p f).part = h.part := rfl
@[simp] theorem Hub.modTt_objs (h : Hub) (p : Nat) (f : TtPort → TtPort) : (h.modTt p f).objs = h.objs := rfl
@[simp] theorem Hub.modTt_cb (h : Hub) (p : Nat) (f : TtPort → TtPort) : (h.modTt p f).cb = h.cb := rfl
@[simp] theorem Hub.modTt_lanes (h : Hub) (p : Nat) (f : TtPort → TtPort) : (h.modTt p f).lanes = h.lanes := rfl
@[simp] theorem Hub.modTt_eths (h : Hub) (p : Nat) (f : TtPort → TtPort) : (h.modTt p f).eths = h.eths := rfl
@[simp] theorem Hub.modTt_ins (h : Hub) (p : Nat) (f : TtPort → TtPort) : (h.modTt p f).ins = h.ins := rfl
@[simp] theorem Hub.modTt_drvs (h : Hub) (p : Nat) (f : TtPort → TtPort) : (h.modTt p f).drvs = h.drvs := rfl
@[simp] theorem Hub.modTt_cores (h : Hub) (p : Nat) (f : TtPort → TtPort) : (h.modTt p f).cores = h.cores := rfl
@[simp] theorem Hub.modTt_fes (h : Hub) (p : Nat) (f : TtPort → TtPort) : (h.modTt p f).fes = h.fes := rfl
@[simp] theorem Hub.modTt_align (h : Hub) (p : Nat) (f : TtPort → TtPort) : (h.modTt p f).align = h.align := rfl
@[simp] theorem Hub.modTt_relIdx (h : Hub) (p : Nat) (f : TtPort → TtPort) : (h.modTt p f).relIdx = h.relIdx := rfl
@[simp] theorem Hub.modTt_chains (h : Hub) (p : Nat) (f : TtPort → TtPort) : (h.modTt p f).chains = h.chains := rfl
@[simp] theorem Hub.modTt_outs (h : Hub) (p : Nat) (f : TtPort → TtPort) : (h.modTt p f).outs = h.outs := rfl
@[simp] theorem Hub.modTt_loopOuts (h : Hub) (p : Nat) (f : TtPort → TtPort) : (h.modTt p f).loopOuts = h.loopOuts := rfl
@[simp] theorem Hub.modTt_injOuts (h : Hub) (p : Nat) (f : TtPort → TtPort) : (h.modTt p f).injOuts = h.injOuts := rfl
@[simp] theorem Hub.modTt_dets (h : Hub) (p : Nat) (f : TtPort → TtPort) : (h.modTt p f).dets = h.dets := rfl
@[simp] theorem Hub.modTt_cal (h : Hub) (p : Nat) (f : TtPort → TtPort) : (h.modTt p f).cal = h.cal := rfl
@[simp] theorem Hub.modTt_eng (h : Hub) (p : Nat) (f : TtPort → TtPort) : (h.modTt p f).eng = h.eng := rfl
@[simp] theorem Hub.modTt_strings (h : Hub) (p : Nat) (f : TtPort → TtPort) : (h.modTt p f).strings = h.strings := rfl
@[simp] theorem Hub.modTt_pats (h : Hub) (p : Nat) (f : TtPort → TtPort) : (h.modTt p f).pats = h.pats := rfl
@[simp] theorem Hub.modTt_trig (h : Hub) (p : Nat) (f : TtPort → TtPort) : (h.modTt p f).trig = h.trig := rfl
@[simp] theorem Hub.modTt_streams (h : Hub) (p : Nat) (f : TtPort → TtPort) : (h.modTt p f).streams = h.streams := rfl
@[simp] theorem Hub.modTt_queues (h : Hub) (p : Nat) (f : TtPort → TtPort) : (h.modTt p f).queues = h.queues := rfl
@[simp] theorem Hub.modTt_fwds (h : Hub) (p : Nat) (f : TtPort → TtPort) : (h.modTt p f).fwds = h.fwds := rfl
@[simp] theorem Hub.modTt_wins (h : Hub) (p : Nat) (f : TtPort → TtPort) : (h.modTt p f).wins = h.wins := rfl
@[simp] theorem Hub.modTt_lost (h : Hub) (p : Nat) (f : TtPort → TtPort) : (h.modTt p f).lost = h.lost := rfl
@[simp] theorem Hub.modTt_gaps (h : Hub) (p : Nat) (f : TtPort → TtPort) : (h.modTt p f).gaps = h.gaps := rfl
@[simp] theorem Hub.modTt_recMoves (h : Hub) (p : Nat) (f : TtPort → TtPort) : (h.modTt p f).recMoves = h.recMoves := rfl
@[simp] theorem Hub.modTt_undeclared (h : Hub) (p : Nat) (f : TtPort → TtPort) : (h.modTt p f).undeclared = h.undeclared := rfl
@[simp] theorem Hub.modTt_divergeLog (h : Hub) (p : Nat) (f : TtPort → TtPort) : (h.modTt p f).divergeLog = h.divergeLog := rfl
@[simp] theorem Hub.modTt_slots (h : Hub) (p : Nat) (f : TtPort → TtPort) : (h.modTt p f).slots = h.slots := rfl
@[simp] theorem Hub.modTt_capFull0 (h : Hub) (p : Nat) (f : TtPort → TtPort) : (h.modTt p f).capFull0 = h.capFull0 := rfl
@[simp] theorem Hub.modTt_capFull1 (h : Hub) (p : Nat) (f : TtPort → TtPort) : (h.modTt p f).capFull1 = h.capFull1 := rfl
@[simp] theorem Hub.modTt_red (h : Hub) (p : Nat) (f : TtPort → TtPort) : (h.modTt p f).red = h.red := rfl
@[simp] theorem Hub.modTt_mir (h : Hub) (p : Nat) (f : TtPort → TtPort) : (h.modTt p f).mir = h.mir := rfl
@[simp] theorem Hub.modTt_pow (h : Hub) (p : Nat) (f : TtPort → TtPort) : (h.modTt p f).pow = h.pow := rfl
@[simp] theorem Hub.modTt_srv (h : Hub) (p : Nat) (f : TtPort → TtPort) : (h.modTt p f).srv = h.srv := rfl
@[simp] theorem Hub.modTt_out (h : Hub) (p : Nat) (f : TtPort → TtPort) : (h.modTt p f).out = h.out := rfl
@[simp] theorem Hub.modTt_free (h : Hub) (p : Nat) (f : TtPort → TtPort) : (h.modTt p f).free = h.free := rfl
@[simp] theorem Hub.modTt_get (h : Hub) (p : Nat) (f : TtPort → TtPort) (key : Nat) : (h.modTt p f).get key = h.get key := rfl

/-! ### `modPtp` -/

@[simp] theorem Hub.modPtp_part (h : Hub) (f : PtpSt → PtpSt) : (h.modPtp f).part = h.part := rfl
@[simp] theorem Hub.modPtp_objs (h : Hub) (f : PtpSt → PtpSt) : (h.modPtp f).objs = h.objs := rfl
@[simp] theorem Hub.modPtp_cb (h : Hub) (f : PtpSt → PtpSt) : (h.modPtp f).cb = h.cb := rfl
@[simp] theorem Hub.modPtp_lanes (h : Hub) (f : PtpSt → PtpSt) : (h.modPtp f).lanes = h.lanes := rfl
@[simp] theorem Hub.modPtp_eths (h : Hub) (f : PtpSt → PtpSt) : (h.modPtp f).eths = h.eths := rfl
@[simp] theorem Hub.modPtp_ins (h : Hub) (f : PtpSt → PtpSt) : (h.modPtp f).ins = h.ins := rfl
@[simp] theorem Hub.modPtp_drvs (h : Hub) (f : PtpSt → PtpSt) : (h.modPtp f).drvs = h.drvs := rfl
@[simp] theorem Hub.modPtp_cores (h : Hub) (f : PtpSt → PtpSt) : (h.modPtp f).cores = h.cores := rfl
@[simp] theorem Hub.modPtp_fes (h : Hub) (f : PtpSt → PtpSt) : (h.modPtp f).fes = h.fes := rfl
@[simp] theorem Hub.modPtp_align (h : Hub) (f : PtpSt → PtpSt) : (h.modPtp f).align = h.align := rfl
@[simp] theorem Hub.modPtp_relIdx (h : Hub) (f : PtpSt → PtpSt) : (h.modPtp f).relIdx = h.relIdx := rfl
@[simp] theorem Hub.modPtp_chains (h : Hub) (f : PtpSt → PtpSt) : (h.modPtp f).chains = h.chains := rfl
@[simp] theorem Hub.modPtp_outs (h : Hub) (f : PtpSt → PtpSt) : (h.modPtp f).outs = h.outs := rfl
@[simp] theorem Hub.modPtp_loopOuts (h : Hub) (f : PtpSt → PtpSt) : (h.modPtp f).loopOuts = h.loopOuts := rfl
@[simp] theorem Hub.modPtp_injOuts (h : Hub) (f : PtpSt → PtpSt) : (h.modPtp f).injOuts = h.injOuts := rfl
@[simp] theorem Hub.modPtp_dets (h : Hub) (f : PtpSt → PtpSt) : (h.modPtp f).dets = h.dets := rfl
@[simp] theorem Hub.modPtp_cal (h : Hub) (f : PtpSt → PtpSt) : (h.modPtp f).cal = h.cal := rfl
@[simp] theorem Hub.modPtp_eng (h : Hub) (f : PtpSt → PtpSt) : (h.modPtp f).eng = h.eng := rfl
@[simp] theorem Hub.modPtp_strings (h : Hub) (f : PtpSt → PtpSt) : (h.modPtp f).strings = h.strings := rfl
@[simp] theorem Hub.modPtp_pats (h : Hub) (f : PtpSt → PtpSt) : (h.modPtp f).pats = h.pats := rfl
@[simp] theorem Hub.modPtp_trig (h : Hub) (f : PtpSt → PtpSt) : (h.modPtp f).trig = h.trig := rfl
@[simp] theorem Hub.modPtp_streams (h : Hub) (f : PtpSt → PtpSt) : (h.modPtp f).streams = h.streams := rfl
@[simp] theorem Hub.modPtp_queues (h : Hub) (f : PtpSt → PtpSt) : (h.modPtp f).queues = h.queues := rfl
@[simp] theorem Hub.modPtp_fwds (h : Hub) (f : PtpSt → PtpSt) : (h.modPtp f).fwds = h.fwds := rfl
@[simp] theorem Hub.modPtp_wins (h : Hub) (f : PtpSt → PtpSt) : (h.modPtp f).wins = h.wins := rfl
@[simp] theorem Hub.modPtp_lost (h : Hub) (f : PtpSt → PtpSt) : (h.modPtp f).lost = h.lost := rfl
@[simp] theorem Hub.modPtp_gaps (h : Hub) (f : PtpSt → PtpSt) : (h.modPtp f).gaps = h.gaps := rfl
@[simp] theorem Hub.modPtp_recMoves (h : Hub) (f : PtpSt → PtpSt) : (h.modPtp f).recMoves = h.recMoves := rfl
@[simp] theorem Hub.modPtp_undeclared (h : Hub) (f : PtpSt → PtpSt) : (h.modPtp f).undeclared = h.undeclared := rfl
@[simp] theorem Hub.modPtp_divergeLog (h : Hub) (f : PtpSt → PtpSt) : (h.modPtp f).divergeLog = h.divergeLog := rfl
@[simp] theorem Hub.modPtp_slots (h : Hub) (f : PtpSt → PtpSt) : (h.modPtp f).slots = h.slots := rfl
@[simp] theorem Hub.modPtp_capFull0 (h : Hub) (f : PtpSt → PtpSt) : (h.modPtp f).capFull0 = h.capFull0 := rfl
@[simp] theorem Hub.modPtp_capFull1 (h : Hub) (f : PtpSt → PtpSt) : (h.modPtp f).capFull1 = h.capFull1 := rfl
@[simp] theorem Hub.modPtp_red (h : Hub) (f : PtpSt → PtpSt) : (h.modPtp f).red = h.red := rfl
@[simp] theorem Hub.modPtp_mir (h : Hub) (f : PtpSt → PtpSt) : (h.modPtp f).mir = h.mir := rfl
@[simp] theorem Hub.modPtp_pow (h : Hub) (f : PtpSt → PtpSt) : (h.modPtp f).pow = h.pow := rfl
@[simp] theorem Hub.modPtp_srv (h : Hub) (f : PtpSt → PtpSt) : (h.modPtp f).srv = h.srv := rfl
@[simp] theorem Hub.modPtp_out (h : Hub) (f : PtpSt → PtpSt) : (h.modPtp f).out = h.out := rfl
@[simp] theorem Hub.modPtp_free (h : Hub) (f : PtpSt → PtpSt) : (h.modPtp f).free = h.free := rfl
@[simp] theorem Hub.modPtp_get (h : Hub) (f : PtpSt → PtpSt) (key : Nat) : (h.modPtp f).get key = h.get key := rfl

/-! ### `modTrig` -/

@[simp] theorem Hub.modTrig_part (h : Hub) (f : TrigSt → TrigSt) : (h.modTrig f).part = h.part := rfl
@[simp] theorem Hub.modTrig_objs (h : Hub) (f : TrigSt → TrigSt) : (h.modTrig f).objs = h.objs := rfl
@[simp] theorem Hub.modTrig_time (h : Hub) (f : TrigSt → TrigSt) : (h.modTrig f).time = h.time := rfl
@[simp] theorem Hub.modTrig_cb (h : Hub) (f : TrigSt → TrigSt) : (h.modTrig f).cb = h.cb := rfl
@[simp] theorem Hub.modTrig_lanes (h : Hub) (f : TrigSt → TrigSt) : (h.modTrig f).lanes = h.lanes := rfl
@[simp] theorem Hub.modTrig_eths (h : Hub) (f : TrigSt → TrigSt) : (h.modTrig f).eths = h.eths := rfl
@[simp] theorem Hub.modTrig_ins (h : Hub) (f : TrigSt → TrigSt) : (h.modTrig f).ins = h.ins := rfl
@[simp] theorem Hub.modTrig_drvs (h : Hub) (f : TrigSt → TrigSt) : (h.modTrig f).drvs = h.drvs := rfl
@[simp] theorem Hub.modTrig_cores (h : Hub) (f : TrigSt → TrigSt) : (h.modTrig f).cores = h.cores := rfl
@[simp] theorem Hub.modTrig_fes (h : Hub) (f : TrigSt → TrigSt) : (h.modTrig f).fes = h.fes := rfl
@[simp] theorem Hub.modTrig_align (h : Hub) (f : TrigSt → TrigSt) : (h.modTrig f).align = h.align := rfl
@[simp] theorem Hub.modTrig_relIdx (h : Hub) (f : TrigSt → TrigSt) : (h.modTrig f).relIdx = h.relIdx := rfl
@[simp] theorem Hub.modTrig_chains (h : Hub) (f : TrigSt → TrigSt) : (h.modTrig f).chains = h.chains := rfl
@[simp] theorem Hub.modTrig_outs (h : Hub) (f : TrigSt → TrigSt) : (h.modTrig f).outs = h.outs := rfl
@[simp] theorem Hub.modTrig_loopOuts (h : Hub) (f : TrigSt → TrigSt) : (h.modTrig f).loopOuts = h.loopOuts := rfl
@[simp] theorem Hub.modTrig_injOuts (h : Hub) (f : TrigSt → TrigSt) : (h.modTrig f).injOuts = h.injOuts := rfl
@[simp] theorem Hub.modTrig_dets (h : Hub) (f : TrigSt → TrigSt) : (h.modTrig f).dets = h.dets := rfl
@[simp] theorem Hub.modTrig_cal (h : Hub) (f : TrigSt → TrigSt) : (h.modTrig f).cal = h.cal := rfl
@[simp] theorem Hub.modTrig_eng (h : Hub) (f : TrigSt → TrigSt) : (h.modTrig f).eng = h.eng := rfl
@[simp] theorem Hub.modTrig_strings (h : Hub) (f : TrigSt → TrigSt) : (h.modTrig f).strings = h.strings := rfl
@[simp] theorem Hub.modTrig_pats (h : Hub) (f : TrigSt → TrigSt) : (h.modTrig f).pats = h.pats := rfl
@[simp] theorem Hub.modTrig_streams (h : Hub) (f : TrigSt → TrigSt) : (h.modTrig f).streams = h.streams := rfl
@[simp] theorem Hub.modTrig_queues (h : Hub) (f : TrigSt → TrigSt) : (h.modTrig f).queues = h.queues := rfl
@[simp] theorem Hub.modTrig_fwds (h : Hub) (f : TrigSt → TrigSt) : (h.modTrig f).fwds = h.fwds := rfl
@[simp] theorem Hub.modTrig_wins (h : Hub) (f : TrigSt → TrigSt) : (h.modTrig f).wins = h.wins := rfl
@[simp] theorem Hub.modTrig_lost (h : Hub) (f : TrigSt → TrigSt) : (h.modTrig f).lost = h.lost := rfl
@[simp] theorem Hub.modTrig_gaps (h : Hub) (f : TrigSt → TrigSt) : (h.modTrig f).gaps = h.gaps := rfl
@[simp] theorem Hub.modTrig_recMoves (h : Hub) (f : TrigSt → TrigSt) : (h.modTrig f).recMoves = h.recMoves := rfl
@[simp] theorem Hub.modTrig_undeclared (h : Hub) (f : TrigSt → TrigSt) : (h.modTrig f).undeclared = h.undeclared := rfl
@[simp] theorem Hub.modTrig_divergeLog (h : Hub) (f : TrigSt → TrigSt) : (h.modTrig f).divergeLog = h.divergeLog := rfl
@[simp] theorem Hub.modTrig_slots (h : Hub) (f : TrigSt → TrigSt) : (h.modTrig f).slots = h.slots := rfl
@[simp] theorem Hub.modTrig_capFull0 (h : Hub) (f : TrigSt → TrigSt) : (h.modTrig f).capFull0 = h.capFull0 := rfl
@[simp] theorem Hub.modTrig_capFull1 (h : Hub) (f : TrigSt → TrigSt) : (h.modTrig f).capFull1 = h.capFull1 := rfl
@[simp] theorem Hub.modTrig_red (h : Hub) (f : TrigSt → TrigSt) : (h.modTrig f).red = h.red := rfl
@[simp] theorem Hub.modTrig_mir (h : Hub) (f : TrigSt → TrigSt) : (h.modTrig f).mir = h.mir := rfl
@[simp] theorem Hub.modTrig_pow (h : Hub) (f : TrigSt → TrigSt) : (h.modTrig f).pow = h.pow := rfl
@[simp] theorem Hub.modTrig_srv (h : Hub) (f : TrigSt → TrigSt) : (h.modTrig f).srv = h.srv := rfl
@[simp] theorem Hub.modTrig_out (h : Hub) (f : TrigSt → TrigSt) : (h.modTrig f).out = h.out := rfl
@[simp] theorem Hub.modTrig_free (h : Hub) (f : TrigSt → TrigSt) : (h.modTrig f).free = h.free := rfl
@[simp] theorem Hub.modTrig_get (h : Hub) (f : TrigSt → TrigSt) (key : Nat) : (h.modTrig f).get key = h.get key := rfl

/-! ### `modSlot` -/

@[simp] theorem Hub.modSlot_part (h : Hub) (n : Nat) (f : SlotSt → SlotSt) : (h.modSlot n f).part = h.part := rfl
@[simp] theorem Hub.modSlot_objs (h : Hub) (n : Nat) (f : SlotSt → SlotSt) : (h.modSlot n f).objs = h.objs := rfl
@[simp] theorem Hub.modSlot_time (h : Hub) (n : Nat) (f : SlotSt → SlotSt) : (h.modSlot n f).time = h.time := rfl
@[simp] theorem Hub.modSlot_cb (h : Hub) (n : Nat) (f : SlotSt → SlotSt) : (h.modSlot n f).cb = h.cb := rfl
@[simp] theorem Hub.modSlot_lanes (h : Hub) (n : Nat) (f : SlotSt → SlotSt) : (h.modSlot n f).lanes = h.lanes := rfl
@[simp] theorem Hub.modSlot_eths (h : Hub) (n : Nat) (f : SlotSt → SlotSt) : (h.modSlot n f).eths = h.eths := rfl
@[simp] theorem Hub.modSlot_ins (h : Hub) (n : Nat) (f : SlotSt → SlotSt) : (h.modSlot n f).ins = h.ins := rfl
@[simp] theorem Hub.modSlot_drvs (h : Hub) (n : Nat) (f : SlotSt → SlotSt) : (h.modSlot n f).drvs = h.drvs := rfl
@[simp] theorem Hub.modSlot_cores (h : Hub) (n : Nat) (f : SlotSt → SlotSt) : (h.modSlot n f).cores = h.cores := rfl
@[simp] theorem Hub.modSlot_fes (h : Hub) (n : Nat) (f : SlotSt → SlotSt) : (h.modSlot n f).fes = h.fes := rfl
@[simp] theorem Hub.modSlot_align (h : Hub) (n : Nat) (f : SlotSt → SlotSt) : (h.modSlot n f).align = h.align := rfl
@[simp] theorem Hub.modSlot_relIdx (h : Hub) (n : Nat) (f : SlotSt → SlotSt) : (h.modSlot n f).relIdx = h.relIdx := rfl
@[simp] theorem Hub.modSlot_chains (h : Hub) (n : Nat) (f : SlotSt → SlotSt) : (h.modSlot n f).chains = h.chains := rfl
@[simp] theorem Hub.modSlot_outs (h : Hub) (n : Nat) (f : SlotSt → SlotSt) : (h.modSlot n f).outs = h.outs := rfl
@[simp] theorem Hub.modSlot_loopOuts (h : Hub) (n : Nat) (f : SlotSt → SlotSt) : (h.modSlot n f).loopOuts = h.loopOuts := rfl
@[simp] theorem Hub.modSlot_injOuts (h : Hub) (n : Nat) (f : SlotSt → SlotSt) : (h.modSlot n f).injOuts = h.injOuts := rfl
@[simp] theorem Hub.modSlot_dets (h : Hub) (n : Nat) (f : SlotSt → SlotSt) : (h.modSlot n f).dets = h.dets := rfl
@[simp] theorem Hub.modSlot_cal (h : Hub) (n : Nat) (f : SlotSt → SlotSt) : (h.modSlot n f).cal = h.cal := rfl
@[simp] theorem Hub.modSlot_eng (h : Hub) (n : Nat) (f : SlotSt → SlotSt) : (h.modSlot n f).eng = h.eng := rfl
@[simp] theorem Hub.modSlot_strings (h : Hub) (n : Nat) (f : SlotSt → SlotSt) : (h.modSlot n f).strings = h.strings := rfl
@[simp] theorem Hub.modSlot_pats (h : Hub) (n : Nat) (f : SlotSt → SlotSt) : (h.modSlot n f).pats = h.pats := rfl
@[simp] theorem Hub.modSlot_trig (h : Hub) (n : Nat) (f : SlotSt → SlotSt) : (h.modSlot n f).trig = h.trig := rfl
@[simp] theorem Hub.modSlot_streams (h : Hub) (n : Nat) (f : SlotSt → SlotSt) : (h.modSlot n f).streams = h.streams := rfl
@[simp] theorem Hub.modSlot_queues (h : Hub) (n : Nat) (f : SlotSt → SlotSt) : (h.modSlot n f).queues = h.queues := rfl
@[simp] theorem Hub.modSlot_fwds (h : Hub) (n : Nat) (f : SlotSt → SlotSt) : (h.modSlot n f).fwds = h.fwds := rfl
@[simp] theorem Hub.modSlot_wins (h : Hub) (n : Nat) (f : SlotSt → SlotSt) : (h.modSlot n f).wins = h.wins := rfl
@[simp] theorem Hub.modSlot_lost (h : Hub) (n : Nat) (f : SlotSt → SlotSt) : (h.modSlot n f).lost = h.lost := rfl
@[simp] theorem Hub.modSlot_gaps (h : Hub) (n : Nat) (f : SlotSt → SlotSt) : (h.modSlot n f).gaps = h.gaps := rfl
@[simp] theorem Hub.modSlot_recMoves (h : Hub) (n : Nat) (f : SlotSt → SlotSt) : (h.modSlot n f).recMoves = h.recMoves := rfl
@[simp] theorem Hub.modSlot_undeclared (h : Hub) (n : Nat) (f : SlotSt → SlotSt) : (h.modSlot n f).undeclared = h.undeclared := rfl
@[simp] theorem Hub.modSlot_divergeLog (h : Hub) (n : Nat) (f : SlotSt → SlotSt) : (h.modSlot n f).divergeLog = h.divergeLog := rfl
@[simp] theorem Hub.modSlot_capFull0 (h : Hub) (n : Nat) (f : SlotSt → SlotSt) : (h.modSlot n f).capFull0 = h.capFull0 := rfl
@[simp] theorem Hub.modSlot_capFull1 (h : Hub) (n : Nat) (f : SlotSt → SlotSt) : (h.modSlot n f).capFull1 = h.capFull1 := rfl
@[simp] theorem Hub.modSlot_red (h : Hub) (n : Nat) (f : SlotSt → SlotSt) : (h.modSlot n f).red = h.red := rfl
@[simp] theorem Hub.modSlot_mir (h : Hub) (n : Nat) (f : SlotSt → SlotSt) : (h.modSlot n f).mir = h.mir := rfl
@[simp] theorem Hub.modSlot_pow (h : Hub) (n : Nat) (f : SlotSt → SlotSt) : (h.modSlot n f).pow = h.pow := rfl
@[simp] theorem Hub.modSlot_srv (h : Hub) (n : Nat) (f : SlotSt → SlotSt) : (h.modSlot n f).srv = h.srv := rfl
@[simp] theorem Hub.modSlot_out (h : Hub) (n : Nat) (f : SlotSt → SlotSt) : (h.modSlot n f).out = h.out := rfl
@[simp] theorem Hub.modSlot_free (h : Hub) (n : Nat) (f : SlotSt → SlotSt) : (h.modSlot n f).free = h.free := rfl
@[simp] theorem Hub.modSlot_get (h : Hub) (n : Nat) (f : SlotSt → SlotSt) (key : Nat) : (h.modSlot n f).get key = h.get key := rfl

/-! ### `modLoop` -/

@[simp] theorem Hub.modLoop_part (h : Hub) (l : Nat) (f : LoopSt → LoopSt) : (h.modLoop l f).part = h.part := rfl
@[simp] theorem Hub.modLoop_objs (h : Hub) (l : Nat) (f : LoopSt → LoopSt) : (h.modLoop l f).objs = h.objs := rfl
@[simp] theorem Hub.modLoop_time (h : Hub) (l : Nat) (f : LoopSt → LoopSt) : (h.modLoop l f).time = h.time := rfl
@[simp] theorem Hub.modLoop_cb (h : Hub) (l : Nat) (f : LoopSt → LoopSt) : (h.modLoop l f).cb = h.cb := rfl
@[simp] theorem Hub.modLoop_lanes (h : Hub) (l : Nat) (f : LoopSt → LoopSt) : (h.modLoop l f).lanes = h.lanes := rfl
@[simp] theorem Hub.modLoop_eths (h : Hub) (l : Nat) (f : LoopSt → LoopSt) : (h.modLoop l f).eths = h.eths := rfl
@[simp] theorem Hub.modLoop_ins (h : Hub) (l : Nat) (f : LoopSt → LoopSt) : (h.modLoop l f).ins = h.ins := rfl
@[simp] theorem Hub.modLoop_drvs (h : Hub) (l : Nat) (f : LoopSt → LoopSt) : (h.modLoop l f).drvs = h.drvs := rfl
@[simp] theorem Hub.modLoop_cores (h : Hub) (l : Nat) (f : LoopSt → LoopSt) : (h.modLoop l f).cores = h.cores := rfl
@[simp] theorem Hub.modLoop_fes (h : Hub) (l : Nat) (f : LoopSt → LoopSt) : (h.modLoop l f).fes = h.fes := rfl
@[simp] theorem Hub.modLoop_align (h : Hub) (l : Nat) (f : LoopSt → LoopSt) : (h.modLoop l f).align = h.align := rfl
@[simp] theorem Hub.modLoop_relIdx (h : Hub) (l : Nat) (f : LoopSt → LoopSt) : (h.modLoop l f).relIdx = h.relIdx := rfl
@[simp] theorem Hub.modLoop_chains (h : Hub) (l : Nat) (f : LoopSt → LoopSt) : (h.modLoop l f).chains = h.chains := rfl
@[simp] theorem Hub.modLoop_outs (h : Hub) (l : Nat) (f : LoopSt → LoopSt) : (h.modLoop l f).outs = h.outs := rfl
@[simp] theorem Hub.modLoop_loopOuts (h : Hub) (l : Nat) (f : LoopSt → LoopSt) : (h.modLoop l f).loopOuts = h.loopOuts := rfl
@[simp] theorem Hub.modLoop_injOuts (h : Hub) (l : Nat) (f : LoopSt → LoopSt) : (h.modLoop l f).injOuts = h.injOuts := rfl
@[simp] theorem Hub.modLoop_dets (h : Hub) (l : Nat) (f : LoopSt → LoopSt) : (h.modLoop l f).dets = h.dets := rfl
@[simp] theorem Hub.modLoop_cal (h : Hub) (l : Nat) (f : LoopSt → LoopSt) : (h.modLoop l f).cal = h.cal := rfl
@[simp] theorem Hub.modLoop_strings (h : Hub) (l : Nat) (f : LoopSt → LoopSt) : (h.modLoop l f).strings = h.strings := rfl
@[simp] theorem Hub.modLoop_pats (h : Hub) (l : Nat) (f : LoopSt → LoopSt) : (h.modLoop l f).pats = h.pats := rfl
@[simp] theorem Hub.modLoop_trig (h : Hub) (l : Nat) (f : LoopSt → LoopSt) : (h.modLoop l f).trig = h.trig := rfl
@[simp] theorem Hub.modLoop_streams (h : Hub) (l : Nat) (f : LoopSt → LoopSt) : (h.modLoop l f).streams = h.streams := rfl
@[simp] theorem Hub.modLoop_queues (h : Hub) (l : Nat) (f : LoopSt → LoopSt) : (h.modLoop l f).queues = h.queues := rfl
@[simp] theorem Hub.modLoop_fwds (h : Hub) (l : Nat) (f : LoopSt → LoopSt) : (h.modLoop l f).fwds = h.fwds := rfl
@[simp] theorem Hub.modLoop_wins (h : Hub) (l : Nat) (f : LoopSt → LoopSt) : (h.modLoop l f).wins = h.wins := rfl
@[simp] theorem Hub.modLoop_lost (h : Hub) (l : Nat) (f : LoopSt → LoopSt) : (h.modLoop l f).lost = h.lost := rfl
@[simp] theorem Hub.modLoop_gaps (h : Hub) (l : Nat) (f : LoopSt → LoopSt) : (h.modLoop l f).gaps = h.gaps := rfl
@[simp] theorem Hub.modLoop_recMoves (h : Hub) (l : Nat) (f : LoopSt → LoopSt) : (h.modLoop l f).recMoves = h.recMoves := rfl
@[simp] theorem Hub.modLoop_undeclared (h : Hub) (l : Nat) (f : LoopSt → LoopSt) : (h.modLoop l f).undeclared = h.undeclared := rfl
@[simp] theorem Hub.modLoop_divergeLog (h : Hub) (l : Nat) (f : LoopSt → LoopSt) : (h.modLoop l f).divergeLog = h.divergeLog := rfl
@[simp] theorem Hub.modLoop_slots (h : Hub) (l : Nat) (f : LoopSt → LoopSt) : (h.modLoop l f).slots = h.slots := rfl
@[simp] theorem Hub.modLoop_capFull0 (h : Hub) (l : Nat) (f : LoopSt → LoopSt) : (h.modLoop l f).capFull0 = h.capFull0 := rfl
@[simp] theorem Hub.modLoop_capFull1 (h : Hub) (l : Nat) (f : LoopSt → LoopSt) : (h.modLoop l f).capFull1 = h.capFull1 := rfl
@[simp] theorem Hub.modLoop_red (h : Hub) (l : Nat) (f : LoopSt → LoopSt) : (h.modLoop l f).red = h.red := rfl
@[simp] theorem Hub.modLoop_mir (h : Hub) (l : Nat) (f : LoopSt → LoopSt) : (h.modLoop l f).mir = h.mir := rfl
@[simp] theorem Hub.modLoop_pow (h : Hub) (l : Nat) (f : LoopSt → LoopSt) : (h.modLoop l f).pow = h.pow := rfl
@[simp] theorem Hub.modLoop_srv (h : Hub) (l : Nat) (f : LoopSt → LoopSt) : (h.modLoop l f).srv = h.srv := rfl
@[simp] theorem Hub.modLoop_out (h : Hub) (l : Nat) (f : LoopSt → LoopSt) : (h.modLoop l f).out = h.out := rfl
@[simp] theorem Hub.modLoop_free (h : Hub) (l : Nat) (f : LoopSt → LoopSt) : (h.modLoop l f).free = h.free := rfl
@[simp] theorem Hub.modLoop_get (h : Hub) (l : Nat) (f : LoopSt → LoopSt) (key : Nat) : (h.modLoop l f).get key = h.get key := rfl

/-! ### `modCtl` -/

@[simp] theorem Hub.modCtl_part (h : Hub) (o : Nat) (f : CtlSt → CtlSt) : (h.modCtl o f).part = h.part := rfl
@[simp] theorem Hub.modCtl_objs (h : Hub) (o : Nat) (f : CtlSt → CtlSt) : (h.modCtl o f).objs = h.objs := rfl
@[simp] theorem Hub.modCtl_time (h : Hub) (o : Nat) (f : CtlSt → CtlSt) : (h.modCtl o f).time = h.time := rfl
@[simp] theorem Hub.modCtl_cb (h : Hub) (o : Nat) (f : CtlSt → CtlSt) : (h.modCtl o f).cb = h.cb := rfl
@[simp] theorem Hub.modCtl_lanes (h : Hub) (o : Nat) (f : CtlSt → CtlSt) : (h.modCtl o f).lanes = h.lanes := rfl
@[simp] theorem Hub.modCtl_eths (h : Hub) (o : Nat) (f : CtlSt → CtlSt) : (h.modCtl o f).eths = h.eths := rfl
@[simp] theorem Hub.modCtl_ins (h : Hub) (o : Nat) (f : CtlSt → CtlSt) : (h.modCtl o f).ins = h.ins := rfl
@[simp] theorem Hub.modCtl_drvs (h : Hub) (o : Nat) (f : CtlSt → CtlSt) : (h.modCtl o f).drvs = h.drvs := rfl
@[simp] theorem Hub.modCtl_cores (h : Hub) (o : Nat) (f : CtlSt → CtlSt) : (h.modCtl o f).cores = h.cores := rfl
@[simp] theorem Hub.modCtl_fes (h : Hub) (o : Nat) (f : CtlSt → CtlSt) : (h.modCtl o f).fes = h.fes := rfl
@[simp] theorem Hub.modCtl_align (h : Hub) (o : Nat) (f : CtlSt → CtlSt) : (h.modCtl o f).align = h.align := rfl
@[simp] theorem Hub.modCtl_relIdx (h : Hub) (o : Nat) (f : CtlSt → CtlSt) : (h.modCtl o f).relIdx = h.relIdx := rfl
@[simp] theorem Hub.modCtl_chains (h : Hub) (o : Nat) (f : CtlSt → CtlSt) : (h.modCtl o f).chains = h.chains := rfl
@[simp] theorem Hub.modCtl_outs (h : Hub) (o : Nat) (f : CtlSt → CtlSt) : (h.modCtl o f).outs = h.outs := rfl
@[simp] theorem Hub.modCtl_loopOuts (h : Hub) (o : Nat) (f : CtlSt → CtlSt) : (h.modCtl o f).loopOuts = h.loopOuts := rfl
@[simp] theorem Hub.modCtl_injOuts (h : Hub) (o : Nat) (f : CtlSt → CtlSt) : (h.modCtl o f).injOuts = h.injOuts := rfl
@[simp] theorem Hub.modCtl_dets (h : Hub) (o : Nat) (f : CtlSt → CtlSt) : (h.modCtl o f).dets = h.dets := rfl
@[simp] theorem Hub.modCtl_cal (h : Hub) (o : Nat) (f : CtlSt → CtlSt) : (h.modCtl o f).cal = h.cal := rfl
@[simp] theorem Hub.modCtl_strings (h : Hub) (o : Nat) (f : CtlSt → CtlSt) : (h.modCtl o f).strings = h.strings := rfl
@[simp] theorem Hub.modCtl_pats (h : Hub) (o : Nat) (f : CtlSt → CtlSt) : (h.modCtl o f).pats = h.pats := rfl
@[simp] theorem Hub.modCtl_trig (h : Hub) (o : Nat) (f : CtlSt → CtlSt) : (h.modCtl o f).trig = h.trig := rfl
@[simp] theorem Hub.modCtl_streams (h : Hub) (o : Nat) (f : CtlSt → CtlSt) : (h.modCtl o f).streams = h.streams := rfl
@[simp] theorem Hub.modCtl_queues (h : Hub) (o : Nat) (f : CtlSt → CtlSt) : (h.modCtl o f).queues = h.queues := rfl
@[simp] theorem Hub.modCtl_fwds (h : Hub) (o : Nat) (f : CtlSt → CtlSt) : (h.modCtl o f).fwds = h.fwds := rfl
@[simp] theorem Hub.modCtl_wins (h : Hub) (o : Nat) (f : CtlSt → CtlSt) : (h.modCtl o f).wins = h.wins := rfl
@[simp] theorem Hub.modCtl_lost (h : Hub) (o : Nat) (f : CtlSt → CtlSt) : (h.modCtl o f).lost = h.lost := rfl
@[simp] theorem Hub.modCtl_gaps (h : Hub) (o : Nat) (f : CtlSt → CtlSt) : (h.modCtl o f).gaps = h.gaps := rfl
@[simp] theorem Hub.modCtl_recMoves (h : Hub) (o : Nat) (f : CtlSt → CtlSt) : (h.modCtl o f).recMoves = h.recMoves := rfl
@[simp] theorem Hub.modCtl_undeclared (h : Hub) (o : Nat) (f : CtlSt → CtlSt) : (h.modCtl o f).undeclared = h.undeclared := rfl
@[simp] theorem Hub.modCtl_divergeLog (h : Hub) (o : Nat) (f : CtlSt → CtlSt) : (h.modCtl o f).divergeLog = h.divergeLog := rfl
@[simp] theorem Hub.modCtl_slots (h : Hub) (o : Nat) (f : CtlSt → CtlSt) : (h.modCtl o f).slots = h.slots := rfl
@[simp] theorem Hub.modCtl_capFull0 (h : Hub) (o : Nat) (f : CtlSt → CtlSt) : (h.modCtl o f).capFull0 = h.capFull0 := rfl
@[simp] theorem Hub.modCtl_capFull1 (h : Hub) (o : Nat) (f : CtlSt → CtlSt) : (h.modCtl o f).capFull1 = h.capFull1 := rfl
@[simp] theorem Hub.modCtl_red (h : Hub) (o : Nat) (f : CtlSt → CtlSt) : (h.modCtl o f).red = h.red := rfl
@[simp] theorem Hub.modCtl_mir (h : Hub) (o : Nat) (f : CtlSt → CtlSt) : (h.modCtl o f).mir = h.mir := rfl
@[simp] theorem Hub.modCtl_pow (h : Hub) (o : Nat) (f : CtlSt → CtlSt) : (h.modCtl o f).pow = h.pow := rfl
@[simp] theorem Hub.modCtl_srv (h : Hub) (o : Nat) (f : CtlSt → CtlSt) : (h.modCtl o f).srv = h.srv := rfl
@[simp] theorem Hub.modCtl_out (h : Hub) (o : Nat) (f : CtlSt → CtlSt) : (h.modCtl o f).out = h.out := rfl
@[simp] theorem Hub.modCtl_free (h : Hub) (o : Nat) (f : CtlSt → CtlSt) : (h.modCtl o f).free = h.free := rfl
@[simp] theorem Hub.modCtl_get (h : Hub) (o : Nat) (f : CtlSt → CtlSt) (key : Nat) : (h.modCtl o f).get key = h.get key := rfl

/-! ### `modTrace` -/

@[simp] theorem Hub.modTrace_part (h : Hub) (b : Nat) (f : TraceSt → TraceSt) : (h.modTrace b f).part = h.part := rfl
@[simp] theorem Hub.modTrace_objs (h : Hub) (b : Nat) (f : TraceSt → TraceSt) : (h.modTrace b f).objs = h.objs := rfl
@[simp] theorem Hub.modTrace_time (h : Hub) (b : Nat) (f : TraceSt → TraceSt) : (h.modTrace b f).time = h.time := rfl
@[simp] theorem Hub.modTrace_cb (h : Hub) (b : Nat) (f : TraceSt → TraceSt) : (h.modTrace b f).cb = h.cb := rfl
@[simp] theorem Hub.modTrace_lanes (h : Hub) (b : Nat) (f : TraceSt → TraceSt) : (h.modTrace b f).lanes = h.lanes := rfl
@[simp] theorem Hub.modTrace_eths (h : Hub) (b : Nat) (f : TraceSt → TraceSt) : (h.modTrace b f).eths = h.eths := rfl
@[simp] theorem Hub.modTrace_ins (h : Hub) (b : Nat) (f : TraceSt → TraceSt) : (h.modTrace b f).ins = h.ins := rfl
@[simp] theorem Hub.modTrace_drvs (h : Hub) (b : Nat) (f : TraceSt → TraceSt) : (h.modTrace b f).drvs = h.drvs := rfl
@[simp] theorem Hub.modTrace_cores (h : Hub) (b : Nat) (f : TraceSt → TraceSt) : (h.modTrace b f).cores = h.cores := rfl
@[simp] theorem Hub.modTrace_fes (h : Hub) (b : Nat) (f : TraceSt → TraceSt) : (h.modTrace b f).fes = h.fes := rfl
@[simp] theorem Hub.modTrace_align (h : Hub) (b : Nat) (f : TraceSt → TraceSt) : (h.modTrace b f).align = h.align := rfl
@[simp] theorem Hub.modTrace_relIdx (h : Hub) (b : Nat) (f : TraceSt → TraceSt) : (h.modTrace b f).relIdx = h.relIdx := rfl
@[simp] theorem Hub.modTrace_chains (h : Hub) (b : Nat) (f : TraceSt → TraceSt) : (h.modTrace b f).chains = h.chains := rfl
@[simp] theorem Hub.modTrace_outs (h : Hub) (b : Nat) (f : TraceSt → TraceSt) : (h.modTrace b f).outs = h.outs := rfl
@[simp] theorem Hub.modTrace_loopOuts (h : Hub) (b : Nat) (f : TraceSt → TraceSt) : (h.modTrace b f).loopOuts = h.loopOuts := rfl
@[simp] theorem Hub.modTrace_injOuts (h : Hub) (b : Nat) (f : TraceSt → TraceSt) : (h.modTrace b f).injOuts = h.injOuts := rfl
@[simp] theorem Hub.modTrace_dets (h : Hub) (b : Nat) (f : TraceSt → TraceSt) : (h.modTrace b f).dets = h.dets := rfl
@[simp] theorem Hub.modTrace_cal (h : Hub) (b : Nat) (f : TraceSt → TraceSt) : (h.modTrace b f).cal = h.cal := rfl
@[simp] theorem Hub.modTrace_strings (h : Hub) (b : Nat) (f : TraceSt → TraceSt) : (h.modTrace b f).strings = h.strings := rfl
@[simp] theorem Hub.modTrace_pats (h : Hub) (b : Nat) (f : TraceSt → TraceSt) : (h.modTrace b f).pats = h.pats := rfl
@[simp] theorem Hub.modTrace_trig (h : Hub) (b : Nat) (f : TraceSt → TraceSt) : (h.modTrace b f).trig = h.trig := rfl
@[simp] theorem Hub.modTrace_streams (h : Hub) (b : Nat) (f : TraceSt → TraceSt) : (h.modTrace b f).streams = h.streams := rfl
@[simp] theorem Hub.modTrace_queues (h : Hub) (b : Nat) (f : TraceSt → TraceSt) : (h.modTrace b f).queues = h.queues := rfl
@[simp] theorem Hub.modTrace_fwds (h : Hub) (b : Nat) (f : TraceSt → TraceSt) : (h.modTrace b f).fwds = h.fwds := rfl
@[simp] theorem Hub.modTrace_wins (h : Hub) (b : Nat) (f : TraceSt → TraceSt) : (h.modTrace b f).wins = h.wins := rfl
@[simp] theorem Hub.modTrace_lost (h : Hub) (b : Nat) (f : TraceSt → TraceSt) : (h.modTrace b f).lost = h.lost := rfl
@[simp] theorem Hub.modTrace_gaps (h : Hub) (b : Nat) (f : TraceSt → TraceSt) : (h.modTrace b f).gaps = h.gaps := rfl
@[simp] theorem Hub.modTrace_recMoves (h : Hub) (b : Nat) (f : TraceSt → TraceSt) : (h.modTrace b f).recMoves = h.recMoves := rfl
@[simp] theorem Hub.modTrace_undeclared (h : Hub) (b : Nat) (f : TraceSt → TraceSt) : (h.modTrace b f).undeclared = h.undeclared := rfl
@[simp] theorem Hub.modTrace_divergeLog (h : Hub) (b : Nat) (f : TraceSt → TraceSt) : (h.modTrace b f).divergeLog = h.divergeLog := rfl
@[simp] theorem Hub.modTrace_slots (h : Hub) (b : Nat) (f : TraceSt → TraceSt) : (h.modTrace b f).slots = h.slots := rfl
@[simp] theorem Hub.modTrace_capFull0 (h : Hub) (b : Nat) (f : TraceSt → TraceSt) : (h.modTrace b f).capFull0 = h.capFull0 := rfl
@[simp] theorem Hub.modTrace_capFull1 (h : Hub) (b : Nat) (f : TraceSt → TraceSt) : (h.modTrace b f).capFull1 = h.capFull1 := rfl
@[simp] theorem Hub.modTrace_red (h : Hub) (b : Nat) (f : TraceSt → TraceSt) : (h.modTrace b f).red = h.red := rfl
@[simp] theorem Hub.modTrace_mir (h : Hub) (b : Nat) (f : TraceSt → TraceSt) : (h.modTrace b f).mir = h.mir := rfl
@[simp] theorem Hub.modTrace_pow (h : Hub) (b : Nat) (f : TraceSt → TraceSt) : (h.modTrace b f).pow = h.pow := rfl
@[simp] theorem Hub.modTrace_srv (h : Hub) (b : Nat) (f : TraceSt → TraceSt) : (h.modTrace b f).srv = h.srv := rfl
@[simp] theorem Hub.modTrace_out (h : Hub) (b : Nat) (f : TraceSt → TraceSt) : (h.modTrace b f).out = h.out := rfl
@[simp] theorem Hub.modTrace_free (h : Hub) (b : Nat) (f : TraceSt → TraceSt) : (h.modTrace b f).free = h.free := rfl
@[simp] theorem Hub.modTrace_get (h : Hub) (b : Nat) (f : TraceSt → TraceSt) (key : Nat) : (h.modTrace b f).get key = h.get key := rfl

/-! ### `modStr` -/

@[simp] theorem Hub.modStr_part (h : Hub) (n : Nat) (f : FlSt → FlSt) : (h.modStr n f).part = h.part := rfl
@[simp] theorem Hub.modStr_objs (h : Hub) (n : Nat) (f : FlSt → FlSt) : (h.modStr n f).objs = h.objs := rfl
@[simp] theorem Hub.modStr_time (h : Hub) (n : Nat) (f : FlSt → FlSt) : (h.modStr n f).time = h.time := rfl
@[simp] theorem Hub.modStr_cb (h : Hub) (n : Nat) (f : FlSt → FlSt) : (h.modStr n f).cb = h.cb := rfl
@[simp] theorem Hub.modStr_lanes (h : Hub) (n : Nat) (f : FlSt → FlSt) : (h.modStr n f).lanes = h.lanes := rfl
@[simp] theorem Hub.modStr_eths (h : Hub) (n : Nat) (f : FlSt → FlSt) : (h.modStr n f).eths = h.eths := rfl
@[simp] theorem Hub.modStr_ins (h : Hub) (n : Nat) (f : FlSt → FlSt) : (h.modStr n f).ins = h.ins := rfl
@[simp] theorem Hub.modStr_drvs (h : Hub) (n : Nat) (f : FlSt → FlSt) : (h.modStr n f).drvs = h.drvs := rfl
@[simp] theorem Hub.modStr_cores (h : Hub) (n : Nat) (f : FlSt → FlSt) : (h.modStr n f).cores = h.cores := rfl
@[simp] theorem Hub.modStr_fes (h : Hub) (n : Nat) (f : FlSt → FlSt) : (h.modStr n f).fes = h.fes := rfl
@[simp] theorem Hub.modStr_align (h : Hub) (n : Nat) (f : FlSt → FlSt) : (h.modStr n f).align = h.align := rfl
@[simp] theorem Hub.modStr_relIdx (h : Hub) (n : Nat) (f : FlSt → FlSt) : (h.modStr n f).relIdx = h.relIdx := rfl
@[simp] theorem Hub.modStr_chains (h : Hub) (n : Nat) (f : FlSt → FlSt) : (h.modStr n f).chains = h.chains := rfl
@[simp] theorem Hub.modStr_outs (h : Hub) (n : Nat) (f : FlSt → FlSt) : (h.modStr n f).outs = h.outs := rfl
@[simp] theorem Hub.modStr_loopOuts (h : Hub) (n : Nat) (f : FlSt → FlSt) : (h.modStr n f).loopOuts = h.loopOuts := rfl
@[simp] theorem Hub.modStr_injOuts (h : Hub) (n : Nat) (f : FlSt → FlSt) : (h.modStr n f).injOuts = h.injOuts := rfl
@[simp] theorem Hub.modStr_dets (h : Hub) (n : Nat) (f : FlSt → FlSt) : (h.modStr n f).dets = h.dets := rfl
@[simp] theorem Hub.modStr_cal (h : Hub) (n : Nat) (f : FlSt → FlSt) : (h.modStr n f).cal = h.cal := rfl
@[simp] theorem Hub.modStr_eng (h : Hub) (n : Nat) (f : FlSt → FlSt) : (h.modStr n f).eng = h.eng := rfl
@[simp] theorem Hub.modStr_pats (h : Hub) (n : Nat) (f : FlSt → FlSt) : (h.modStr n f).pats = h.pats := rfl
@[simp] theorem Hub.modStr_trig (h : Hub) (n : Nat) (f : FlSt → FlSt) : (h.modStr n f).trig = h.trig := rfl
@[simp] theorem Hub.modStr_streams (h : Hub) (n : Nat) (f : FlSt → FlSt) : (h.modStr n f).streams = h.streams := rfl
@[simp] theorem Hub.modStr_queues (h : Hub) (n : Nat) (f : FlSt → FlSt) : (h.modStr n f).queues = h.queues := rfl
@[simp] theorem Hub.modStr_fwds (h : Hub) (n : Nat) (f : FlSt → FlSt) : (h.modStr n f).fwds = h.fwds := rfl
@[simp] theorem Hub.modStr_wins (h : Hub) (n : Nat) (f : FlSt → FlSt) : (h.modStr n f).wins = h.wins := rfl
@[simp] theorem Hub.modStr_lost (h : Hub) (n : Nat) (f : FlSt → FlSt) : (h.modStr n f).lost = h.lost := rfl
@[simp] theorem Hub.modStr_gaps (h : Hub) (n : Nat) (f : FlSt → FlSt) : (h.modStr n f).gaps = h.gaps := rfl
@[simp] theorem Hub.modStr_recMoves (h : Hub) (n : Nat) (f : FlSt → FlSt) : (h.modStr n f).recMoves = h.recMoves := rfl
@[simp] theorem Hub.modStr_undeclared (h : Hub) (n : Nat) (f : FlSt → FlSt) : (h.modStr n f).undeclared = h.undeclared := rfl
@[simp] theorem Hub.modStr_divergeLog (h : Hub) (n : Nat) (f : FlSt → FlSt) : (h.modStr n f).divergeLog = h.divergeLog := rfl
@[simp] theorem Hub.modStr_slots (h : Hub) (n : Nat) (f : FlSt → FlSt) : (h.modStr n f).slots = h.slots := rfl
@[simp] theorem Hub.modStr_capFull0 (h : Hub) (n : Nat) (f : FlSt → FlSt) : (h.modStr n f).capFull0 = h.capFull0 := rfl
@[simp] theorem Hub.modStr_capFull1 (h : Hub) (n : Nat) (f : FlSt → FlSt) : (h.modStr n f).capFull1 = h.capFull1 := rfl
@[simp] theorem Hub.modStr_red (h : Hub) (n : Nat) (f : FlSt → FlSt) : (h.modStr n f).red = h.red := rfl
@[simp] theorem Hub.modStr_mir (h : Hub) (n : Nat) (f : FlSt → FlSt) : (h.modStr n f).mir = h.mir := rfl
@[simp] theorem Hub.modStr_pow (h : Hub) (n : Nat) (f : FlSt → FlSt) : (h.modStr n f).pow = h.pow := rfl
@[simp] theorem Hub.modStr_srv (h : Hub) (n : Nat) (f : FlSt → FlSt) : (h.modStr n f).srv = h.srv := rfl
@[simp] theorem Hub.modStr_out (h : Hub) (n : Nat) (f : FlSt → FlSt) : (h.modStr n f).out = h.out := rfl
@[simp] theorem Hub.modStr_free (h : Hub) (n : Nat) (f : FlSt → FlSt) : (h.modStr n f).free = h.free := rfl
@[simp] theorem Hub.modStr_get (h : Hub) (n : Nat) (f : FlSt → FlSt) (key : Nat) : (h.modStr n f).get key = h.get key := rfl

/-! ### `modPat` -/

@[simp] theorem Hub.modPat_part (h : Hub) (g : Nat) (f : PatSt → PatSt) : (h.modPat g f).part = h.part := rfl
@[simp] theorem Hub.modPat_objs (h : Hub) (g : Nat) (f : PatSt → PatSt) : (h.modPat g f).objs = h.objs := rfl
@[simp] theorem Hub.modPat_time (h : Hub) (g : Nat) (f : PatSt → PatSt) : (h.modPat g f).time = h.time := rfl
@[simp] theorem Hub.modPat_cb (h : Hub) (g : Nat) (f : PatSt → PatSt) : (h.modPat g f).cb = h.cb := rfl
@[simp] theorem Hub.modPat_lanes (h : Hub) (g : Nat) (f : PatSt → PatSt) : (h.modPat g f).lanes = h.lanes := rfl
@[simp] theorem Hub.modPat_eths (h : Hub) (g : Nat) (f : PatSt → PatSt) : (h.modPat g f).eths = h.eths := rfl
@[simp] theorem Hub.modPat_ins (h : Hub) (g : Nat) (f : PatSt → PatSt) : (h.modPat g f).ins = h.ins := rfl
@[simp] theorem Hub.modPat_drvs (h : Hub) (g : Nat) (f : PatSt → PatSt) : (h.modPat g f).drvs = h.drvs := rfl
@[simp] theorem Hub.modPat_cores (h : Hub) (g : Nat) (f : PatSt → PatSt) : (h.modPat g f).cores = h.cores := rfl
@[simp] theorem Hub.modPat_fes (h : Hub) (g : Nat) (f : PatSt → PatSt) : (h.modPat g f).fes = h.fes := rfl
@[simp] theorem Hub.modPat_align (h : Hub) (g : Nat) (f : PatSt → PatSt) : (h.modPat g f).align = h.align := rfl
@[simp] theorem Hub.modPat_relIdx (h : Hub) (g : Nat) (f : PatSt → PatSt) : (h.modPat g f).relIdx = h.relIdx := rfl
@[simp] theorem Hub.modPat_chains (h : Hub) (g : Nat) (f : PatSt → PatSt) : (h.modPat g f).chains = h.chains := rfl
@[simp] theorem Hub.modPat_outs (h : Hub) (g : Nat) (f : PatSt → PatSt) : (h.modPat g f).outs = h.outs := rfl
@[simp] theorem Hub.modPat_loopOuts (h : Hub) (g : Nat) (f : PatSt → PatSt) : (h.modPat g f).loopOuts = h.loopOuts := rfl
@[simp] theorem Hub.modPat_injOuts (h : Hub) (g : Nat) (f : PatSt → PatSt) : (h.modPat g f).injOuts = h.injOuts := rfl
@[simp] theorem Hub.modPat_dets (h : Hub) (g : Nat) (f : PatSt → PatSt) : (h.modPat g f).dets = h.dets := rfl
@[simp] theorem Hub.modPat_cal (h : Hub) (g : Nat) (f : PatSt → PatSt) : (h.modPat g f).cal = h.cal := rfl
@[simp] theorem Hub.modPat_eng (h : Hub) (g : Nat) (f : PatSt → PatSt) : (h.modPat g f).eng = h.eng := rfl
@[simp] theorem Hub.modPat_strings (h : Hub) (g : Nat) (f : PatSt → PatSt) : (h.modPat g f).strings = h.strings := rfl
@[simp] theorem Hub.modPat_trig (h : Hub) (g : Nat) (f : PatSt → PatSt) : (h.modPat g f).trig = h.trig := rfl
@[simp] theorem Hub.modPat_streams (h : Hub) (g : Nat) (f : PatSt → PatSt) : (h.modPat g f).streams = h.streams := rfl
@[simp] theorem Hub.modPat_queues (h : Hub) (g : Nat) (f : PatSt → PatSt) : (h.modPat g f).queues = h.queues := rfl
@[simp] theorem Hub.modPat_fwds (h : Hub) (g : Nat) (f : PatSt → PatSt) : (h.modPat g f).fwds = h.fwds := rfl
@[simp] theorem Hub.modPat_wins (h : Hub) (g : Nat) (f : PatSt → PatSt) : (h.modPat g f).wins = h.wins := rfl
@[simp] theorem Hub.modPat_lost (h : Hub) (g : Nat) (f : PatSt → PatSt) : (h.modPat g f).lost = h.lost := rfl
@[simp] theorem Hub.modPat_gaps (h : Hub) (g : Nat) (f : PatSt → PatSt) : (h.modPat g f).gaps = h.gaps := rfl
@[simp] theorem Hub.modPat_recMoves (h : Hub) (g : Nat) (f : PatSt → PatSt) : (h.modPat g f).recMoves = h.recMoves := rfl
@[simp] theorem Hub.modPat_undeclared (h : Hub) (g : Nat) (f : PatSt → PatSt) : (h.modPat g f).undeclared = h.undeclared := rfl
@[simp] theorem Hub.modPat_divergeLog (h : Hub) (g : Nat) (f : PatSt → PatSt) : (h.modPat g f).divergeLog = h.divergeLog := rfl
@[simp] theorem Hub.modPat_slots (h : Hub) (g : Nat) (f : PatSt → PatSt) : (h.modPat g f).slots = h.slots := rfl
@[simp] theorem Hub.modPat_capFull0 (h : Hub) (g : Nat) (f : PatSt → PatSt) : (h.modPat g f).capFull0 = h.capFull0 := rfl
@[simp] theorem Hub.modPat_capFull1 (h : Hub) (g : Nat) (f : PatSt → PatSt) : (h.modPat g f).capFull1 = h.capFull1 := rfl
@[simp] theorem Hub.modPat_red (h : Hub) (g : Nat) (f : PatSt → PatSt) : (h.modPat g f).red = h.red := rfl
@[simp] theorem Hub.modPat_mir (h : Hub) (g : Nat) (f : PatSt → PatSt) : (h.modPat g f).mir = h.mir := rfl
@[simp] theorem Hub.modPat_pow (h : Hub) (g : Nat) (f : PatSt → PatSt) : (h.modPat g f).pow = h.pow := rfl
@[simp] theorem Hub.modPat_srv (h : Hub) (g : Nat) (f : PatSt → PatSt) : (h.modPat g f).srv = h.srv := rfl
@[simp] theorem Hub.modPat_out (h : Hub) (g : Nat) (f : PatSt → PatSt) : (h.modPat g f).out = h.out := rfl
@[simp] theorem Hub.modPat_free (h : Hub) (g : Nat) (f : PatSt → PatSt) : (h.modPat g f).free = h.free := rfl
@[simp] theorem Hub.modPat_get (h : Hub) (g : Nat) (f : PatSt → PatSt) (key : Nat) : (h.modPat g f).get key = h.get key := rfl

/-! ### `modStream` -/

@[simp] theorem Hub.modStream_part (h : Hub) (q : Nat) (f : StreamSt → StreamSt) : (h.modStream q f).part = h.part := rfl
@[simp] theorem Hub.modStream_objs (h : Hub) (q : Nat) (f : StreamSt → StreamSt) : (h.modStream q f).objs = h.objs := rfl
@[simp] theorem Hub.modStream_time (h : Hub) (q : Nat) (f : StreamSt → StreamSt) : (h.modStream q f).time = h.time := rfl
@[simp] theorem Hub.modStream_cb (h : Hub) (q : Nat) (f : StreamSt → StreamSt) : (h.modStream q f).cb = h.cb := rfl
@[simp] theorem Hub.modStream_lanes (h : Hub) (q : Nat) (f : StreamSt → StreamSt) : (h.modStream q f).lanes = h.lanes := rfl
@[simp] theorem Hub.modStream_eths (h : Hub) (q : Nat) (f : StreamSt → StreamSt) : (h.modStream q f).eths = h.eths := rfl
@[simp] theorem Hub.modStream_ins (h : Hub) (q : Nat) (f : StreamSt → StreamSt) : (h.modStream q f).ins = h.ins := rfl
@[simp] theorem Hub.modStream_drvs (h : Hub) (q : Nat) (f : StreamSt → StreamSt) : (h.modStream q f).drvs = h.drvs := rfl
@[simp] theorem Hub.modStream_cores (h : Hub) (q : Nat) (f : StreamSt → StreamSt) : (h.modStream q f).cores = h.cores := rfl
@[simp] theorem Hub.modStream_fes (h : Hub) (q : Nat) (f : StreamSt → StreamSt) : (h.modStream q f).fes = h.fes := rfl
@[simp] theorem Hub.modStream_align (h : Hub) (q : Nat) (f : StreamSt → StreamSt) : (h.modStream q f).align = h.align := rfl
@[simp] theorem Hub.modStream_relIdx (h : Hub) (q : Nat) (f : StreamSt → StreamSt) : (h.modStream q f).relIdx = h.relIdx := rfl
@[simp] theorem Hub.modStream_chains (h : Hub) (q : Nat) (f : StreamSt → StreamSt) : (h.modStream q f).chains = h.chains := rfl
@[simp] theorem Hub.modStream_outs (h : Hub) (q : Nat) (f : StreamSt → StreamSt) : (h.modStream q f).outs = h.outs := rfl
@[simp] theorem Hub.modStream_loopOuts (h : Hub) (q : Nat) (f : StreamSt → StreamSt) : (h.modStream q f).loopOuts = h.loopOuts := rfl
@[simp] theorem Hub.modStream_injOuts (h : Hub) (q : Nat) (f : StreamSt → StreamSt) : (h.modStream q f).injOuts = h.injOuts := rfl
@[simp] theorem Hub.modStream_dets (h : Hub) (q : Nat) (f : StreamSt → StreamSt) : (h.modStream q f).dets = h.dets := rfl
@[simp] theorem Hub.modStream_cal (h : Hub) (q : Nat) (f : StreamSt → StreamSt) : (h.modStream q f).cal = h.cal := rfl
@[simp] theorem Hub.modStream_eng (h : Hub) (q : Nat) (f : StreamSt → StreamSt) : (h.modStream q f).eng = h.eng := rfl
@[simp] theorem Hub.modStream_strings (h : Hub) (q : Nat) (f : StreamSt → StreamSt) : (h.modStream q f).strings = h.strings := rfl
@[simp] theorem Hub.modStream_pats (h : Hub) (q : Nat) (f : StreamSt → StreamSt) : (h.modStream q f).pats = h.pats := rfl
@[simp] theorem Hub.modStream_trig (h : Hub) (q : Nat) (f : StreamSt → StreamSt) : (h.modStream q f).trig = h.trig := rfl
@[simp] theorem Hub.modStream_queues (h : Hub) (q : Nat) (f : StreamSt → StreamSt) : (h.modStream q f).queues = h.queues := rfl
@[simp] theorem Hub.modStream_fwds (h : Hub) (q : Nat) (f : StreamSt → StreamSt) : (h.modStream q f).fwds = h.fwds := rfl
@[simp] theorem Hub.modStream_wins (h : Hub) (q : Nat) (f : StreamSt → StreamSt) : (h.modStream q f).wins = h.wins := rfl
@[simp] theorem Hub.modStream_lost (h : Hub) (q : Nat) (f : StreamSt → StreamSt) : (h.modStream q f).lost = h.lost := rfl
@[simp] theorem Hub.modStream_gaps (h : Hub) (q : Nat) (f : StreamSt → StreamSt) : (h.modStream q f).gaps = h.gaps := rfl
@[simp] theorem Hub.modStream_recMoves (h : Hub) (q : Nat) (f : StreamSt → StreamSt) : (h.modStream q f).recMoves = h.recMoves := rfl
@[simp] theorem Hub.modStream_undeclared (h : Hub) (q : Nat) (f : StreamSt → StreamSt) : (h.modStream q f).undeclared = h.undeclared := rfl
@[simp] theorem Hub.modStream_divergeLog (h : Hub) (q : Nat) (f : StreamSt → StreamSt) : (h.modStream q f).divergeLog = h.divergeLog := rfl
@[simp] theorem Hub.modStream_slots (h : Hub) (q : Nat) (f : StreamSt → StreamSt) : (h.modStream q f).slots = h.slots := rfl
@[simp] theorem Hub.modStream_capFull0 (h : Hub) (q : Nat) (f : StreamSt → StreamSt) : (h.modStream q f).capFull0 = h.capFull0 := rfl
@[simp] theorem Hub.modStream_capFull1 (h : Hub) (q : Nat) (f : StreamSt → StreamSt) : (h.modStream q f).capFull1 = h.capFull1 := rfl
@[simp] theorem Hub.modStream_red (h : Hub) (q : Nat) (f : StreamSt → StreamSt) : (h.modStream q f).red = h.red := rfl
@[simp] theorem Hub.modStream_mir (h : Hub) (q : Nat) (f : StreamSt → StreamSt) : (h.modStream q f).mir = h.mir := rfl
@[simp] theorem Hub.modStream_pow (h : Hub) (q : Nat) (f : StreamSt → StreamSt) : (h.modStream q f).pow = h.pow := rfl
@[simp] theorem Hub.modStream_srv (h : Hub) (q : Nat) (f : StreamSt → StreamSt) : (h.modStream q f).srv = h.srv := rfl
@[simp] theorem Hub.modStream_out (h : Hub) (q : Nat) (f : StreamSt → StreamSt) : (h.modStream q f).out = h.out := rfl
@[simp] theorem Hub.modStream_free (h : Hub) (q : Nat) (f : StreamSt → StreamSt) : (h.modStream q f).free = h.free := rfl
@[simp] theorem Hub.modStream_get (h : Hub) (q : Nat) (f : StreamSt → StreamSt) (key : Nat) : (h.modStream q f).get key = h.get key := rfl

/-! ### `modQueue` -/

@[simp] theorem Hub.modQueue_part (h : Hub) (x : Nat) (f : QueueSt → QueueSt) : (h.modQueue x f).part = h.part := rfl
@[simp] theorem Hub.modQueue_objs (h : Hub) (x : Nat) (f : QueueSt → QueueSt) : (h.modQueue x f).objs = h.objs := rfl
@[simp] theorem Hub.modQueue_time (h : Hub) (x : Nat) (f : QueueSt → QueueSt) : (h.modQueue x f).time = h.time := rfl
@[simp] theorem Hub.modQueue_cb (h : Hub) (x : Nat) (f : QueueSt → QueueSt) : (h.modQueue x f).cb = h.cb := rfl
@[simp] theorem Hub.modQueue_lanes (h : Hub) (x : Nat) (f : QueueSt → QueueSt) : (h.modQueue x f).lanes = h.lanes := rfl
@[simp] theorem Hub.modQueue_eths (h : Hub) (x : Nat) (f : QueueSt → QueueSt) : (h.modQueue x f).eths = h.eths := rfl
@[simp] theorem Hub.modQueue_ins (h : Hub) (x : Nat) (f : QueueSt → QueueSt) : (h.modQueue x f).ins = h.ins := rfl
@[simp] theorem Hub.modQueue_drvs (h : Hub) (x : Nat) (f : QueueSt → QueueSt) : (h.modQueue x f).drvs = h.drvs := rfl
@[simp] theorem Hub.modQueue_cores (h : Hub) (x : Nat) (f : QueueSt → QueueSt) : (h.modQueue x f).cores = h.cores := rfl
@[simp] theorem Hub.modQueue_fes (h : Hub) (x : Nat) (f : QueueSt → QueueSt) : (h.modQueue x f).fes = h.fes := rfl
@[simp] theorem Hub.modQueue_align (h : Hub) (x : Nat) (f : QueueSt → QueueSt) : (h.modQueue x f).align = h.align := rfl
@[simp] theorem Hub.modQueue_relIdx (h : Hub) (x : Nat) (f : QueueSt → QueueSt) : (h.modQueue x f).relIdx = h.relIdx := rfl
@[simp] theorem Hub.modQueue_chains (h : Hub) (x : Nat) (f : QueueSt → QueueSt) : (h.modQueue x f).chains = h.chains := rfl
@[simp] theorem Hub.modQueue_outs (h : Hub) (x : Nat) (f : QueueSt → QueueSt) : (h.modQueue x f).outs = h.outs := rfl
@[simp] theorem Hub.modQueue_loopOuts (h : Hub) (x : Nat) (f : QueueSt → QueueSt) : (h.modQueue x f).loopOuts = h.loopOuts := rfl
@[simp] theorem Hub.modQueue_injOuts (h : Hub) (x : Nat) (f : QueueSt → QueueSt) : (h.modQueue x f).injOuts = h.injOuts := rfl
@[simp] theorem Hub.modQueue_dets (h : Hub) (x : Nat) (f : QueueSt → QueueSt) : (h.modQueue x f).dets = h.dets := rfl
@[simp] theorem Hub.modQueue_cal (h : Hub) (x : Nat) (f : QueueSt → QueueSt) : (h.modQueue x f).cal = h.cal := rfl
@[simp] theorem Hub.modQueue_eng (h : Hub) (x : Nat) (f : QueueSt → QueueSt) : (h.modQueue x f).eng = h.eng := rfl
@[simp] theorem Hub.modQueue_strings (h : Hub) (x : Nat) (f : QueueSt → QueueSt) : (h.modQueue x f).strings = h.strings := rfl
@[simp] theorem Hub.modQueue_pats (h : Hub) (x : Nat) (f : QueueSt → QueueSt) : (h.modQueue x f).pats = h.pats := rfl
@[simp] theorem Hub.modQueue_trig (h : Hub) (x : Nat) (f : QueueSt → QueueSt) : (h.modQueue x f).trig = h.trig := rfl
@[simp] theorem Hub.modQueue_streams (h : Hub) (x : Nat) (f : QueueSt → QueueSt) : (h.modQueue x f).streams = h.streams := rfl
@[simp] theorem Hub.modQueue_fwds (h : Hub) (x : Nat) (f : QueueSt → QueueSt) : (h.modQueue x f).fwds = h.fwds := rfl
@[simp] theorem Hub.modQueue_wins (h : Hub) (x : Nat) (f : QueueSt → QueueSt) : (h.modQueue x f).wins = h.wins := rfl
@[simp] theorem Hub.modQueue_lost (h : Hub) (x : Nat) (f : QueueSt → QueueSt) : (h.modQueue x f).lost = h.lost := rfl
@[simp] theorem Hub.modQueue_gaps (h : Hub) (x : Nat) (f : QueueSt → QueueSt) : (h.modQueue x f).gaps = h.gaps := rfl
@[simp] theorem Hub.modQueue_recMoves (h : Hub) (x : Nat) (f : QueueSt → QueueSt) : (h.modQueue x f).recMoves = h.recMoves := rfl
@[simp] theorem Hub.modQueue_undeclared (h : Hub) (x : Nat) (f : QueueSt → QueueSt) : (h.modQueue x f).undeclared = h.undeclared := rfl
@[simp] theorem Hub.modQueue_divergeLog (h : Hub) (x : Nat) (f : QueueSt → QueueSt) : (h.modQueue x f).divergeLog = h.divergeLog := rfl
@[simp] theorem Hub.modQueue_slots (h : Hub) (x : Nat) (f : QueueSt → QueueSt) : (h.modQueue x f).slots = h.slots := rfl
@[simp] theorem Hub.modQueue_capFull0 (h : Hub) (x : Nat) (f : QueueSt → QueueSt) : (h.modQueue x f).capFull0 = h.capFull0 := rfl
@[simp] theorem Hub.modQueue_capFull1 (h : Hub) (x : Nat) (f : QueueSt → QueueSt) : (h.modQueue x f).capFull1 = h.capFull1 := rfl
@[simp] theorem Hub.modQueue_red (h : Hub) (x : Nat) (f : QueueSt → QueueSt) : (h.modQueue x f).red = h.red := rfl
@[simp] theorem Hub.modQueue_mir (h : Hub) (x : Nat) (f : QueueSt → QueueSt) : (h.modQueue x f).mir = h.mir := rfl
@[simp] theorem Hub.modQueue_pow (h : Hub) (x : Nat) (f : QueueSt → QueueSt) : (h.modQueue x f).pow = h.pow := rfl
@[simp] theorem Hub.modQueue_srv (h : Hub) (x : Nat) (f : QueueSt → QueueSt) : (h.modQueue x f).srv = h.srv := rfl
@[simp] theorem Hub.modQueue_out (h : Hub) (x : Nat) (f : QueueSt → QueueSt) : (h.modQueue x f).out = h.out := rfl
@[simp] theorem Hub.modQueue_free (h : Hub) (x : Nat) (f : QueueSt → QueueSt) : (h.modQueue x f).free = h.free := rfl
@[simp] theorem Hub.modQueue_get (h : Hub) (x : Nat) (f : QueueSt → QueueSt) (key : Nat) : (h.modQueue x f).get key = h.get key := rfl

/-! ### `modFwd` -/

@[simp] theorem Hub.modFwd_part (h : Hub) (j : Nat) (f : FwdSt → FwdSt) : (h.modFwd j f).part = h.part := rfl
@[simp] theorem Hub.modFwd_objs (h : Hub) (j : Nat) (f : FwdSt → FwdSt) : (h.modFwd j f).objs = h.objs := rfl
@[simp] theorem Hub.modFwd_time (h : Hub) (j : Nat) (f : FwdSt → FwdSt) : (h.modFwd j f).time = h.time := rfl
@[simp] theorem Hub.modFwd_cb (h : Hub) (j : Nat) (f : FwdSt → FwdSt) : (h.modFwd j f).cb = h.cb := rfl
@[simp] theorem Hub.modFwd_lanes (h : Hub) (j : Nat) (f : FwdSt → FwdSt) : (h.modFwd j f).lanes = h.lanes := rfl
@[simp] theorem Hub.modFwd_eths (h : Hub) (j : Nat) (f : FwdSt → FwdSt) : (h.modFwd j f).eths = h.eths := rfl
@[simp] theorem Hub.modFwd_ins (h : Hub) (j : Nat) (f : FwdSt → FwdSt) : (h.modFwd j f).ins = h.ins := rfl
@[simp] theorem Hub.modFwd_drvs (h : Hub) (j : Nat) (f : FwdSt → FwdSt) : (h.modFwd j f).drvs = h.drvs := rfl
@[simp] theorem Hub.modFwd_cores (h : Hub) (j : Nat) (f : FwdSt → FwdSt) : (h.modFwd j f).cores = h.cores := rfl
@[simp] theorem Hub.modFwd_fes (h : Hub) (j : Nat) (f : FwdSt → FwdSt) : (h.modFwd j f).fes = h.fes := rfl
@[simp] theorem Hub.modFwd_align (h : Hub) (j : Nat) (f : FwdSt → FwdSt) : (h.modFwd j f).align = h.align := rfl
@[simp] theorem Hub.modFwd_relIdx (h : Hub) (j : Nat) (f : FwdSt → FwdSt) : (h.modFwd j f).relIdx = h.relIdx := rfl
@[simp] theorem Hub.modFwd_chains (h : Hub) (j : Nat) (f : FwdSt → FwdSt) : (h.modFwd j f).chains = h.chains := rfl
@[simp] theorem Hub.modFwd_outs (h : Hub) (j : Nat) (f : FwdSt → FwdSt) : (h.modFwd j f).outs = h.outs := rfl
@[simp] theorem Hub.modFwd_loopOuts (h : Hub) (j : Nat) (f : FwdSt → FwdSt) : (h.modFwd j f).loopOuts = h.loopOuts := rfl
@[simp] theorem Hub.modFwd_injOuts (h : Hub) (j : Nat) (f : FwdSt → FwdSt) : (h.modFwd j f).injOuts = h.injOuts := rfl
@[simp] theorem Hub.modFwd_dets (h : Hub) (j : Nat) (f : FwdSt → FwdSt) : (h.modFwd j f).dets = h.dets := rfl
@[simp] theorem Hub.modFwd_cal (h : Hub) (j : Nat) (f : FwdSt → FwdSt) : (h.modFwd j f).cal = h.cal := rfl
@[simp] theorem Hub.modFwd_eng (h : Hub) (j : Nat) (f : FwdSt → FwdSt) : (h.modFwd j f).eng = h.eng := rfl
@[simp] theorem Hub.modFwd_strings (h : Hub) (j : Nat) (f : FwdSt → FwdSt) : (h.modFwd j f).strings = h.strings := rfl
@[simp] theorem Hub.modFwd_pats (h : Hub) (j : Nat) (f : FwdSt → FwdSt) : (h.modFwd j f).pats = h.pats := rfl
@[simp] theorem Hub.modFwd_trig (h : Hub) (j : Nat) (f : FwdSt → FwdSt) : (h.modFwd j f).trig = h.trig := rfl
@[simp] theorem Hub.modFwd_streams (h : Hub) (j : Nat) (f : FwdSt → FwdSt) : (h.modFwd j f).streams = h.streams := rfl
@[simp] theorem Hub.modFwd_queues (h : Hub) (j : Nat) (f : FwdSt → FwdSt) : (h.modFwd j f).queues = h.queues := rfl
@[simp] theorem Hub.modFwd_wins (h : Hub) (j : Nat) (f : FwdSt → FwdSt) : (h.modFwd j f).wins = h.wins := rfl
@[simp] theorem Hub.modFwd_lost (h : Hub) (j : Nat) (f : FwdSt → FwdSt) : (h.modFwd j f).lost = h.lost := rfl
@[simp] theorem Hub.modFwd_gaps (h : Hub) (j : Nat) (f : FwdSt → FwdSt) : (h.modFwd j f).gaps = h.gaps := rfl
@[simp] theorem Hub.modFwd_recMoves (h : Hub) (j : Nat) (f : FwdSt → FwdSt) : (h.modFwd j f).recMoves = h.recMoves := rfl
@[simp] theorem Hub.modFwd_undeclared (h : Hub) (j : Nat) (f : FwdSt → FwdSt) : (h.modFwd j f).undeclared = h.undeclared := rfl
@[simp] theorem Hub.modFwd_divergeLog (h : Hub) (j : Nat) (f : FwdSt → FwdSt) : (h.modFwd j f).divergeLog = h.divergeLog := rfl
@[simp] theorem Hub.modFwd_slots (h : Hub) (j : Nat) (f : FwdSt → FwdSt) : (h.modFwd j f).slots = h.slots := rfl
@[simp] theorem Hub.modFwd_capFull0 (h : Hub) (j : Nat) (f : FwdSt → FwdSt) : (h.modFwd j f).capFull0 = h.capFull0 := rfl
@[simp] theorem Hub.modFwd_capFull1 (h : Hub) (j : Nat) (f : FwdSt → FwdSt) : (h.modFwd j f).capFull1 = h.capFull1 := rfl
@[simp] theorem Hub.modFwd_red (h : Hub) (j : Nat) (f : FwdSt → FwdSt) : (h.modFwd j f).red = h.red := rfl
@[simp] theorem Hub.modFwd_mir (h : Hub) (j : Nat) (f : FwdSt → FwdSt) : (h.modFwd j f).mir = h.mir := rfl
@[simp] theorem Hub.modFwd_pow (h : Hub) (j : Nat) (f : FwdSt → FwdSt) : (h.modFwd j f).pow = h.pow := rfl
@[simp] theorem Hub.modFwd_srv (h : Hub) (j : Nat) (f : FwdSt → FwdSt) : (h.modFwd j f).srv = h.srv := rfl
@[simp] theorem Hub.modFwd_out (h : Hub) (j : Nat) (f : FwdSt → FwdSt) : (h.modFwd j f).out = h.out := rfl
@[simp] theorem Hub.modFwd_free (h : Hub) (j : Nat) (f : FwdSt → FwdSt) : (h.modFwd j f).free = h.free := rfl
@[simp] theorem Hub.modFwd_get (h : Hub) (j : Nat) (f : FwdSt → FwdSt) (key : Nat) : (h.modFwd j f).get key = h.get key := rfl

/-! ### `modAlign` -/

@[simp] theorem Hub.modAlign_part (h : Hub) (x i : Nat) (f : AlignSt → AlignSt) : (h.modAlign x i f).part = h.part := rfl
@[simp] theorem Hub.modAlign_objs (h : Hub) (x i : Nat) (f : AlignSt → AlignSt) : (h.modAlign x i f).objs = h.objs := rfl
@[simp] theorem Hub.modAlign_time (h : Hub) (x i : Nat) (f : AlignSt → AlignSt) : (h.modAlign x i f).time = h.time := rfl
@[simp] theorem Hub.modAlign_cb (h : Hub) (x i : Nat) (f : AlignSt → AlignSt) : (h.modAlign x i f).cb = h.cb := rfl
@[simp] theorem Hub.modAlign_lanes (h : Hub) (x i : Nat) (f : AlignSt → AlignSt) : (h.modAlign x i f).lanes = h.lanes := rfl
@[simp] theorem Hub.modAlign_eths (h : Hub) (x i : Nat) (f : AlignSt → AlignSt) : (h.modAlign x i f).eths = h.eths := rfl
@[simp] theorem Hub.modAlign_ins (h : Hub) (x i : Nat) (f : AlignSt → AlignSt) : (h.modAlign x i f).ins = h.ins := rfl
@[simp] theorem Hub.modAlign_drvs (h : Hub) (x i : Nat) (f : AlignSt → AlignSt) : (h.modAlign x i f).drvs = h.drvs := rfl
@[simp] theorem Hub.modAlign_cores (h : Hub) (x i : Nat) (f : AlignSt → AlignSt) : (h.modAlign x i f).cores = h.cores := rfl
@[simp] theorem Hub.modAlign_fes (h : Hub) (x i : Nat) (f : AlignSt → AlignSt) : (h.modAlign x i f).fes = h.fes := rfl
@[simp] theorem Hub.modAlign_relIdx (h : Hub) (x i : Nat) (f : AlignSt → AlignSt) : (h.modAlign x i f).relIdx = h.relIdx := rfl
@[simp] theorem Hub.modAlign_chains (h : Hub) (x i : Nat) (f : AlignSt → AlignSt) : (h.modAlign x i f).chains = h.chains := rfl
@[simp] theorem Hub.modAlign_outs (h : Hub) (x i : Nat) (f : AlignSt → AlignSt) : (h.modAlign x i f).outs = h.outs := rfl
@[simp] theorem Hub.modAlign_loopOuts (h : Hub) (x i : Nat) (f : AlignSt → AlignSt) : (h.modAlign x i f).loopOuts = h.loopOuts := rfl
@[simp] theorem Hub.modAlign_injOuts (h : Hub) (x i : Nat) (f : AlignSt → AlignSt) : (h.modAlign x i f).injOuts = h.injOuts := rfl
@[simp] theorem Hub.modAlign_dets (h : Hub) (x i : Nat) (f : AlignSt → AlignSt) : (h.modAlign x i f).dets = h.dets := rfl
@[simp] theorem Hub.modAlign_cal (h : Hub) (x i : Nat) (f : AlignSt → AlignSt) : (h.modAlign x i f).cal = h.cal := rfl
@[simp] theorem Hub.modAlign_eng (h : Hub) (x i : Nat) (f : AlignSt → AlignSt) : (h.modAlign x i f).eng = h.eng := rfl
@[simp] theorem Hub.modAlign_strings (h : Hub) (x i : Nat) (f : AlignSt → AlignSt) : (h.modAlign x i f).strings = h.strings := rfl
@[simp] theorem Hub.modAlign_pats (h : Hub) (x i : Nat) (f : AlignSt → AlignSt) : (h.modAlign x i f).pats = h.pats := rfl
@[simp] theorem Hub.modAlign_trig (h : Hub) (x i : Nat) (f : AlignSt → AlignSt) : (h.modAlign x i f).trig = h.trig := rfl
@[simp] theorem Hub.modAlign_streams (h : Hub) (x i : Nat) (f : AlignSt → AlignSt) : (h.modAlign x i f).streams = h.streams := rfl
@[simp] theorem Hub.modAlign_queues (h : Hub) (x i : Nat) (f : AlignSt → AlignSt) : (h.modAlign x i f).queues = h.queues := rfl
@[simp] theorem Hub.modAlign_fwds (h : Hub) (x i : Nat) (f : AlignSt → AlignSt) : (h.modAlign x i f).fwds = h.fwds := rfl
@[simp] theorem Hub.modAlign_wins (h : Hub) (x i : Nat) (f : AlignSt → AlignSt) : (h.modAlign x i f).wins = h.wins := rfl
@[simp] theorem Hub.modAlign_lost (h : Hub) (x i : Nat) (f : AlignSt → AlignSt) : (h.modAlign x i f).lost = h.lost := rfl
@[simp] theorem Hub.modAlign_gaps (h : Hub) (x i : Nat) (f : AlignSt → AlignSt) : (h.modAlign x i f).gaps = h.gaps := rfl
@[simp] theorem Hub.modAlign_recMoves (h : Hub) (x i : Nat) (f : AlignSt → AlignSt) : (h.modAlign x i f).recMoves = h.recMoves := rfl
@[simp] theorem Hub.modAlign_undeclared (h : Hub) (x i : Nat) (f : AlignSt → AlignSt) : (h.modAlign x i f).undeclared = h.undeclared := rfl
@[simp] theorem Hub.modAlign_divergeLog (h : Hub) (x i : Nat) (f : AlignSt → AlignSt) : (h.modAlign x i f).divergeLog = h.divergeLog := rfl
@[simp] theorem Hub.modAlign_slots (h : Hub) (x i : Nat) (f : AlignSt → AlignSt) : (h.modAlign x i f).slots = h.slots := rfl
@[simp] theorem Hub.modAlign_capFull0 (h : Hub) (x i : Nat) (f : AlignSt → AlignSt) : (h.modAlign x i f).capFull0 = h.capFull0 := rfl
@[simp] theorem Hub.modAlign_capFull1 (h : Hub) (x i : Nat) (f : AlignSt → AlignSt) : (h.modAlign x i f).capFull1 = h.capFull1 := rfl
@[simp] theorem Hub.modAlign_red (h : Hub) (x i : Nat) (f : AlignSt → AlignSt) : (h.modAlign x i f).red = h.red := rfl
@[simp] theorem Hub.modAlign_mir (h : Hub) (x i : Nat) (f : AlignSt → AlignSt) : (h.modAlign x i f).mir = h.mir := rfl
@[simp] theorem Hub.modAlign_pow (h : Hub) (x i : Nat) (f : AlignSt → AlignSt) : (h.modAlign x i f).pow = h.pow := rfl
@[simp] theorem Hub.modAlign_srv (h : Hub) (x i : Nat) (f : AlignSt → AlignSt) : (h.modAlign x i f).srv = h.srv := rfl
@[simp] theorem Hub.modAlign_out (h : Hub) (x i : Nat) (f : AlignSt → AlignSt) : (h.modAlign x i f).out = h.out := rfl
@[simp] theorem Hub.modAlign_free (h : Hub) (x i : Nat) (f : AlignSt → AlignSt) : (h.modAlign x i f).free = h.free := rfl
@[simp] theorem Hub.modAlign_get (h : Hub) (x i : Nat) (f : AlignSt → AlignSt) (key : Nat) : (h.modAlign x i f).get key = h.get key := rfl

/-! ### `modLane` -/

@[simp] theorem Hub.modLane_part (h : Hub) (l : Nat) (f : LaneSt → LaneSt) : (h.modLane l f).part = h.part := rfl
@[simp] theorem Hub.modLane_objs (h : Hub) (l : Nat) (f : LaneSt → LaneSt) : (h.modLane l f).objs = h.objs := rfl
@[simp] theorem Hub.modLane_time (h : Hub) (l : Nat) (f : LaneSt → LaneSt) : (h.modLane l f).time = h.time := rfl
@[simp] theorem Hub.modLane_cb (h : Hub) (l : Nat) (f : LaneSt → LaneSt) : (h.modLane l f).cb = h.cb := rfl
@[simp] theorem Hub.modLane_eths (h : Hub) (l : Nat) (f : LaneSt → LaneSt) : (h.modLane l f).eths = h.eths := rfl
@[simp] theorem Hub.modLane_ins (h : Hub) (l : Nat) (f : LaneSt → LaneSt) : (h.modLane l f).ins = h.ins := rfl
@[simp] theorem Hub.modLane_drvs (h : Hub) (l : Nat) (f : LaneSt → LaneSt) : (h.modLane l f).drvs = h.drvs := rfl
@[simp] theorem Hub.modLane_cores (h : Hub) (l : Nat) (f : LaneSt → LaneSt) : (h.modLane l f).cores = h.cores := rfl
@[simp] theorem Hub.modLane_fes (h : Hub) (l : Nat) (f : LaneSt → LaneSt) : (h.modLane l f).fes = h.fes := rfl
@[simp] theorem Hub.modLane_align (h : Hub) (l : Nat) (f : LaneSt → LaneSt) : (h.modLane l f).align = h.align := rfl
@[simp] theorem Hub.modLane_relIdx (h : Hub) (l : Nat) (f : LaneSt → LaneSt) : (h.modLane l f).relIdx = h.relIdx := rfl
@[simp] theorem Hub.modLane_chains (h : Hub) (l : Nat) (f : LaneSt → LaneSt) : (h.modLane l f).chains = h.chains := rfl
@[simp] theorem Hub.modLane_outs (h : Hub) (l : Nat) (f : LaneSt → LaneSt) : (h.modLane l f).outs = h.outs := rfl
@[simp] theorem Hub.modLane_loopOuts (h : Hub) (l : Nat) (f : LaneSt → LaneSt) : (h.modLane l f).loopOuts = h.loopOuts := rfl
@[simp] theorem Hub.modLane_injOuts (h : Hub) (l : Nat) (f : LaneSt → LaneSt) : (h.modLane l f).injOuts = h.injOuts := rfl
@[simp] theorem Hub.modLane_dets (h : Hub) (l : Nat) (f : LaneSt → LaneSt) : (h.modLane l f).dets = h.dets := rfl
@[simp] theorem Hub.modLane_cal (h : Hub) (l : Nat) (f : LaneSt → LaneSt) : (h.modLane l f).cal = h.cal := rfl
@[simp] theorem Hub.modLane_eng (h : Hub) (l : Nat) (f : LaneSt → LaneSt) : (h.modLane l f).eng = h.eng := rfl
@[simp] theorem Hub.modLane_strings (h : Hub) (l : Nat) (f : LaneSt → LaneSt) : (h.modLane l f).strings = h.strings := rfl
@[simp] theorem Hub.modLane_pats (h : Hub) (l : Nat) (f : LaneSt → LaneSt) : (h.modLane l f).pats = h.pats := rfl
@[simp] theorem Hub.modLane_trig (h : Hub) (l : Nat) (f : LaneSt → LaneSt) : (h.modLane l f).trig = h.trig := rfl
@[simp] theorem Hub.modLane_streams (h : Hub) (l : Nat) (f : LaneSt → LaneSt) : (h.modLane l f).streams = h.streams := rfl
@[simp] theorem Hub.modLane_queues (h : Hub) (l : Nat) (f : LaneSt → LaneSt) : (h.modLane l f).queues = h.queues := rfl
@[simp] theorem Hub.modLane_fwds (h : Hub) (l : Nat) (f : LaneSt → LaneSt) : (h.modLane l f).fwds = h.fwds := rfl
@[simp] theorem Hub.modLane_wins (h : Hub) (l : Nat) (f : LaneSt → LaneSt) : (h.modLane l f).wins = h.wins := rfl
@[simp] theorem Hub.modLane_lost (h : Hub) (l : Nat) (f : LaneSt → LaneSt) : (h.modLane l f).lost = h.lost := rfl
@[simp] theorem Hub.modLane_gaps (h : Hub) (l : Nat) (f : LaneSt → LaneSt) : (h.modLane l f).gaps = h.gaps := rfl
@[simp] theorem Hub.modLane_recMoves (h : Hub) (l : Nat) (f : LaneSt → LaneSt) : (h.modLane l f).recMoves = h.recMoves := rfl
@[simp] theorem Hub.modLane_undeclared (h : Hub) (l : Nat) (f : LaneSt → LaneSt) : (h.modLane l f).undeclared = h.undeclared := rfl
@[simp] theorem Hub.modLane_divergeLog (h : Hub) (l : Nat) (f : LaneSt → LaneSt) : (h.modLane l f).divergeLog = h.divergeLog := rfl
@[simp] theorem Hub.modLane_slots (h : Hub) (l : Nat) (f : LaneSt → LaneSt) : (h.modLane l f).slots = h.slots := rfl
@[simp] theorem Hub.modLane_capFull0 (h : Hub) (l : Nat) (f : LaneSt → LaneSt) : (h.modLane l f).capFull0 = h.capFull0 := rfl
@[simp] theorem Hub.modLane_capFull1 (h : Hub) (l : Nat) (f : LaneSt → LaneSt) : (h.modLane l f).capFull1 = h.capFull1 := rfl
@[simp] theorem Hub.modLane_red (h : Hub) (l : Nat) (f : LaneSt → LaneSt) : (h.modLane l f).red = h.red := rfl
@[simp] theorem Hub.modLane_mir (h : Hub) (l : Nat) (f : LaneSt → LaneSt) : (h.modLane l f).mir = h.mir := rfl
@[simp] theorem Hub.modLane_pow (h : Hub) (l : Nat) (f : LaneSt → LaneSt) : (h.modLane l f).pow = h.pow := rfl
@[simp] theorem Hub.modLane_srv (h : Hub) (l : Nat) (f : LaneSt → LaneSt) : (h.modLane l f).srv = h.srv := rfl
@[simp] theorem Hub.modLane_out (h : Hub) (l : Nat) (f : LaneSt → LaneSt) : (h.modLane l f).out = h.out := rfl
@[simp] theorem Hub.modLane_free (h : Hub) (l : Nat) (f : LaneSt → LaneSt) : (h.modLane l f).free = h.free := rfl
@[simp] theorem Hub.modLane_get (h : Hub) (l : Nat) (f : LaneSt → LaneSt) (key : Nat) : (h.modLane l f).get key = h.get key := rfl

/-! ### `modEth` -/

@[simp] theorem Hub.modEth_part (h : Hub) (u : Nat) (f : EthSt → EthSt) : (h.modEth u f).part = h.part := rfl
@[simp] theorem Hub.modEth_objs (h : Hub) (u : Nat) (f : EthSt → EthSt) : (h.modEth u f).objs = h.objs := rfl
@[simp] theorem Hub.modEth_time (h : Hub) (u : Nat) (f : EthSt → EthSt) : (h.modEth u f).time = h.time := rfl
@[simp] theorem Hub.modEth_cb (h : Hub) (u : Nat) (f : EthSt → EthSt) : (h.modEth u f).cb = h.cb := rfl
@[simp] theorem Hub.modEth_lanes (h : Hub) (u : Nat) (f : EthSt → EthSt) : (h.modEth u f).lanes = h.lanes := rfl
@[simp] theorem Hub.modEth_ins (h : Hub) (u : Nat) (f : EthSt → EthSt) : (h.modEth u f).ins = h.ins := rfl
@[simp] theorem Hub.modEth_drvs (h : Hub) (u : Nat) (f : EthSt → EthSt) : (h.modEth u f).drvs = h.drvs := rfl
@[simp] theorem Hub.modEth_cores (h : Hub) (u : Nat) (f : EthSt → EthSt) : (h.modEth u f).cores = h.cores := rfl
@[simp] theorem Hub.modEth_fes (h : Hub) (u : Nat) (f : EthSt → EthSt) : (h.modEth u f).fes = h.fes := rfl
@[simp] theorem Hub.modEth_align (h : Hub) (u : Nat) (f : EthSt → EthSt) : (h.modEth u f).align = h.align := rfl
@[simp] theorem Hub.modEth_relIdx (h : Hub) (u : Nat) (f : EthSt → EthSt) : (h.modEth u f).relIdx = h.relIdx := rfl
@[simp] theorem Hub.modEth_chains (h : Hub) (u : Nat) (f : EthSt → EthSt) : (h.modEth u f).chains = h.chains := rfl
@[simp] theorem Hub.modEth_outs (h : Hub) (u : Nat) (f : EthSt → EthSt) : (h.modEth u f).outs = h.outs := rfl
@[simp] theorem Hub.modEth_loopOuts (h : Hub) (u : Nat) (f : EthSt → EthSt) : (h.modEth u f).loopOuts = h.loopOuts := rfl
@[simp] theorem Hub.modEth_injOuts (h : Hub) (u : Nat) (f : EthSt → EthSt) : (h.modEth u f).injOuts = h.injOuts := rfl
@[simp] theorem Hub.modEth_dets (h : Hub) (u : Nat) (f : EthSt → EthSt) : (h.modEth u f).dets = h.dets := rfl
@[simp] theorem Hub.modEth_cal (h : Hub) (u : Nat) (f : EthSt → EthSt) : (h.modEth u f).cal = h.cal := rfl
@[simp] theorem Hub.modEth_eng (h : Hub) (u : Nat) (f : EthSt → EthSt) : (h.modEth u f).eng = h.eng := rfl
@[simp] theorem Hub.modEth_strings (h : Hub) (u : Nat) (f : EthSt → EthSt) : (h.modEth u f).strings = h.strings := rfl
@[simp] theorem Hub.modEth_pats (h : Hub) (u : Nat) (f : EthSt → EthSt) : (h.modEth u f).pats = h.pats := rfl
@[simp] theorem Hub.modEth_trig (h : Hub) (u : Nat) (f : EthSt → EthSt) : (h.modEth u f).trig = h.trig := rfl
@[simp] theorem Hub.modEth_streams (h : Hub) (u : Nat) (f : EthSt → EthSt) : (h.modEth u f).streams = h.streams := rfl
@[simp] theorem Hub.modEth_queues (h : Hub) (u : Nat) (f : EthSt → EthSt) : (h.modEth u f).queues = h.queues := rfl
@[simp] theorem Hub.modEth_fwds (h : Hub) (u : Nat) (f : EthSt → EthSt) : (h.modEth u f).fwds = h.fwds := rfl
@[simp] theorem Hub.modEth_wins (h : Hub) (u : Nat) (f : EthSt → EthSt) : (h.modEth u f).wins = h.wins := rfl
@[simp] theorem Hub.modEth_lost (h : Hub) (u : Nat) (f : EthSt → EthSt) : (h.modEth u f).lost = h.lost := rfl
@[simp] theorem Hub.modEth_gaps (h : Hub) (u : Nat) (f : EthSt → EthSt) : (h.modEth u f).gaps = h.gaps := rfl
@[simp] theorem Hub.modEth_recMoves (h : Hub) (u : Nat) (f : EthSt → EthSt) : (h.modEth u f).recMoves = h.recMoves := rfl
@[simp] theorem Hub.modEth_undeclared (h : Hub) (u : Nat) (f : EthSt → EthSt) : (h.modEth u f).undeclared = h.undeclared := rfl
@[simp] theorem Hub.modEth_divergeLog (h : Hub) (u : Nat) (f : EthSt → EthSt) : (h.modEth u f).divergeLog = h.divergeLog := rfl
@[simp] theorem Hub.modEth_slots (h : Hub) (u : Nat) (f : EthSt → EthSt) : (h.modEth u f).slots = h.slots := rfl
@[simp] theorem Hub.modEth_capFull0 (h : Hub) (u : Nat) (f : EthSt → EthSt) : (h.modEth u f).capFull0 = h.capFull0 := rfl
@[simp] theorem Hub.modEth_capFull1 (h : Hub) (u : Nat) (f : EthSt → EthSt) : (h.modEth u f).capFull1 = h.capFull1 := rfl
@[simp] theorem Hub.modEth_red (h : Hub) (u : Nat) (f : EthSt → EthSt) : (h.modEth u f).red = h.red := rfl
@[simp] theorem Hub.modEth_mir (h : Hub) (u : Nat) (f : EthSt → EthSt) : (h.modEth u f).mir = h.mir := rfl
@[simp] theorem Hub.modEth_pow (h : Hub) (u : Nat) (f : EthSt → EthSt) : (h.modEth u f).pow = h.pow := rfl
@[simp] theorem Hub.modEth_srv (h : Hub) (u : Nat) (f : EthSt → EthSt) : (h.modEth u f).srv = h.srv := rfl
@[simp] theorem Hub.modEth_out (h : Hub) (u : Nat) (f : EthSt → EthSt) : (h.modEth u f).out = h.out := rfl
@[simp] theorem Hub.modEth_free (h : Hub) (u : Nat) (f : EthSt → EthSt) : (h.modEth u f).free = h.free := rfl
@[simp] theorem Hub.modEth_get (h : Hub) (u : Nat) (f : EthSt → EthSt) (key : Nat) : (h.modEth u f).get key = h.get key := rfl

/-! ### `modArb` -/

@[simp] theorem Hub.modArb_part (h : Hub) (i : Nat) (f : ArbSt → ArbSt) : (h.modArb i f).part = h.part := rfl
@[simp] theorem Hub.modArb_objs (h : Hub) (i : Nat) (f : ArbSt → ArbSt) : (h.modArb i f).objs = h.objs := rfl
@[simp] theorem Hub.modArb_time (h : Hub) (i : Nat) (f : ArbSt → ArbSt) : (h.modArb i f).time = h.time := rfl
@[simp] theorem Hub.modArb_cb (h : Hub) (i : Nat) (f : ArbSt → ArbSt) : (h.modArb i f).cb = h.cb := rfl
@[simp] theorem Hub.modArb_lanes (h : Hub) (i : Nat) (f : ArbSt → ArbSt) : (h.modArb i f).lanes = h.lanes := rfl
@[simp] theorem Hub.modArb_eths (h : Hub) (i : Nat) (f : ArbSt → ArbSt) : (h.modArb i f).eths = h.eths := rfl
@[simp] theorem Hub.modArb_ins (h : Hub) (i : Nat) (f : ArbSt → ArbSt) : (h.modArb i f).ins = h.ins := rfl
@[simp] theorem Hub.modArb_drvs (h : Hub) (i : Nat) (f : ArbSt → ArbSt) : (h.modArb i f).drvs = h.drvs := rfl
@[simp] theorem Hub.modArb_cores (h : Hub) (i : Nat) (f : ArbSt → ArbSt) : (h.modArb i f).cores = h.cores := rfl
@[simp] theorem Hub.modArb_fes (h : Hub) (i : Nat) (f : ArbSt → ArbSt) : (h.modArb i f).fes = h.fes := rfl
@[simp] theorem Hub.modArb_align (h : Hub) (i : Nat) (f : ArbSt → ArbSt) : (h.modArb i f).align = h.align := rfl
@[simp] theorem Hub.modArb_relIdx (h : Hub) (i : Nat) (f : ArbSt → ArbSt) : (h.modArb i f).relIdx = h.relIdx := rfl
@[simp] theorem Hub.modArb_chains (h : Hub) (i : Nat) (f : ArbSt → ArbSt) : (h.modArb i f).chains = h.chains := rfl
@[simp] theorem Hub.modArb_outs (h : Hub) (i : Nat) (f : ArbSt → ArbSt) : (h.modArb i f).outs = h.outs := rfl
@[simp] theorem Hub.modArb_loopOuts (h : Hub) (i : Nat) (f : ArbSt → ArbSt) : (h.modArb i f).loopOuts = h.loopOuts := rfl
@[simp] theorem Hub.modArb_injOuts (h : Hub) (i : Nat) (f : ArbSt → ArbSt) : (h.modArb i f).injOuts = h.injOuts := rfl
@[simp] theorem Hub.modArb_dets (h : Hub) (i : Nat) (f : ArbSt → ArbSt) : (h.modArb i f).dets = h.dets := rfl
@[simp] theorem Hub.modArb_cal (h : Hub) (i : Nat) (f : ArbSt → ArbSt) : (h.modArb i f).cal = h.cal := rfl
@[simp] theorem Hub.modArb_eng (h : Hub) (i : Nat) (f : ArbSt → ArbSt) : (h.modArb i f).eng = h.eng := rfl
@[simp] theorem Hub.modArb_strings (h : Hub) (i : Nat) (f : ArbSt → ArbSt) : (h.modArb i f).strings = h.strings := rfl
@[simp] theorem Hub.modArb_pats (h : Hub) (i : Nat) (f : ArbSt → ArbSt) : (h.modArb i f).pats = h.pats := rfl
@[simp] theorem Hub.modArb_trig (h : Hub) (i : Nat) (f : ArbSt → ArbSt) : (h.modArb i f).trig = h.trig := rfl
@[simp] theorem Hub.modArb_streams (h : Hub) (i : Nat) (f : ArbSt → ArbSt) : (h.modArb i f).streams = h.streams := rfl
@[simp] theorem Hub.modArb_queues (h : Hub) (i : Nat) (f : ArbSt → ArbSt) : (h.modArb i f).queues = h.queues := rfl
@[simp] theorem Hub.modArb_fwds (h : Hub) (i : Nat) (f : ArbSt → ArbSt) : (h.modArb i f).fwds = h.fwds := rfl
@[simp] theorem Hub.modArb_wins (h : Hub) (i : Nat) (f : ArbSt → ArbSt) : (h.modArb i f).wins = h.wins := rfl
@[simp] theorem Hub.modArb_lost (h : Hub) (i : Nat) (f : ArbSt → ArbSt) : (h.modArb i f).lost = h.lost := rfl
@[simp] theorem Hub.modArb_gaps (h : Hub) (i : Nat) (f : ArbSt → ArbSt) : (h.modArb i f).gaps = h.gaps := rfl
@[simp] theorem Hub.modArb_recMoves (h : Hub) (i : Nat) (f : ArbSt → ArbSt) : (h.modArb i f).recMoves = h.recMoves := rfl
@[simp] theorem Hub.modArb_undeclared (h : Hub) (i : Nat) (f : ArbSt → ArbSt) : (h.modArb i f).undeclared = h.undeclared := rfl
@[simp] theorem Hub.modArb_divergeLog (h : Hub) (i : Nat) (f : ArbSt → ArbSt) : (h.modArb i f).divergeLog = h.divergeLog := rfl
@[simp] theorem Hub.modArb_slots (h : Hub) (i : Nat) (f : ArbSt → ArbSt) : (h.modArb i f).slots = h.slots := rfl
@[simp] theorem Hub.modArb_capFull0 (h : Hub) (i : Nat) (f : ArbSt → ArbSt) : (h.modArb i f).capFull0 = h.capFull0 := rfl
@[simp] theorem Hub.modArb_capFull1 (h : Hub) (i : Nat) (f : ArbSt → ArbSt) : (h.modArb i f).capFull1 = h.capFull1 := rfl
@[simp] theorem Hub.modArb_mir (h : Hub) (i : Nat) (f : ArbSt → ArbSt) : (h.modArb i f).mir = h.mir := rfl
@[simp] theorem Hub.modArb_pow (h : Hub) (i : Nat) (f : ArbSt → ArbSt) : (h.modArb i f).pow = h.pow := rfl
@[simp] theorem Hub.modArb_srv (h : Hub) (i : Nat) (f : ArbSt → ArbSt) : (h.modArb i f).srv = h.srv := rfl
@[simp] theorem Hub.modArb_out (h : Hub) (i : Nat) (f : ArbSt → ArbSt) : (h.modArb i f).out = h.out := rfl
@[simp] theorem Hub.modArb_free (h : Hub) (i : Nat) (f : ArbSt → ArbSt) : (h.modArb i f).free = h.free := rfl
@[simp] theorem Hub.modArb_get (h : Hub) (i : Nat) (f : ArbSt → ArbSt) (key : Nat) : (h.modArb i f).get key = h.get key := rfl

/-! ### `modHdie` -/

@[simp] theorem Hub.modHdie_part (h : Hub) (x : Nat) (f : DieRed → DieRed) : (h.modHdie x f).part = h.part := rfl
@[simp] theorem Hub.modHdie_objs (h : Hub) (x : Nat) (f : DieRed → DieRed) : (h.modHdie x f).objs = h.objs := rfl
@[simp] theorem Hub.modHdie_time (h : Hub) (x : Nat) (f : DieRed → DieRed) : (h.modHdie x f).time = h.time := rfl
@[simp] theorem Hub.modHdie_cb (h : Hub) (x : Nat) (f : DieRed → DieRed) : (h.modHdie x f).cb = h.cb := rfl
@[simp] theorem Hub.modHdie_lanes (h : Hub) (x : Nat) (f : DieRed → DieRed) : (h.modHdie x f).lanes = h.lanes := rfl
@[simp] theorem Hub.modHdie_eths (h : Hub) (x : Nat) (f : DieRed → DieRed) : (h.modHdie x f).eths = h.eths := rfl
@[simp] theorem Hub.modHdie_ins (h : Hub) (x : Nat) (f : DieRed → DieRed) : (h.modHdie x f).ins = h.ins := rfl
@[simp] theorem Hub.modHdie_drvs (h : Hub) (x : Nat) (f : DieRed → DieRed) : (h.modHdie x f).drvs = h.drvs := rfl
@[simp] theorem Hub.modHdie_cores (h : Hub) (x : Nat) (f : DieRed → DieRed) : (h.modHdie x f).cores = h.cores := rfl
@[simp] theorem Hub.modHdie_fes (h : Hub) (x : Nat) (f : DieRed → DieRed) : (h.modHdie x f).fes = h.fes := rfl
@[simp] theorem Hub.modHdie_align (h : Hub) (x : Nat) (f : DieRed → DieRed) : (h.modHdie x f).align = h.align := rfl
@[simp] theorem Hub.modHdie_relIdx (h : Hub) (x : Nat) (f : DieRed → DieRed) : (h.modHdie x f).relIdx = h.relIdx := rfl
@[simp] theorem Hub.modHdie_chains (h : Hub) (x : Nat) (f : DieRed → DieRed) : (h.modHdie x f).chains = h.chains := rfl
@[simp] theorem Hub.modHdie_outs (h : Hub) (x : Nat) (f : DieRed → DieRed) : (h.modHdie x f).outs = h.outs := rfl
@[simp] theorem Hub.modHdie_loopOuts (h : Hub) (x : Nat) (f : DieRed → DieRed) : (h.modHdie x f).loopOuts = h.loopOuts := rfl
@[simp] theorem Hub.modHdie_injOuts (h : Hub) (x : Nat) (f : DieRed → DieRed) : (h.modHdie x f).injOuts = h.injOuts := rfl
@[simp] theorem Hub.modHdie_dets (h : Hub) (x : Nat) (f : DieRed → DieRed) : (h.modHdie x f).dets = h.dets := rfl
@[simp] theorem Hub.modHdie_cal (h : Hub) (x : Nat) (f : DieRed → DieRed) : (h.modHdie x f).cal = h.cal := rfl
@[simp] theorem Hub.modHdie_eng (h : Hub) (x : Nat) (f : DieRed → DieRed) : (h.modHdie x f).eng = h.eng := rfl
@[simp] theorem Hub.modHdie_strings (h : Hub) (x : Nat) (f : DieRed → DieRed) : (h.modHdie x f).strings = h.strings := rfl
@[simp] theorem Hub.modHdie_pats (h : Hub) (x : Nat) (f : DieRed → DieRed) : (h.modHdie x f).pats = h.pats := rfl
@[simp] theorem Hub.modHdie_trig (h : Hub) (x : Nat) (f : DieRed → DieRed) : (h.modHdie x f).trig = h.trig := rfl
@[simp] theorem Hub.modHdie_streams (h : Hub) (x : Nat) (f : DieRed → DieRed) : (h.modHdie x f).streams = h.streams := rfl
@[simp] theorem Hub.modHdie_queues (h : Hub) (x : Nat) (f : DieRed → DieRed) : (h.modHdie x f).queues = h.queues := rfl
@[simp] theorem Hub.modHdie_fwds (h : Hub) (x : Nat) (f : DieRed → DieRed) : (h.modHdie x f).fwds = h.fwds := rfl
@[simp] theorem Hub.modHdie_wins (h : Hub) (x : Nat) (f : DieRed → DieRed) : (h.modHdie x f).wins = h.wins := rfl
@[simp] theorem Hub.modHdie_lost (h : Hub) (x : Nat) (f : DieRed → DieRed) : (h.modHdie x f).lost = h.lost := rfl
@[simp] theorem Hub.modHdie_gaps (h : Hub) (x : Nat) (f : DieRed → DieRed) : (h.modHdie x f).gaps = h.gaps := rfl
@[simp] theorem Hub.modHdie_recMoves (h : Hub) (x : Nat) (f : DieRed → DieRed) : (h.modHdie x f).recMoves = h.recMoves := rfl
@[simp] theorem Hub.modHdie_undeclared (h : Hub) (x : Nat) (f : DieRed → DieRed) : (h.modHdie x f).undeclared = h.undeclared := rfl
@[simp] theorem Hub.modHdie_divergeLog (h : Hub) (x : Nat) (f : DieRed → DieRed) : (h.modHdie x f).divergeLog = h.divergeLog := rfl
@[simp] theorem Hub.modHdie_slots (h : Hub) (x : Nat) (f : DieRed → DieRed) : (h.modHdie x f).slots = h.slots := rfl
@[simp] theorem Hub.modHdie_capFull0 (h : Hub) (x : Nat) (f : DieRed → DieRed) : (h.modHdie x f).capFull0 = h.capFull0 := rfl
@[simp] theorem Hub.modHdie_capFull1 (h : Hub) (x : Nat) (f : DieRed → DieRed) : (h.modHdie x f).capFull1 = h.capFull1 := rfl
@[simp] theorem Hub.modHdie_mir (h : Hub) (x : Nat) (f : DieRed → DieRed) : (h.modHdie x f).mir = h.mir := rfl
@[simp] theorem Hub.modHdie_pow (h : Hub) (x : Nat) (f : DieRed → DieRed) : (h.modHdie x f).pow = h.pow := rfl
@[simp] theorem Hub.modHdie_srv (h : Hub) (x : Nat) (f : DieRed → DieRed) : (h.modHdie x f).srv = h.srv := rfl
@[simp] theorem Hub.modHdie_out (h : Hub) (x : Nat) (f : DieRed → DieRed) : (h.modHdie x f).out = h.out := rfl
@[simp] theorem Hub.modHdie_free (h : Hub) (x : Nat) (f : DieRed → DieRed) : (h.modHdie x f).free = h.free := rfl
@[simp] theorem Hub.modHdie_get (h : Hub) (x : Nat) (f : DieRed → DieRed) (key : Nat) : (h.modHdie x f).get key = h.get key := rfl

/-! ### `modRed` -/

@[simp] theorem Hub.modRed_part (h : Hub) (f : RedSt → RedSt) : (h.modRed f).part = h.part := rfl
@[simp] theorem Hub.modRed_objs (h : Hub) (f : RedSt → RedSt) : (h.modRed f).objs = h.objs := rfl
@[simp] theorem Hub.modRed_time (h : Hub) (f : RedSt → RedSt) : (h.modRed f).time = h.time := rfl
@[simp] theorem Hub.modRed_cb (h : Hub) (f : RedSt → RedSt) : (h.modRed f).cb = h.cb := rfl
@[simp] theorem Hub.modRed_lanes (h : Hub) (f : RedSt → RedSt) : (h.modRed f).lanes = h.lanes := rfl
@[simp] theorem Hub.modRed_eths (h : Hub) (f : RedSt → RedSt) : (h.modRed f).eths = h.eths := rfl
@[simp] theorem Hub.modRed_ins (h : Hub) (f : RedSt → RedSt) : (h.modRed f).ins = h.ins := rfl
@[simp] theorem Hub.modRed_drvs (h : Hub) (f : RedSt → RedSt) : (h.modRed f).drvs = h.drvs := rfl
@[simp] theorem Hub.modRed_cores (h : Hub) (f : RedSt → RedSt) : (h.modRed f).cores = h.cores := rfl
@[simp] theorem Hub.modRed_fes (h : Hub) (f : RedSt → RedSt) : (h.modRed f).fes = h.fes := rfl
@[simp] theorem Hub.modRed_align (h : Hub) (f : RedSt → RedSt) : (h.modRed f).align = h.align := rfl
@[simp] theorem Hub.modRed_relIdx (h : Hub) (f : RedSt → RedSt) : (h.modRed f).relIdx = h.relIdx := rfl
@[simp] theorem Hub.modRed_chains (h : Hub) (f : RedSt → RedSt) : (h.modRed f).chains = h.chains := rfl
@[simp] theorem Hub.modRed_outs (h : Hub) (f : RedSt → RedSt) : (h.modRed f).outs = h.outs := rfl
@[simp] theorem Hub.modRed_loopOuts (h : Hub) (f : RedSt → RedSt) : (h.modRed f).loopOuts = h.loopOuts := rfl
@[simp] theorem Hub.modRed_injOuts (h : Hub) (f : RedSt → RedSt) : (h.modRed f).injOuts = h.injOuts := rfl
@[simp] theorem Hub.modRed_dets (h : Hub) (f : RedSt → RedSt) : (h.modRed f).dets = h.dets := rfl
@[simp] theorem Hub.modRed_cal (h : Hub) (f : RedSt → RedSt) : (h.modRed f).cal = h.cal := rfl
@[simp] theorem Hub.modRed_eng (h : Hub) (f : RedSt → RedSt) : (h.modRed f).eng = h.eng := rfl
@[simp] theorem Hub.modRed_strings (h : Hub) (f : RedSt → RedSt) : (h.modRed f).strings = h.strings := rfl
@[simp] theorem Hub.modRed_pats (h : Hub) (f : RedSt → RedSt) : (h.modRed f).pats = h.pats := rfl
@[simp] theorem Hub.modRed_trig (h : Hub) (f : RedSt → RedSt) : (h.modRed f).trig = h.trig := rfl
@[simp] theorem Hub.modRed_streams (h : Hub) (f : RedSt → RedSt) : (h.modRed f).streams = h.streams := rfl
@[simp] theorem Hub.modRed_queues (h : Hub) (f : RedSt → RedSt) : (h.modRed f).queues = h.queues := rfl
@[simp] theorem Hub.modRed_fwds (h : Hub) (f : RedSt → RedSt) : (h.modRed f).fwds = h.fwds := rfl
@[simp] theorem Hub.modRed_wins (h : Hub) (f : RedSt → RedSt) : (h.modRed f).wins = h.wins := rfl
@[simp] theorem Hub.modRed_lost (h : Hub) (f : RedSt → RedSt) : (h.modRed f).lost = h.lost := rfl
@[simp] theorem Hub.modRed_gaps (h : Hub) (f : RedSt → RedSt) : (h.modRed f).gaps = h.gaps := rfl
@[simp] theorem Hub.modRed_recMoves (h : Hub) (f : RedSt → RedSt) : (h.modRed f).recMoves = h.recMoves := rfl
@[simp] theorem Hub.modRed_undeclared (h : Hub) (f : RedSt → RedSt) : (h.modRed f).undeclared = h.undeclared := rfl
@[simp] theorem Hub.modRed_divergeLog (h : Hub) (f : RedSt → RedSt) : (h.modRed f).divergeLog = h.divergeLog := rfl
@[simp] theorem Hub.modRed_slots (h : Hub) (f : RedSt → RedSt) : (h.modRed f).slots = h.slots := rfl
@[simp] theorem Hub.modRed_capFull0 (h : Hub) (f : RedSt → RedSt) : (h.modRed f).capFull0 = h.capFull0 := rfl
@[simp] theorem Hub.modRed_capFull1 (h : Hub) (f : RedSt → RedSt) : (h.modRed f).capFull1 = h.capFull1 := rfl
@[simp] theorem Hub.modRed_mir (h : Hub) (f : RedSt → RedSt) : (h.modRed f).mir = h.mir := rfl
@[simp] theorem Hub.modRed_pow (h : Hub) (f : RedSt → RedSt) : (h.modRed f).pow = h.pow := rfl
@[simp] theorem Hub.modRed_srv (h : Hub) (f : RedSt → RedSt) : (h.modRed f).srv = h.srv := rfl
@[simp] theorem Hub.modRed_out (h : Hub) (f : RedSt → RedSt) : (h.modRed f).out = h.out := rfl
@[simp] theorem Hub.modRed_free (h : Hub) (f : RedSt → RedSt) : (h.modRed f).free = h.free := rfl
@[simp] theorem Hub.modRed_get (h : Hub) (f : RedSt → RedSt) (key : Nat) : (h.modRed f).get key = h.get key := rfl

/-! ### `modMir` -/

@[simp] theorem Hub.modMir_part (h : Hub) (f : MirSt → MirSt) : (h.modMir f).part = h.part := rfl
@[simp] theorem Hub.modMir_objs (h : Hub) (f : MirSt → MirSt) : (h.modMir f).objs = h.objs := rfl
@[simp] theorem Hub.modMir_time (h : Hub) (f : MirSt → MirSt) : (h.modMir f).time = h.time := rfl
@[simp] theorem Hub.modMir_cb (h : Hub) (f : MirSt → MirSt) : (h.modMir f).cb = h.cb := rfl
@[simp] theorem Hub.modMir_lanes (h : Hub) (f : MirSt → MirSt) : (h.modMir f).lanes = h.lanes := rfl
@[simp] theorem Hub.modMir_eths (h : Hub) (f : MirSt → MirSt) : (h.modMir f).eths = h.eths := rfl
@[simp] theorem Hub.modMir_ins (h : Hub) (f : MirSt → MirSt) : (h.modMir f).ins = h.ins := rfl
@[simp] theorem Hub.modMir_drvs (h : Hub) (f : MirSt → MirSt) : (h.modMir f).drvs = h.drvs := rfl
@[simp] theorem Hub.modMir_cores (h : Hub) (f : MirSt → MirSt) : (h.modMir f).cores = h.cores := rfl
@[simp] theorem Hub.modMir_fes (h : Hub) (f : MirSt → MirSt) : (h.modMir f).fes = h.fes := rfl
@[simp] theorem Hub.modMir_align (h : Hub) (f : MirSt → MirSt) : (h.modMir f).align = h.align := rfl
@[simp] theorem Hub.modMir_relIdx (h : Hub) (f : MirSt → MirSt) : (h.modMir f).relIdx = h.relIdx := rfl
@[simp] theorem Hub.modMir_chains (h : Hub) (f : MirSt → MirSt) : (h.modMir f).chains = h.chains := rfl
@[simp] theorem Hub.modMir_outs (h : Hub) (f : MirSt → MirSt) : (h.modMir f).outs = h.outs := rfl
@[simp] theorem Hub.modMir_loopOuts (h : Hub) (f : MirSt → MirSt) : (h.modMir f).loopOuts = h.loopOuts := rfl
@[simp] theorem Hub.modMir_injOuts (h : Hub) (f : MirSt → MirSt) : (h.modMir f).injOuts = h.injOuts := rfl
@[simp] theorem Hub.modMir_dets (h : Hub) (f : MirSt → MirSt) : (h.modMir f).dets = h.dets := rfl
@[simp] theorem Hub.modMir_cal (h : Hub) (f : MirSt → MirSt) : (h.modMir f).cal = h.cal := rfl
@[simp] theorem Hub.modMir_eng (h : Hub) (f : MirSt → MirSt) : (h.modMir f).eng = h.eng := rfl
@[simp] theorem Hub.modMir_strings (h : Hub) (f : MirSt → MirSt) : (h.modMir f).strings = h.strings := rfl
@[simp] theorem Hub.modMir_pats (h : Hub) (f : MirSt → MirSt) : (h.modMir f).pats = h.pats := rfl
@[simp] theorem Hub.modMir_trig (h : Hub) (f : MirSt → MirSt) : (h.modMir f).trig = h.trig := rfl
@[simp] theorem Hub.modMir_streams (h : Hub) (f : MirSt → MirSt) : (h.modMir f).streams = h.streams := rfl
@[simp] theorem Hub.modMir_queues (h : Hub) (f : MirSt → MirSt) : (h.modMir f).queues = h.queues := rfl
@[simp] theorem Hub.modMir_fwds (h : Hub) (f : MirSt → MirSt) : (h.modMir f).fwds = h.fwds := rfl
@[simp] theorem Hub.modMir_wins (h : Hub) (f : MirSt → MirSt) : (h.modMir f).wins = h.wins := rfl
@[simp] theorem Hub.modMir_lost (h : Hub) (f : MirSt → MirSt) : (h.modMir f).lost = h.lost := rfl
@[simp] theorem Hub.modMir_gaps (h : Hub) (f : MirSt → MirSt) : (h.modMir f).gaps = h.gaps := rfl
@[simp] theorem Hub.modMir_recMoves (h : Hub) (f : MirSt → MirSt) : (h.modMir f).recMoves = h.recMoves := rfl
@[simp] theorem Hub.modMir_undeclared (h : Hub) (f : MirSt → MirSt) : (h.modMir f).undeclared = h.undeclared := rfl
@[simp] theorem Hub.modMir_divergeLog (h : Hub) (f : MirSt → MirSt) : (h.modMir f).divergeLog = h.divergeLog := rfl
@[simp] theorem Hub.modMir_slots (h : Hub) (f : MirSt → MirSt) : (h.modMir f).slots = h.slots := rfl
@[simp] theorem Hub.modMir_capFull0 (h : Hub) (f : MirSt → MirSt) : (h.modMir f).capFull0 = h.capFull0 := rfl
@[simp] theorem Hub.modMir_capFull1 (h : Hub) (f : MirSt → MirSt) : (h.modMir f).capFull1 = h.capFull1 := rfl
@[simp] theorem Hub.modMir_red (h : Hub) (f : MirSt → MirSt) : (h.modMir f).red = h.red := rfl
@[simp] theorem Hub.modMir_pow (h : Hub) (f : MirSt → MirSt) : (h.modMir f).pow = h.pow := rfl
@[simp] theorem Hub.modMir_srv (h : Hub) (f : MirSt → MirSt) : (h.modMir f).srv = h.srv := rfl
@[simp] theorem Hub.modMir_out (h : Hub) (f : MirSt → MirSt) : (h.modMir f).out = h.out := rfl
@[simp] theorem Hub.modMir_free (h : Hub) (f : MirSt → MirSt) : (h.modMir f).free = h.free := rfl
@[simp] theorem Hub.modMir_get (h : Hub) (f : MirSt → MirSt) (key : Nat) : (h.modMir f).get key = h.get key := rfl

/-! ### `modPow` -/

@[simp] theorem Hub.modPow_part (h : Hub) (f : PowerSt → PowerSt) : (h.modPow f).part = h.part := rfl
@[simp] theorem Hub.modPow_objs (h : Hub) (f : PowerSt → PowerSt) : (h.modPow f).objs = h.objs := rfl
@[simp] theorem Hub.modPow_time (h : Hub) (f : PowerSt → PowerSt) : (h.modPow f).time = h.time := rfl
@[simp] theorem Hub.modPow_cb (h : Hub) (f : PowerSt → PowerSt) : (h.modPow f).cb = h.cb := rfl
@[simp] theorem Hub.modPow_lanes (h : Hub) (f : PowerSt → PowerSt) : (h.modPow f).lanes = h.lanes := rfl
@[simp] theorem Hub.modPow_eths (h : Hub) (f : PowerSt → PowerSt) : (h.modPow f).eths = h.eths := rfl
@[simp] theorem Hub.modPow_ins (h : Hub) (f : PowerSt → PowerSt) : (h.modPow f).ins = h.ins := rfl
@[simp] theorem Hub.modPow_drvs (h : Hub) (f : PowerSt → PowerSt) : (h.modPow f).drvs = h.drvs := rfl
@[simp] theorem Hub.modPow_cores (h : Hub) (f : PowerSt → PowerSt) : (h.modPow f).cores = h.cores := rfl
@[simp] theorem Hub.modPow_fes (h : Hub) (f : PowerSt → PowerSt) : (h.modPow f).fes = h.fes := rfl
@[simp] theorem Hub.modPow_align (h : Hub) (f : PowerSt → PowerSt) : (h.modPow f).align = h.align := rfl
@[simp] theorem Hub.modPow_relIdx (h : Hub) (f : PowerSt → PowerSt) : (h.modPow f).relIdx = h.relIdx := rfl
@[simp] theorem Hub.modPow_chains (h : Hub) (f : PowerSt → PowerSt) : (h.modPow f).chains = h.chains := rfl
@[simp] theorem Hub.modPow_outs (h : Hub) (f : PowerSt → PowerSt) : (h.modPow f).outs = h.outs := rfl
@[simp] theorem Hub.modPow_loopOuts (h : Hub) (f : PowerSt → PowerSt) : (h.modPow f).loopOuts = h.loopOuts := rfl
@[simp] theorem Hub.modPow_injOuts (h : Hub) (f : PowerSt → PowerSt) : (h.modPow f).injOuts = h.injOuts := rfl
@[simp] theorem Hub.modPow_dets (h : Hub) (f : PowerSt → PowerSt) : (h.modPow f).dets = h.dets := rfl
@[simp] theorem Hub.modPow_cal (h : Hub) (f : PowerSt → PowerSt) : (h.modPow f).cal = h.cal := rfl
@[simp] theorem Hub.modPow_eng (h : Hub) (f : PowerSt → PowerSt) : (h.modPow f).eng = h.eng := rfl
@[simp] theorem Hub.modPow_strings (h : Hub) (f : PowerSt → PowerSt) : (h.modPow f).strings = h.strings := rfl
@[simp] theorem Hub.modPow_pats (h : Hub) (f : PowerSt → PowerSt) : (h.modPow f).pats = h.pats := rfl
@[simp] theorem Hub.modPow_trig (h : Hub) (f : PowerSt → PowerSt) : (h.modPow f).trig = h.trig := rfl
@[simp] theorem Hub.modPow_streams (h : Hub) (f : PowerSt → PowerSt) : (h.modPow f).streams = h.streams := rfl
@[simp] theorem Hub.modPow_queues (h : Hub) (f : PowerSt → PowerSt) : (h.modPow f).queues = h.queues := rfl
@[simp] theorem Hub.modPow_fwds (h : Hub) (f : PowerSt → PowerSt) : (h.modPow f).fwds = h.fwds := rfl
@[simp] theorem Hub.modPow_wins (h : Hub) (f : PowerSt → PowerSt) : (h.modPow f).wins = h.wins := rfl
@[simp] theorem Hub.modPow_lost (h : Hub) (f : PowerSt → PowerSt) : (h.modPow f).lost = h.lost := rfl
@[simp] theorem Hub.modPow_gaps (h : Hub) (f : PowerSt → PowerSt) : (h.modPow f).gaps = h.gaps := rfl
@[simp] theorem Hub.modPow_recMoves (h : Hub) (f : PowerSt → PowerSt) : (h.modPow f).recMoves = h.recMoves := rfl
@[simp] theorem Hub.modPow_undeclared (h : Hub) (f : PowerSt → PowerSt) : (h.modPow f).undeclared = h.undeclared := rfl
@[simp] theorem Hub.modPow_divergeLog (h : Hub) (f : PowerSt → PowerSt) : (h.modPow f).divergeLog = h.divergeLog := rfl
@[simp] theorem Hub.modPow_slots (h : Hub) (f : PowerSt → PowerSt) : (h.modPow f).slots = h.slots := rfl
@[simp] theorem Hub.modPow_capFull0 (h : Hub) (f : PowerSt → PowerSt) : (h.modPow f).capFull0 = h.capFull0 := rfl
@[simp] theorem Hub.modPow_capFull1 (h : Hub) (f : PowerSt → PowerSt) : (h.modPow f).capFull1 = h.capFull1 := rfl
@[simp] theorem Hub.modPow_red (h : Hub) (f : PowerSt → PowerSt) : (h.modPow f).red = h.red := rfl
@[simp] theorem Hub.modPow_mir (h : Hub) (f : PowerSt → PowerSt) : (h.modPow f).mir = h.mir := rfl
@[simp] theorem Hub.modPow_srv (h : Hub) (f : PowerSt → PowerSt) : (h.modPow f).srv = h.srv := rfl
@[simp] theorem Hub.modPow_out (h : Hub) (f : PowerSt → PowerSt) : (h.modPow f).out = h.out := rfl
@[simp] theorem Hub.modPow_free (h : Hub) (f : PowerSt → PowerSt) : (h.modPow f).free = h.free := rfl
@[simp] theorem Hub.modPow_get (h : Hub) (f : PowerSt → PowerSt) (key : Nat) : (h.modPow f).get key = h.get key := rfl

/-! ### `modSrv` -/

@[simp] theorem Hub.modSrv_part (h : Hub) (f : SrvSt → SrvSt) : (h.modSrv f).part = h.part := rfl
@[simp] theorem Hub.modSrv_objs (h : Hub) (f : SrvSt → SrvSt) : (h.modSrv f).objs = h.objs := rfl
@[simp] theorem Hub.modSrv_time (h : Hub) (f : SrvSt → SrvSt) : (h.modSrv f).time = h.time := rfl
@[simp] theorem Hub.modSrv_cb (h : Hub) (f : SrvSt → SrvSt) : (h.modSrv f).cb = h.cb := rfl
@[simp] theorem Hub.modSrv_lanes (h : Hub) (f : SrvSt → SrvSt) : (h.modSrv f).lanes = h.lanes := rfl
@[simp] theorem Hub.modSrv_eths (h : Hub) (f : SrvSt → SrvSt) : (h.modSrv f).eths = h.eths := rfl
@[simp] theorem Hub.modSrv_ins (h : Hub) (f : SrvSt → SrvSt) : (h.modSrv f).ins = h.ins := rfl
@[simp] theorem Hub.modSrv_drvs (h : Hub) (f : SrvSt → SrvSt) : (h.modSrv f).drvs = h.drvs := rfl
@[simp] theorem Hub.modSrv_cores (h : Hub) (f : SrvSt → SrvSt) : (h.modSrv f).cores = h.cores := rfl
@[simp] theorem Hub.modSrv_fes (h : Hub) (f : SrvSt → SrvSt) : (h.modSrv f).fes = h.fes := rfl
@[simp] theorem Hub.modSrv_align (h : Hub) (f : SrvSt → SrvSt) : (h.modSrv f).align = h.align := rfl
@[simp] theorem Hub.modSrv_relIdx (h : Hub) (f : SrvSt → SrvSt) : (h.modSrv f).relIdx = h.relIdx := rfl
@[simp] theorem Hub.modSrv_chains (h : Hub) (f : SrvSt → SrvSt) : (h.modSrv f).chains = h.chains := rfl
@[simp] theorem Hub.modSrv_outs (h : Hub) (f : SrvSt → SrvSt) : (h.modSrv f).outs = h.outs := rfl
@[simp] theorem Hub.modSrv_loopOuts (h : Hub) (f : SrvSt → SrvSt) : (h.modSrv f).loopOuts = h.loopOuts := rfl
@[simp] theorem Hub.modSrv_injOuts (h : Hub) (f : SrvSt → SrvSt) : (h.modSrv f).injOuts = h.injOuts := rfl
@[simp] theorem Hub.modSrv_dets (h : Hub) (f : SrvSt → SrvSt) : (h.modSrv f).dets = h.dets := rfl
@[simp] theorem Hub.modSrv_cal (h : Hub) (f : SrvSt → SrvSt) : (h.modSrv f).cal = h.cal := rfl
@[simp] theorem Hub.modSrv_eng (h : Hub) (f : SrvSt → SrvSt) : (h.modSrv f).eng = h.eng := rfl
@[simp] theorem Hub.modSrv_strings (h : Hub) (f : SrvSt → SrvSt) : (h.modSrv f).strings = h.strings := rfl
@[simp] theorem Hub.modSrv_pats (h : Hub) (f : SrvSt → SrvSt) : (h.modSrv f).pats = h.pats := rfl
@[simp] theorem Hub.modSrv_trig (h : Hub) (f : SrvSt → SrvSt) : (h.modSrv f).trig = h.trig := rfl
@[simp] theorem Hub.modSrv_streams (h : Hub) (f : SrvSt → SrvSt) : (h.modSrv f).streams = h.streams := rfl
@[simp] theorem Hub.modSrv_queues (h : Hub) (f : SrvSt → SrvSt) : (h.modSrv f).queues = h.queues := rfl
@[simp] theorem Hub.modSrv_fwds (h : Hub) (f : SrvSt → SrvSt) : (h.modSrv f).fwds = h.fwds := rfl
@[simp] theorem Hub.modSrv_wins (h : Hub) (f : SrvSt → SrvSt) : (h.modSrv f).wins = h.wins := rfl
@[simp] theorem Hub.modSrv_lost (h : Hub) (f : SrvSt → SrvSt) : (h.modSrv f).lost = h.lost := rfl
@[simp] theorem Hub.modSrv_gaps (h : Hub) (f : SrvSt → SrvSt) : (h.modSrv f).gaps = h.gaps := rfl
@[simp] theorem Hub.modSrv_recMoves (h : Hub) (f : SrvSt → SrvSt) : (h.modSrv f).recMoves = h.recMoves := rfl
@[simp] theorem Hub.modSrv_undeclared (h : Hub) (f : SrvSt → SrvSt) : (h.modSrv f).undeclared = h.undeclared := rfl
@[simp] theorem Hub.modSrv_divergeLog (h : Hub) (f : SrvSt → SrvSt) : (h.modSrv f).divergeLog = h.divergeLog := rfl
@[simp] theorem Hub.modSrv_slots (h : Hub) (f : SrvSt → SrvSt) : (h.modSrv f).slots = h.slots := rfl
@[simp] theorem Hub.modSrv_capFull0 (h : Hub) (f : SrvSt → SrvSt) : (h.modSrv f).capFull0 = h.capFull0 := rfl
@[simp] theorem Hub.modSrv_capFull1 (h : Hub) (f : SrvSt → SrvSt) : (h.modSrv f).capFull1 = h.capFull1 := rfl
@[simp] theorem Hub.modSrv_red (h : Hub) (f : SrvSt → SrvSt) : (h.modSrv f).red = h.red := rfl
@[simp] theorem Hub.modSrv_mir (h : Hub) (f : SrvSt → SrvSt) : (h.modSrv f).mir = h.mir := rfl
@[simp] theorem Hub.modSrv_pow (h : Hub) (f : SrvSt → SrvSt) : (h.modSrv f).pow = h.pow := rfl
@[simp] theorem Hub.modSrv_out (h : Hub) (f : SrvSt → SrvSt) : (h.modSrv f).out = h.out := rfl
@[simp] theorem Hub.modSrv_free (h : Hub) (f : SrvSt → SrvSt) : (h.modSrv f).free = h.free := rfl
@[simp] theorem Hub.modSrv_get (h : Hub) (f : SrvSt → SrvSt) (key : Nat) : (h.modSrv f).get key = h.get key := rfl

end Sys2Proof.Machine
end

