-- ==== Sys2Proof/Laws/Ops.lean ====
section
/-! SUPPORT. The laws of the shared operations: the object store, the callboard, the clock, and how a meaning answers. -/
namespace Sys2Proof.Machine

/-! ### The object store -/

/-- A key inserted is found with its value. -/
theorem Objs.find_insert_self (o : List (Nat × Nat)) (k v : Nat) : Objs.find (Objs.insert o k v) k = some v := by
  induction o with
  | nil => simp [Objs.insert, Objs.find]
  | cons e es ih =>
    simp only [Objs.insert]
    split
    · simp [Objs.find]
    · split
      · simp [Objs.find]
      · simp [Objs.find, *]

/-- An insertion leaves every other key as it was. -/
theorem Objs.find_insert_ne (o : List (Nat × Nat)) {k j : Nat} (v : Nat) (hj : j ≠ k) :
    Objs.find (Objs.insert o k v) j = Objs.find o j := by
  induction o with
  | nil => simp [Objs.insert, Objs.find, Ne.symm hj]
  | cons e es ih =>
    simp only [Objs.insert]
    split
    · simp [Objs.find, Ne.symm hj]
    · split
      · rename_i he
        simp [Objs.find, he, Ne.symm hj]
      · simp [Objs.find, ih]

/-- A key erased is not found. -/
theorem Objs.find_erase_self (o : List (Nat × Nat)) (k : Nat) : Objs.find (Objs.erase o k) k = none := by
  induction o with
  | nil => rfl
  | cons e es ih =>
    simp only [Objs.erase]
    split
    · exact ih
    · simp [Objs.find, *]

/-- An erasure leaves every other key as it was. -/
theorem Objs.find_erase_ne (o : List (Nat × Nat)) {k j : Nat} (hj : j ≠ k) :
    Objs.find (Objs.erase o k) j = Objs.find o j := by
  induction o with
  | nil => rfl
  | cons e es ih =>
    simp only [Objs.erase]
    split
    · rename_i he
      simp [Objs.find, he, Ne.symm hj, ih]
    · simp [Objs.find, ih]

/-- A value written is read back. -/
@[simp] theorem Objs.get_put_self (o : List (Nat × Nat)) (k v : Nat) : Objs.get (Objs.put o k v) k = v := by
  unfold Objs.put Objs.get
  by_cases hv : v = Catalog.dflt k
  · rw [if_pos hv, Objs.find_erase_self, hv]
  · rw [if_neg hv, Objs.find_insert_self]

/-- A write leaves every other object as it was. -/
theorem Objs.get_put_ne (o : List (Nat × Nat)) {k j : Nat} (v : Nat) (hj : j ≠ k) :
    Objs.get (Objs.put o k v) j = Objs.get o j := by
  unfold Objs.put Objs.get
  by_cases hv : v = Catalog.dflt k
  · rw [if_pos hv, Objs.find_erase_ne o hj]
  · rw [if_neg hv, Objs.find_insert_ne o v hj]

/-- The canonical form from a higher bound holds from a lower one. -/
theorem Objs.wfFrom_mono {a b : Nat} (o : List (Nat × Nat)) (hab : a ≤ b) (h : Objs.wfFrom b o = true) :
    Objs.wfFrom a o = true := by
  cases o with
  | nil => rfl
  | cons e es =>
    simp only [Objs.wfFrom, Bool.and_eq_true, decide_eq_true_eq] at h ⊢
    exact ⟨⟨Nat.le_trans hab h.1.1, h.1.2⟩, h.2⟩

/-- An erasure keeps the canonical form. -/
theorem Objs.wfFrom_erase (o : List (Nat × Nat)) (k : Nat) :
    ∀ lo, Objs.wfFrom lo o = true → Objs.wfFrom lo (Objs.erase o k) = true := by
  induction o with
  | nil => intro lo _; rfl
  | cons e es ih =>
    intro lo h
    simp only [Objs.wfFrom, Bool.and_eq_true, decide_eq_true_eq] at h
    simp only [Objs.erase]
    split
    · exact Objs.wfFrom_mono _ (Nat.le_succ_of_le h.1.1) (ih _ h.2)
    · simp only [Objs.wfFrom, Bool.and_eq_true, decide_eq_true_eq]
      exact ⟨h.1, ih _ h.2⟩

/-- An insertion of a value that is not the default keeps the canonical form. -/
theorem Objs.wfFrom_insert (o : List (Nat × Nat)) {k v : Nat} (hv : v ≠ Catalog.dflt k) :
    ∀ lo, lo ≤ k → Objs.wfFrom lo o = true → Objs.wfFrom lo (Objs.insert o k v) = true := by
  induction o with
  | nil => intro lo hlo _; simp [Objs.insert, Objs.wfFrom, hlo, hv]
  | cons e es ih =>
    intro lo hlo h
    simp only [Objs.wfFrom, Bool.and_eq_true, decide_eq_true_eq] at h
    simp only [Objs.insert]
    split
    · rename_i hk
      simp only [Objs.wfFrom, Bool.and_eq_true, decide_eq_true_eq]
      exact ⟨⟨hlo, hv⟩, ⟨Nat.succ_le_of_lt hk, h.1.2⟩, h.2⟩
    · split
      · rename_i he
        subst he
        simp only [Objs.wfFrom, Bool.and_eq_true, decide_eq_true_eq]
        exact ⟨⟨hlo, hv⟩, h.2⟩
      · rename_i h1 h2
        simp only [Objs.wfFrom, Bool.and_eq_true, decide_eq_true_eq]
        exact ⟨h.1, ih _ (by omega) h.2⟩

/-- A write keeps the canonical form. -/
theorem Objs.wf_put (o : List (Nat × Nat)) (k v : Nat) (h : Objs.wf o = true) : Objs.wf (Objs.put o k v) = true := by
  unfold Objs.put
  split
  · exact Objs.wfFrom_erase o k 0 h
  · rename_i hv
    exact Objs.wfFrom_insert o hv 0 (Nat.zero_le k) h

@[simp] theorem Hub.get_put_self (h : Hub) (k v : Nat) : (h.put k v).get k = v := Objs.get_put_self h.objs k v

theorem Hub.get_put_ne (h : Hub) {k j : Nat} (v : Nat) (hj : j ≠ k) : (h.put k v).get j = h.get j :=
  Objs.get_put_ne h.objs v hj

/-- A read after a write, either way. -/
theorem Hub.get_put (h : Hub) (k j v : Nat) : (h.put k v).get j = if j = k then v else h.get j := by
  split
  · rename_i hj; rw [hj, Hub.get_put_self]
  · rename_i hj; exact Hub.get_put_ne h v hj

@[simp] theorem Hub.putB_get_self (h : Hub) (k : Nat) (b : Bool) : (h.putB k b).get k = b2n b := Hub.get_put_self h k _
@[simp] theorem Hub.bump_get_self (h : Hub) (k : Nat) : (h.bump k).get k = (h.get k + 1) % 256 ^ Catalog.len k :=
  Hub.get_put_self h k _
@[simp] theorem Hub.bumpBy_get_self (h : Hub) (k n : Nat) : (h.bumpBy k n).get k = (h.get k + n) % 256 ^ Catalog.len k :=
  Hub.get_put_self h k _
theorem Hub.bump_get_ne (h : Hub) {k j : Nat} (hj : j ≠ k) : (h.bump k).get j = h.get j := Hub.get_put_ne h _ hj
theorem Hub.bumpBy_get_ne (h : Hub) {k j : Nat} (n : Nat) (hj : j ≠ k) : (h.bumpBy k n).get j = h.get j :=
  Hub.get_put_ne h _ hj

/-- What a counter's advance leaves of the rest of the hub. -/
theorem Hub.bump_eq (h : Hub) (k : Nat) : h.bump k = { h with objs := (h.bump k).objs } := rfl

/-! ### The callboard -/

/-- A conditional advance of CB_LOST changes the store alone, and no other object. -/
theorem Hub.when_lost (h : Hub) (c : Bool) :
    ∃ objs, h.when c (·.bump Obj.cbLost) = { h with objs := objs } ∧ ∀ j, j ≠ Obj.cbLost → Objs.get objs j = h.get j := by
  cases c with
  | true => exact ⟨(h.bump Obj.cbLost).objs, rfl, fun j hj => Hub.bump_get_ne h hj⟩
  | false => exact ⟨h.objs, rfl, fun _ _ => rfl⟩

/-- A record changes the callboard and CB_LOST. -/
theorem Hub.record_eq (h : Hub) (r : CbRecord) :
    ∃ objs cb, h.record r = { h with objs := objs, cb := cb } ∧ ∀ j, j ≠ Obj.cbLost → Objs.get objs j = h.get j := by
  unfold Hub.record
  extract_lets r' lostRing lostNvm
  obtain ⟨o1, e1, g1⟩ := Hub.when_lost (h.pushRecord r') lostRing
  obtain ⟨o2, e2, g2⟩ := Hub.when_lost ((h.pushRecord r').when lostRing (·.bump Obj.cbLost)) lostNvm
  refine ⟨o2, (h.pushRecord r').cb, ?_, fun j hj => ?_⟩
  · rw [e2, e1]; rfl
  · rw [g2 j hj, e1]
    exact g1 j hj

/-- An event sent changes what is sent and the events that wait for the tunnel. -/
theorem Hub.sendEvent_eq (h : Hub) (severity : Nat) (pdu : List Nat) :
    ∃ out events, h.sendEvent severity pdu = { h with out := out, srv := { h.srv with events := events } } := by
  unfold Hub.sendEvent
  split
  · exact ⟨_, _, rfl⟩
  · exact ⟨h.out, h.srv.events, rfl⟩

/-- A record that joins the callboard changes it, CB_LOST, what is sent, and the events that wait for the tunnel. -/
theorem Hub.enterRecord_eq (h : Hub) (r : CbRecord) :
    ∃ objs cb out events, h.enterRecord r =
      { h with objs := objs, cb := cb, out := out, srv := { h.srv with events := events } } ∧
      ∀ j, j ≠ Obj.cbLost → Objs.get objs j = h.get j := by
  unfold Hub.enterRecord
  extract_lets r'
  obtain ⟨objs, cb, he, hg⟩ := Hub.record_eq h r'
  obtain ⟨out, events, hs⟩ :=
    Hub.sendEvent_eq (h.record r') r'.severity (toBytes 8 (0x07 + r'.seq % 256 * 256 + 32 * 2 ^ 50) ++ r'.bytes)
  refine ⟨objs, cb, out, events, ?_, hg⟩
  rw [hs, he]

/-- A logged event changes the callboard, CB_LOST, what is sent, and the events that wait for the tunnel: nothing else. -/
theorem Hub.logAt_eq (h : Hub) (time code severity source param : Nat) :
    ∃ objs cb out events, h.logAt time code severity source param =
      { h with objs := objs, cb := cb, out := out, srv := { h.srv with events := events } } ∧
      ∀ j, j ≠ Obj.cbLost → Objs.get objs j = h.get j := by
  unfold Hub.logAt
  extract_lets r
  split
  · exact ⟨h.objs, _, h.out, h.srv.events, rfl, fun _ _ => rfl⟩
  · exact Hub.enterRecord_eq h r

/-- Logging leaves every object but CB_LOST. -/
theorem Hub.logAt_get (h : Hub) (time code severity source param : Nat) {j : Nat} (hj : j ≠ Obj.cbLost) :
    (h.logAt time code severity source param).get j = h.get j := by
  obtain ⟨_, _, _, _, he, hg⟩ := Hub.logAt_eq h time code severity source param
  rw [he]
  exact hg j hj

theorem Hub.log_get (h : Hub) (code severity source param : Nat) {j : Nat} (hj : j ≠ Obj.cbLost) :
    (h.log code severity source param).get j = h.get j := Hub.logAt_get h _ _ _ _ _ hj

@[simp] theorem Hub.logAt_part (h : Hub) (t c v u p : Nat) : (h.logAt t c v u p).part = h.part := by
  obtain ⟨_, _, _, _, he, _⟩ := Hub.logAt_eq h t c v u p; rw [he]
@[simp] theorem Hub.log_part (h : Hub) (c v u p : Nat) : (h.log c v u p).part = h.part := Hub.logAt_part h _ _ _ _ _
@[simp] theorem Hub.logAt_time (h : Hub) (t c v u p : Nat) : (h.logAt t c v u p).time = h.time := by
  obtain ⟨_, _, _, _, he, _⟩ := Hub.logAt_eq h t c v u p; rw [he]
@[simp] theorem Hub.log_time (h : Hub) (c v u p : Nat) : (h.log c v u p).time = h.time := Hub.logAt_time h _ _ _ _ _
@[simp] theorem Hub.logAt_lanes (h : Hub) (t c v u p : Nat) : (h.logAt t c v u p).lanes = h.lanes := by
  obtain ⟨_, _, _, _, he, _⟩ := Hub.logAt_eq h t c v u p; rw [he]
@[simp] theorem Hub.log_lanes (h : Hub) (c v u p : Nat) : (h.log c v u p).lanes = h.lanes := Hub.logAt_lanes h _ _ _ _ _
@[simp] theorem Hub.logAt_eths (h : Hub) (t c v u p : Nat) : (h.logAt t c v u p).eths = h.eths := by
  obtain ⟨_, _, _, _, he, _⟩ := Hub.logAt_eq h t c v u p; rw [he]
@[simp] theorem Hub.log_eths (h : Hub) (c v u p : Nat) : (h.log c v u p).eths = h.eths := Hub.logAt_eths h _ _ _ _ _
@[simp] theorem Hub.logAt_ins (h : Hub) (t c v u p : Nat) : (h.logAt t c v u p).ins = h.ins := by
  obtain ⟨_, _, _, _, he, _⟩ := Hub.logAt_eq h t c v u p; rw [he]
@[simp] theorem Hub.log_ins (h : Hub) (c v u p : Nat) : (h.log c v u p).ins = h.ins := Hub.logAt_ins h _ _ _ _ _
@[simp] theorem Hub.logAt_drvs (h : Hub) (t c v u p : Nat) : (h.logAt t c v u p).drvs = h.drvs := by
  obtain ⟨_, _, _, _, he, _⟩ := Hub.logAt_eq h t c v u p; rw [he]
@[simp] theorem Hub.log_drvs (h : Hub) (c v u p : Nat) : (h.log c v u p).drvs = h.drvs := Hub.logAt_drvs h _ _ _ _ _
@[simp] theorem Hub.logAt_cores (h : Hub) (t c v u p : Nat) : (h.logAt t c v u p).cores = h.cores := by
  obtain ⟨_, _, _, _, he, _⟩ := Hub.logAt_eq h t c v u p; rw [he]
@[simp] theorem Hub.log_cores (h : Hub) (c v u p : Nat) : (h.log c v u p).cores = h.cores := Hub.logAt_cores h _ _ _ _ _
@[simp] theorem Hub.logAt_fes (h : Hub) (t c v u p : Nat) : (h.logAt t c v u p).fes = h.fes := by
  obtain ⟨_, _, _, _, he, _⟩ := Hub.logAt_eq h t c v u p; rw [he]
@[simp] theorem Hub.log_fes (h : Hub) (c v u p : Nat) : (h.log c v u p).fes = h.fes := Hub.logAt_fes h _ _ _ _ _
@[simp] theorem Hub.logAt_align (h : Hub) (t c v u p : Nat) : (h.logAt t c v u p).align = h.align := by
  obtain ⟨_, _, _, _, he, _⟩ := Hub.logAt_eq h t c v u p; rw [he]
@[simp] theorem Hub.log_align (h : Hub) (c v u p : Nat) : (h.log c v u p).align = h.align := Hub.logAt_align h _ _ _ _ _
@[simp] theorem Hub.logAt_chains (h : Hub) (t c v u p : Nat) : (h.logAt t c v u p).chains = h.chains := by
  obtain ⟨_, _, _, _, he, _⟩ := Hub.logAt_eq h t c v u p; rw [he]
@[simp] theorem Hub.log_chains (h : Hub) (c v u p : Nat) : (h.log c v u p).chains = h.chains := Hub.logAt_chains h _ _ _ _ _
@[simp] theorem Hub.logAt_outs (h : Hub) (t c v u p : Nat) : (h.logAt t c v u p).outs = h.outs := by
  obtain ⟨_, _, _, _, he, _⟩ := Hub.logAt_eq h t c v u p; rw [he]
@[simp] theorem Hub.log_outs (h : Hub) (c v u p : Nat) : (h.log c v u p).outs = h.outs := Hub.logAt_outs h _ _ _ _ _
@[simp] theorem Hub.logAt_dets (h : Hub) (t c v u p : Nat) : (h.logAt t c v u p).dets = h.dets := by
  obtain ⟨_, _, _, _, he, _⟩ := Hub.logAt_eq h t c v u p; rw [he]
@[simp] theorem Hub.log_dets (h : Hub) (c v u p : Nat) : (h.log c v u p).dets = h.dets := Hub.logAt_dets h _ _ _ _ _
@[simp] theorem Hub.logAt_cal (h : Hub) (t c v u p : Nat) : (h.logAt t c v u p).cal = h.cal := by
  obtain ⟨_, _, _, _, he, _⟩ := Hub.logAt_eq h t c v u p; rw [he]
@[simp] theorem Hub.log_cal (h : Hub) (c v u p : Nat) : (h.log c v u p).cal = h.cal := Hub.logAt_cal h _ _ _ _ _
@[simp] theorem Hub.logAt_eng (h : Hub) (t c v u p : Nat) : (h.logAt t c v u p).eng = h.eng := by
  obtain ⟨_, _, _, _, he, _⟩ := Hub.logAt_eq h t c v u p; rw [he]
@[simp] theorem Hub.log_eng (h : Hub) (c v u p : Nat) : (h.log c v u p).eng = h.eng := Hub.logAt_eng h _ _ _ _ _
@[simp] theorem Hub.logAt_strings (h : Hub) (t c v u p : Nat) : (h.logAt t c v u p).strings = h.strings := by
  obtain ⟨_, _, _, _, he, _⟩ := Hub.logAt_eq h t c v u p; rw [he]
@[simp] theorem Hub.log_strings (h : Hub) (c v u p : Nat) : (h.log c v u p).strings = h.strings := Hub.logAt_strings h _ _ _ _ _
@[simp] theorem Hub.logAt_pats (h : Hub) (t c v u p : Nat) : (h.logAt t c v u p).pats = h.pats := by
  obtain ⟨_, _, _, _, he, _⟩ := Hub.logAt_eq h t c v u p; rw [he]
@[simp] theorem Hub.log_pats (h : Hub) (c v u p : Nat) : (h.log c v u p).pats = h.pats := Hub.logAt_pats h _ _ _ _ _
@[simp] theorem Hub.logAt_trig (h : Hub) (t c v u p : Nat) : (h.logAt t c v u p).trig = h.trig := by
  obtain ⟨_, _, _, _, he, _⟩ := Hub.logAt_eq h t c v u p; rw [he]
@[simp] theorem Hub.log_trig (h : Hub) (c v u p : Nat) : (h.log c v u p).trig = h.trig := Hub.logAt_trig h _ _ _ _ _
@[simp] theorem Hub.logAt_streams (h : Hub) (t c v u p : Nat) : (h.logAt t c v u p).streams = h.streams := by
  obtain ⟨_, _, _, _, he, _⟩ := Hub.logAt_eq h t c v u p; rw [he]
@[simp] theorem Hub.log_streams (h : Hub) (c v u p : Nat) : (h.log c v u p).streams = h.streams := Hub.logAt_streams h _ _ _ _ _
@[simp] theorem Hub.logAt_queues (h : Hub) (t c v u p : Nat) : (h.logAt t c v u p).queues = h.queues := by
  obtain ⟨_, _, _, _, he, _⟩ := Hub.logAt_eq h t c v u p; rw [he]
@[simp] theorem Hub.log_queues (h : Hub) (c v u p : Nat) : (h.log c v u p).queues = h.queues := Hub.logAt_queues h _ _ _ _ _
@[simp] theorem Hub.logAt_fwds (h : Hub) (t c v u p : Nat) : (h.logAt t c v u p).fwds = h.fwds := by
  obtain ⟨_, _, _, _, he, _⟩ := Hub.logAt_eq h t c v u p; rw [he]
@[simp] theorem Hub.log_fwds (h : Hub) (c v u p : Nat) : (h.log c v u p).fwds = h.fwds := Hub.logAt_fwds h _ _ _ _ _
@[simp] theorem Hub.logAt_wins (h : Hub) (t c v u p : Nat) : (h.logAt t c v u p).wins = h.wins := by
  obtain ⟨_, _, _, _, he, _⟩ := Hub.logAt_eq h t c v u p; rw [he]
@[simp] theorem Hub.log_wins (h : Hub) (c v u p : Nat) : (h.log c v u p).wins = h.wins := Hub.logAt_wins h _ _ _ _ _
@[simp] theorem Hub.logAt_slots (h : Hub) (t c v u p : Nat) : (h.logAt t c v u p).slots = h.slots := by
  obtain ⟨_, _, _, _, he, _⟩ := Hub.logAt_eq h t c v u p; rw [he]
@[simp] theorem Hub.log_slots (h : Hub) (c v u p : Nat) : (h.log c v u p).slots = h.slots := Hub.logAt_slots h _ _ _ _ _
@[simp] theorem Hub.logAt_red (h : Hub) (t c v u p : Nat) : (h.logAt t c v u p).red = h.red := by
  obtain ⟨_, _, _, _, he, _⟩ := Hub.logAt_eq h t c v u p; rw [he]
@[simp] theorem Hub.log_red (h : Hub) (c v u p : Nat) : (h.log c v u p).red = h.red := Hub.logAt_red h _ _ _ _ _
@[simp] theorem Hub.logAt_mir (h : Hub) (t c v u p : Nat) : (h.logAt t c v u p).mir = h.mir := by
  obtain ⟨_, _, _, _, he, _⟩ := Hub.logAt_eq h t c v u p; rw [he]
@[simp] theorem Hub.log_mir (h : Hub) (c v u p : Nat) : (h.log c v u p).mir = h.mir := Hub.logAt_mir h _ _ _ _ _
@[simp] theorem Hub.logAt_pow (h : Hub) (t c v u p : Nat) : (h.logAt t c v u p).pow = h.pow := by
  obtain ⟨_, _, _, _, he, _⟩ := Hub.logAt_eq h t c v u p; rw [he]
@[simp] theorem Hub.log_pow (h : Hub) (c v u p : Nat) : (h.log c v u p).pow = h.pow := Hub.logAt_pow h _ _ _ _ _
@[simp] theorem Hub.logAt_free (h : Hub) (t c v u p : Nat) : (h.logAt t c v u p).free = h.free := by
  obtain ⟨_, _, _, _, he, _⟩ := Hub.logAt_eq h t c v u p; rw [he]
@[simp] theorem Hub.log_free (h : Hub) (c v u p : Nat) : (h.log c v u p).free = h.free := Hub.logAt_free h _ _ _ _ _

/-! ### The clock -/

/-- Ticks add up: waiting `a` ticks and then `b` is waiting `a + b` (R195). -/
theorem Hub.waitTicks_add (h : Hub) (a b : Nat) : (h.waitTicks a).waitTicks b = h.waitTicks (a + b) := by
  have hi : ∀ n c, (h.waitTicks n).incr c = h.incr c := fun _ _ => rfl
  show Hub.waitTicks (h.waitTicks a) b = _
  unfold Hub.waitTicks at *
  simp only [Hub.mk.injEq, TimeSt.mk.injEq, true_and, and_true]
  refine ⟨?_, ?_, ?_, ?_⟩
  · omega
  all_goals simp only [hi, Nat.add_mul, Nat.add_assoc]

@[simp] theorem Hub.waitTicks_zero (h : Hub) : h.waitTicks 0 = h := by
  simp [Hub.waitTicks]

@[simp] theorem Hub.waitTicks_ticks (h : Hub) (n : Nat) : (h.waitTicks n).time.ticks = h.time.ticks + n := rfl

/-! ### How a meaning answers -/

@[simp] theorem onHubM_next (f : ModeBlock → Hub → Hub) (s : State) :
    onHubM f s = .next { s with hub := f s.mb { s.hub with out := [] } } := rfl
@[simp] theorem onHub_next (f : Mode → Hub → Hub) (s : State) :
    onHub f s = .next { s with hub := f s.mb.mode { s.hub with out := [] } } := rfl
@[simp] theorem onBoth_next (f : ModeBlock → Hub → ModeBlock × Hub) (s : State) :
    onBoth f s = .next { s with mb := (f s.mb { s.hub with out := [] }).1, hub := (f s.mb { s.hub with out := [] }).2 } := rfl

end Sys2Proof.Machine
end

