-- ==== Sys2Proof/Laws/Server.lean ====
section
/-! SUPPORT. What a request does: one lemma for a request that is served, one for a granted write, one for a refused write. -/
namespace Sys2Proof.Machine

/-! ### What an answer leaves unchanged -/

/-- Two hubs that differ at most in what an answer changes. -/
def Hub.Alike (g h : Hub) : Prop := g.sansAnswer = h.sansAnswer ∧ ∀ k, ¬ answerCounter k → g.get k = h.get k

theorem Hub.Alike.refl (h : Hub) : Hub.Alike h h := ⟨rfl, fun _ _ => rfl⟩

theorem Hub.Alike.trans {f g h : Hub} (a : Hub.Alike f g) (b : Hub.Alike g h) : Hub.Alike f h :=
  ⟨a.1.trans b.1, fun k hk => (a.2 k hk).trans (b.2 k hk)⟩

/-- A loop whose body leaves the hub alike leaves it alike. -/
theorem Hub.forEach_alike {α : Type} (l : List α) (f : α → Hub → Hub) (hf : ∀ a ∈ l, ∀ h, Hub.Alike (f a h) h) (h : Hub) :
    Hub.Alike (h.forEach l f) h := by
  induction l generalizing h with
  | nil => exact Hub.Alike.refl h
  | cons a as ih =>
    exact (ih (fun b hb => hf b (List.mem_cons_of_mem a hb)) (f a h)).trans (hf a List.mem_cons_self h)

theorem Hub.emit_alike (h : Hub) (o : Out) : Hub.Alike (h.emit o) h := ⟨rfl, fun _ _ => rfl⟩
theorem Hub.modSrv_alike (h : Hub) (f : SrvSt → SrvSt) : Hub.Alike (h.modSrv f) h := ⟨rfl, fun _ _ => rfl⟩
theorem Hub.modMir_alike (h : Hub) (f : MirSt → MirSt) : Hub.Alike (h.modMir f) h := ⟨rfl, fun _ _ => rfl⟩
theorem Hub.modLane_alike (h : Hub) (l : Nat) (f : LaneSt → LaneSt) : Hub.Alike (h.modLane l f) h := ⟨rfl, fun _ _ => rfl⟩

theorem Hub.bump_alike (h : Hub) {k : Nat} (hk : answerCounter k) : Hub.Alike (h.bump k) h :=
  ⟨rfl, fun _ hj => Hub.bump_get_ne h (fun e => hj (e ▸ hk))⟩

theorem Hub.log_alike (h : Hub) (code severity source param : Nat) : Hub.Alike (h.log code severity source param) h := by
  refine ⟨?_, fun j hj => Hub.log_get h _ _ _ _ (fun e => hj (Or.inr (Or.inr (Or.inl e))))⟩
  obtain ⟨_, _, _, _, he, _⟩ := Hub.logAt_eq h h.stamp code severity source param
  unfold Hub.log
  rw [he]
  rfl

theorem Hub.msgDropped_alike (h : Hub) {l : Nat} (hl : l < 16) (code : Nat) : Hub.Alike (h.msgDropped l code) h := by
  have hb : Hub.Alike (h.bump (Obj.laneMsgDropped l)) h :=
    Hub.bump_alike h (Or.inr (Or.inr (Or.inr ⟨l, hl, rfl⟩)))
  unfold Hub.msgDropped
  extract_lets g due now
  split
  · exact (Hub.log_alike _ _ _ _ _).trans ((Hub.modLane_alike _ _ _).trans hb)
  · exact hb

theorem Hub.sendMsg_alike (h : Hub) {l : Nat} (hl : l < 16) (code : Nat) (bytes : List Nat) :
    Hub.Alike (h.sendMsg l code bytes) h := by
  unfold Hub.sendMsg
  split
  · exact Hub.Alike.refl h
  · extract_lets q
    split
    · exact Hub.modLane_alike _ _ _
    · split
      · exact (Hub.msgDropped_alike _ hl _).trans (Hub.modLane_alike _ _ _)
      · exact Hub.msgDropped_alike _ hl _

theorem Hub.floodMsg_alike (h : Hub) (e : Option Nat) (code : Nat) (bytes : List Nat) :
    Hub.Alike (h.floodMsg e code bytes) h := by
  unfold Hub.floodMsg
  refine Hub.forEach_alike _ _ (fun l hl g => ?_) h
  split
  · exact Hub.Alike.refl g
  · exact Hub.sendMsg_alike g (List.mem_range.mp hl) _ _

theorem Hub.sendHorol_alike (h : Hub) (dest : Nat) (pdu : List Nat) : Hub.Alike (h.sendHorol dest pdu) h := by
  unfold Hub.sendHorol
  extract_lets n own g
  exact (Hub.floodMsg_alike _ _ _ _).trans (Hub.modSrv_alike _ _)

theorem Hub.mailAnswer_alike (h : Hub) (pdus : List (List Nat)) : Hub.Alike (h.mailAnswer pdus) h := by
  unfold Hub.mailAnswer
  extract_lets d l
  exact (Hub.emit_alike _ _).trans (Hub.modMir_alike _ _)

theorem Hub.respond_alike (h : Hub) (src : Carrier) (pdus : List (List Nat)) : Hub.Alike (h.respond src pdus) h := by
  unfold Hub.respond
  split
  · exact Hub.forEach_alike _ _ (fun b _ g => Hub.emit_alike g _) h
  · exact Hub.forEach_alike _ _ (fun b _ g => Hub.emit_alike g _) h
  · exact Hub.forEach_alike _ _ (fun b _ g => Hub.sendHorol_alike g _ _) h
  · exact Hub.mailAnswer_alike h _

theorem Hub.finish_alike (h : Hub) (r : SrvReq) (pdus : List (List Nat)) : Hub.Alike (h.finish r pdus) h := by
  unfold Hub.finish
  extract_lets now
  exact (Hub.modSrv_alike _ _).trans (Hub.respond_alike _ _ _)

theorem Hub.abortReq_alike (h : Hub) (r : SrvReq) (code : Nat) : Hub.Alike (h.abortReq r code) h :=
  (Hub.finish_alike _ _ _).trans (Hub.bump_alike h (Or.inr (Or.inl rfl)))

theorem Hub.holdLoopWrite_alike (h : Hub) (l : Nat) (r : SrvReq) : Hub.Alike (h.holdLoopWrite l r) h := ⟨rfl, fun _ _ => rfl⟩

/-- An answer changes nothing but the counters, the callboard, the lanes' message queues, the mailbox, the server's tables and
what is sent. -/
theorem Hub.answer_alike (h : Hub) (r : SrvReq) (rep : Reply) : Hub.Alike (h.answer r rep) h := by
  have hb : Hub.Alike (h.bump Obj.requests) h := Hub.bump_alike h (Or.inl rfl)
  unfold Hub.answer
  split
  · exact (Hub.finish_alike _ _ _).trans hb
  · exact (Hub.abortReq_alike _ _ _).trans hb
  · split
    · exact Hub.mailAnswer_alike h _
    · exact Hub.Alike.refl h
  · extract_lets g
    split
    · exact (Hub.modSrv_alike _ _).trans hb
    · split
      · exact (Hub.modSrv_alike _ _).trans hb
      · split
        · exact (Hub.holdLoopWrite_alike _ _ _).trans hb
        · exact (Hub.modSrv_alike _ _).trans hb

/-- An answer leaves every object but its counters. -/
theorem Hub.answer_get (h : Hub) (r : SrvReq) (rep : Reply) {k : Nat} (hk : ¬ answerCounter k) :
    (h.answer r rep).get k = h.get k := (Hub.answer_alike h r rep).2 k hk

@[simp] theorem Hub.answer_part (h : Hub) (r : SrvReq) (rep : Reply) : (h.answer r rep).part = h.part := by
  have e := congrArg Hub.part (Hub.answer_alike h r rep).1; exact e
@[simp] theorem Hub.answer_time (h : Hub) (r : SrvReq) (rep : Reply) : (h.answer r rep).time = h.time := by
  have e := congrArg Hub.time (Hub.answer_alike h r rep).1; exact e
@[simp] theorem Hub.answer_eths (h : Hub) (r : SrvReq) (rep : Reply) : (h.answer r rep).eths = h.eths := by
  have e := congrArg Hub.eths (Hub.answer_alike h r rep).1; exact e
@[simp] theorem Hub.answer_ins (h : Hub) (r : SrvReq) (rep : Reply) : (h.answer r rep).ins = h.ins := by
  have e := congrArg Hub.ins (Hub.answer_alike h r rep).1; exact e
@[simp] theorem Hub.answer_drvs (h : Hub) (r : SrvReq) (rep : Reply) : (h.answer r rep).drvs = h.drvs := by
  have e := congrArg Hub.drvs (Hub.answer_alike h r rep).1; exact e
@[simp] theorem Hub.answer_cores (h : Hub) (r : SrvReq) (rep : Reply) : (h.answer r rep).cores = h.cores := by
  have e := congrArg Hub.cores (Hub.answer_alike h r rep).1; exact e
@[simp] theorem Hub.answer_fes (h : Hub) (r : SrvReq) (rep : Reply) : (h.answer r rep).fes = h.fes := by
  have e := congrArg Hub.fes (Hub.answer_alike h r rep).1; exact e
@[simp] theorem Hub.answer_align (h : Hub) (r : SrvReq) (rep : Reply) : (h.answer r rep).align = h.align := by
  have e := congrArg Hub.align (Hub.answer_alike h r rep).1; exact e
@[simp] theorem Hub.answer_chains (h : Hub) (r : SrvReq) (rep : Reply) : (h.answer r rep).chains = h.chains := by
  have e := congrArg Hub.chains (Hub.answer_alike h r rep).1; exact e
@[simp] theorem Hub.answer_outs (h : Hub) (r : SrvReq) (rep : Reply) : (h.answer r rep).outs = h.outs := by
  have e := congrArg Hub.outs (Hub.answer_alike h r rep).1; exact e
@[simp] theorem Hub.answer_dets (h : Hub) (r : SrvReq) (rep : Reply) : (h.answer r rep).dets = h.dets := by
  have e := congrArg Hub.dets (Hub.answer_alike h r rep).1; exact e
@[simp] theorem Hub.answer_cal (h : Hub) (r : SrvReq) (rep : Reply) : (h.answer r rep).cal = h.cal := by
  have e := congrArg Hub.cal (Hub.answer_alike h r rep).1; exact e
@[simp] theorem Hub.answer_eng (h : Hub) (r : SrvReq) (rep : Reply) : (h.answer r rep).eng = h.eng := by
  have e := congrArg Hub.eng (Hub.answer_alike h r rep).1; exact e
@[simp] theorem Hub.answer_strings (h : Hub) (r : SrvReq) (rep : Reply) : (h.answer r rep).strings = h.strings := by
  have e := congrArg Hub.strings (Hub.answer_alike h r rep).1; exact e
@[simp] theorem Hub.answer_pats (h : Hub) (r : SrvReq) (rep : Reply) : (h.answer r rep).pats = h.pats := by
  have e := congrArg Hub.pats (Hub.answer_alike h r rep).1; exact e
@[simp] theorem Hub.answer_trig (h : Hub) (r : SrvReq) (rep : Reply) : (h.answer r rep).trig = h.trig := by
  have e := congrArg Hub.trig (Hub.answer_alike h r rep).1; exact e
@[simp] theorem Hub.answer_streams (h : Hub) (r : SrvReq) (rep : Reply) : (h.answer r rep).streams = h.streams := by
  have e := congrArg Hub.streams (Hub.answer_alike h r rep).1; exact e
@[simp] theorem Hub.answer_queues (h : Hub) (r : SrvReq) (rep : Reply) : (h.answer r rep).queues = h.queues := by
  have e := congrArg Hub.queues (Hub.answer_alike h r rep).1; exact e
@[simp] theorem Hub.answer_fwds (h : Hub) (r : SrvReq) (rep : Reply) : (h.answer r rep).fwds = h.fwds := by
  have e := congrArg Hub.fwds (Hub.answer_alike h r rep).1; exact e
@[simp] theorem Hub.answer_wins (h : Hub) (r : SrvReq) (rep : Reply) : (h.answer r rep).wins = h.wins := by
  have e := congrArg Hub.wins (Hub.answer_alike h r rep).1; exact e
@[simp] theorem Hub.answer_slots (h : Hub) (r : SrvReq) (rep : Reply) : (h.answer r rep).slots = h.slots := by
  have e := congrArg Hub.slots (Hub.answer_alike h r rep).1; exact e
@[simp] theorem Hub.answer_red (h : Hub) (r : SrvReq) (rep : Reply) : (h.answer r rep).red = h.red := by
  have e := congrArg Hub.red (Hub.answer_alike h r rep).1; exact e
@[simp] theorem Hub.answer_pow (h : Hub) (r : SrvReq) (rep : Reply) : (h.answer r rep).pow = h.pow := by
  have e := congrArg Hub.pow (Hub.answer_alike h r rep).1; exact e
@[simp] theorem Hub.answer_free (h : Hub) (r : SrvReq) (rep : Reply) : (h.answer r rep).free = h.free := by
  have e := congrArg Hub.free (Hub.answer_alike h r rep).1; exact e

/-! ### A request -/

/-- Where nothing of its own instant prevails over it, a request is served as it stands. -/
theorem heeding_quiet {mb : ModeBlock} {h : Hub} {r : SrvReq} {next : Option Instr} (f : ModeBlock → Hub → SrvReq → ModeBlock × Hub)
    (hq : quiet mb h r next = true) : heeding next f mb h r = f mb h r := by
  unfold quiet at hq
  simp only [Bool.and_eq_true, Bool.or_eq_true, Bool.not_eq_true', decide_eq_true_eq] at hq
  unfold heeding
  have hn : (if r.asksMode = true then rivalOf mb h next else 0) = 0 := by
    split
    · rcases hq.1 with h1 | h1
      · simp_all
      · exact h1
    · rfl
  simp only [hn, ne_eq, not_true_eq_false, if_false, hq.2, Bool.false_eq_true]

/-- A request that reaches the server is handled on the hub as it finds it. -/
theorem request_reaches {q : ReqHead} {r : SrvReq} {s : State} (f : ModeBlock → Hub → SrvReq → ModeBlock × Hub)
    (h : Reaches q r s) :
    request q r f s =
      .next { s with mb := (f s.mb (arrived q s) (headed q r)).1, hub := (f s.mb (arrived q s) (headed q r)).2 } := by
  have hc : ({ s.hub with out := [] } : Hub).carrierOpen q.src = true := h.carrier
  have ha : (arrived q s).serverAway = false := h.here
  unfold request
  simp only [onBoth_next, h.up, hc, Bool.not_true, Bool.or_self, Bool.false_eq_true, if_false]
  unfold receiveWith
  simp only [show (Hub.waitTicks { s.hub with out := [] } q.dt) = arrived q s from rfl, ha, Bool.not_false, if_true]
  have e := heeding_quiet f h.calm
  show Host.Outcome.next { s with
    mb := (heeding s.pending.head? f s.mb (arrived q s) (headed q r)).1
    hub := (heeding s.pending.head? f s.mb (arrived q s) (headed q r)).2 } = _
  rw [e]

/-- A granted write has its act's effect, and is answered. -/
theorem writeRow_granted {q : ReqHead} {k len v : Nat} {act : Act} {s : State} (h : Granted q k len v act s) :
    writeRow q k len v act s = .next (written q k len v act s) := by
  unfold writeRow
  rw [request_reaches _ h.reaches]
  have hs : (arrived q s).stored (headed q (writeReq k len v)) = none := h.reaches.fresh
  have hn : (act.stored && !q.nvm) = false := by
    cases hb : act.stored with
    | false => rfl
    | true => simp [h.nvm hb]
  unfold handleWith
  rw [hs]
  have hw : writeWith act s.mb (arrived q s) (headed q (writeReq k len v)).nvm k len v =
      (grantedReply q k v act s, (act.apply s.mb (checkedHub q k v act s)).1, (act.apply s.mb (checkedHub q k v act s)).2) := by
    unfold writeWith
    simp only [h.checks, h.budget, h.own, ne_eq, not_true, if_false]
    rw [show (headed q (writeReq k len v)).nvm = q.nvm from rfl, hn]
    rfl
  simp only [hw]
  rfl

/-- A write that the checks of R423 refuse changes no object: it is answered with the code. -/
theorem writeRow_refused {q : ReqHead} {k len v : Nat} {act : Act} {s : State} (h : Reaches q (writeReq k len v) s)
    (hc : writeCheck s.mb (arrived q s) false k len v ≠ 0) :
    writeRow q k len v act s =
      .next { s with
        hub := (arrived q s).answer (headed q (writeReq k len v)) (.abort (writeCheck s.mb (arrived q s) false k len v)) } := by
  unfold writeRow
  rw [request_reaches _ h]
  unfold handleWith
  rw [h.fresh]
  simp only [writeWith, ne_eq, hc, not_false_eq_true, if_true]

/-- A hub that is down serves nothing. -/
theorem request_down {q : ReqHead} {r : SrvReq} {s : State} (f : ModeBlock → Hub → SrvReq → ModeBlock × Hub)
    (h : s.mb.up = false) : request q r f s = .next { s with hub := { s.hub with out := [] } } := by
  unfold request
  simp [h]

end Sys2Proof.Machine
end

