-- ==== Sys2Proof/Tests/Slice0.lean ====
section
/-! SUPPORT. Tests: ill-formed commands, the spec's worked examples, and for each statement with hypotheses a state and operands
that meet them. -/
namespace Sys2Proof.Tests
set_option Elab.async false
open Sys2Proof Sys2Proof.Machine

/-! ### Small states -/

/-- A hub in a mode, with these objects and all else as at reset. -/
def at_ (m : Mode) (l : List (Nat × Nat)) : State :=
  { State.reset with mb := { mode := m }, hub := { State.reset.hub with objs := l } }

/-- The same with its hub changed further. -/
def hubBy (s : State) (f : Hub → Hub) : State := { s with hub := f s.hub }

/-- The same with its mode block changed further. -/
def mbBy (s : State) (f : ModeBlock → ModeBlock) : State := { s with mb := f s.mb }

/-- A client at the mailbox. -/
def client : ReqHead := { src := .mailbox, tx := 1, dt := 0, nvm := true }

/-- A write is granted, as a Bool. -/
def grantedB (q : ReqHead) (k len v : Nat) (act : Act) (s : State) : Bool :=
  s.mb.up && s.hub.carrierOpen q.src && !s.hub.serverAway && ((arrived q s).stored (headed q (writeReq k len v))).isNone &&
    quiet s.mb (arrived q s) (headed q (writeReq k len v)) s.pending.head? &&
    writeCheck s.mb (arrived q s) false k len v = 0 && ((arrived q s).budgetCheck k v).1 = 0 &&
    (act.refuse s.mb ((arrived q s).budgetCheck k v).2).1 = 0 && (!act.stored || q.nvm)

/-- What the Bool says. -/
theorem granted_of {q : ReqHead} {k len v : Nat} {act : Act} {s : State} (h : grantedB q k len v act s = true) :
    Granted q k len v act s := by
  simp only [grantedB, Bool.and_eq_true, decide_eq_true_eq, Bool.not_eq_true', Option.isNone_iff_eq_none,
    Bool.or_eq_true] at h
  obtain ⟨⟨⟨⟨⟨⟨⟨⟨h1, h2⟩, h3⟩, h4⟩, h9⟩, h5⟩, h6⟩, h7⟩, h8⟩ := h
  refine ⟨⟨h1, h2, h3, h4, h9⟩, h5, h6, h7, fun ha => ?_⟩
  rcases h8 with h8 | h8
  · simp [ha] at h8
  · exact h8

/-! ### Supply, reset and modes -/

theorem witness_IdleTick : State.reset.pending = [] ∧ State.reset.mb.mode = .curtainDown ∧
    (at_ .boot []).pending = [] ∧ (at_ .boot []).mb.mode ≠ .curtainDown := by decide +kernel

/-- A hub in CURTAIN-DOWN that has both inputs. -/
def supplied : State := hubBy State.reset (fun h => { h with pow := { h.pow with vinA := true, vinB := true } })

theorem witness_WakeEntersBoot : State.reset.mb.mode = .curtainDown ∧ State.reset.hub.pow.vinA = false ∧
    State.reset.hub.pow.vinB = false ∧ supplied.mb.mode = .curtainDown ∧ (supplied.hub.pow.vinA || supplied.hub.pow.vinB) = true := by
  decide +kernel

/-- A hub whose rail stands, with the powers given. -/
def railed (m : Mode) (f : PowerSt → PowerSt) (l : List (Nat × Nat)) : State :=
  hubBy (at_ m l) (fun h => { h with pow := f { h.pow with vinA := true, vinB := true, bucks := 3, rail := true } })

theorem witness_SuppliesAndRail :
    (railed .configure id []).hub.pow.rail = true ∧
    (let s := railed .boot (fun p => { p with rail := false, retryDue := true, retries := 2 }) [];
      s.mb.mode = .boot ∧ s.hub.pow.retryDue = true ∧ s.hub.pow.retries < 3) ∧
    (∀ n, n = 2 ∨ n = 3 → let s := railed .boot (fun p => { p with retries := n }) [];
      s.mb.mode = .boot ∧ s.hub.pow.rail = true ∧ s.hub.pow.retries = n) ∧
    (let s := railed .configure id [];
      s.mb.mode ≠ .curtainDown ∧ s.hub.stalled = false ∧ s.hub.pow.vinA = true ∧ s.hub.pow.vinB = true ∧ s.hub.pow.bucks = 3 ∧
        s.hub.bit Obj.powerStatus (5 + 1) = false) ∧
    (let s := railed .configure (fun p => { p with vinB := false }) [];
      (s.hub.pow.vinA = true ↔ (1 : Fin 2) = 1) ∧ (s.hub.pow.vinB = true ↔ (1 : Fin 2) = 0)) := by
  refine ⟨by decide +kernel, by decide +kernel, ?_, by decide +kernel, by decide +kernel⟩
  rintro n (rfl | rfl) <;> decide +kernel

theorem witness_ResetPin :
    (let s := railed .run id []; s.mb.mode ≠ .curtainDown ∧ s.hub.pow.rstLow = false) ∧
    (let s := railed .boot (fun p => { p with rstLow := true }) []; s.mb.mode = .boot ∧ s.hub.pow.rstLow = true) := by
  decide +kernel

/-- A hub in BOOT: its memory die MD0 powered at tick 5, with these attempts. -/
def rising (n : Nat) : State :=
  railed .boot (fun p => { p with poweredAt := vset p.poweredAt 6 (some 5), attempts := vset p.attempts 6 n })
    [(Obj.dieState, 0x12111111)]

theorem witness_BringUp :
    (let s := railed .boot id [(Obj.dieState, 0x11111111)];
      s.mb.mode = .boot ∧ s.hub.pow.rail = true ∧ s.hub.pow.rstLow = false ∧
        bringUpOrder.find? (fun j => s.hub.part.has j && s.hub.die j = 1) = some (bringUpOrder.headD 0)) ∧
    (∀ n, n = 1 ∨ n = 2 → (rising n).mb.mode = .boot ∧ (rising n).hub.pow.rstLow = false ∧ vget (rising n).hub.pow.poweredAt 6 = some 5 ∧ (rising n).hub.die 6 = 2 ∧
      (rising n).hub.time.ticks + 0 ≤ 5 + bringUpLimit 6 ∧ vget (rising n).hub.pow.attempts 6 = n) := by
  refine ⟨by decide +kernel, ?_⟩
  rintro n (rfl | rfl) <;> decide +kernel

theorem witness_ModeRequestsAct :
    Granted client Obj.modeRequest 1 2 (actMode 2) (at_ .service []) ∧
    Granted client Obj.modeRequest 1 3 (actMode 3) (at_ .configure []) ∧
    Granted client Obj.modeRequest 1 4 (actMode 4) (at_ .configure []) ∧
    Granted client Obj.modeRequest 1 6 (actMode 6) (at_ .configure [(Obj.dieState, 0x33335555)]) ∧
    Granted client Obj.modeRequest 1 8 (actMode 8) (at_ .run []) ∧
    Granted client Obj.modeRequest 1 9 (actMode 9) (at_ .configure []) ∧
    Granted client Obj.modeRequest 1 10 (actMode 10) (at_ .run []) ∧
    Granted client Obj.modeRequest 1 0 (actMode 0) (at_ .configure []) ∧
    Granted client Obj.modeRequest 1 1 (actMode 1) (at_ .configure []) := by
  refine ⟨?_, ?_, ?_, ?_, ?_, ?_, ?_, ?_, ?_⟩ <;> exact granted_of (by decide +kernel)

/-- A hub in a mode that waits for its run cue at ARRAY 9 s. -/
def waiting (m : Mode) (n : Option Mode) (l : List (Nat × Nat)) : State :=
  mbBy (at_ m l) (fun b => { b with next := n, cue := some (9 * uSec) })

theorem witness_RunCueTransitions :
    ((at_ .sync []).mb.mode = .sync ∧ (at_ .sync []).mb.cue = none) ∧
    (∃ l, let s := waiting .sync none l; s.mb.mode = .sync ∧ s.mb.cue = some (9 * uSec) ∧ s.hub.lockLevel = true) ∧
    (∃ l, let s := waiting .sync none l; s.mb.mode = .sync ∧ s.mb.cue = some (9 * uSec) ∧ s.hub.lockLevel = false) ∧
    (let s := waiting .runSimplex (some .hold) []; s.mb.mode.running = true ∧ s.mb.next = some .hold) ∧
    (let s := waiting .hold (some .run) []; s.mb.mode = .hold ∧ s.mb.next = some .run) := by
  refine ⟨by decide +kernel, ⟨[(Obj.tbState 0, 0)], by decide +kernel⟩, ⟨[(Obj.tbState 0, 4)], by decide +kernel⟩, by decide +kernel, by decide +kernel⟩

theorem witness_TemperatureActs : (at_ .run []).mb.up = true ∧ (at_ .run []).mb.mode ≠ .shutdown ∧
    ((at_ .run []).mb.conds.overTemp && bitOf (at_ .run []).mb.safeCause 1) = false := by
  decide +kernel

theorem witness_ShutdownRuns : (at_ .run []).mb.canTrip = true ∧ 0 < (at_ .run []).hub.get Obj.pfwThreshold ∧
    (∀ k : ShutKind, (mbBy (at_ .shutdown []) (fun b => { b with shut := k, drainAt := some 7 })).mb.mode = .shutdown ∧
      (mbBy (at_ .shutdown []) (fun b => { b with shut := k, drainAt := some 7 })).mb.shut = k ∧
      (mbBy (at_ .shutdown []) (fun b => { b with shut := k, drainAt := some 7 })).mb.drainAt = some 7) := by
  refine ⟨by decide +kernel, by decide +kernel, fun k => ?_⟩
  cases k <;> decide +kernel

theorem witness_BootAndRestart :
    (let s := railed .boot id [(Obj.dieState, 0x33333333), (Obj.dieRole 0, 2)];
      s.mb.mode = .boot ∧ s.hub.pow.rail = true ∧ s.hub.pow.rstLow = false ∧ s.hub.bringUpOver = true ∧ s.hub.role 0 = 2) ∧
    (let s := railed .boot id [(Obj.dieState, 0x33773333), (Obj.dieRole 0, 0)];
      s.mb.mode = .boot ∧ s.hub.pow.rail = true ∧ s.hub.pow.rstLow = false ∧ s.hub.bringUpOver = true ∧ s.hub.role 0 ≠ 2 ∧ s.hub.role 1 ≠ 2 ∧ s.hub.die 4 = 7 ∧ s.hub.die 5 ≠ 3) ∧
    (let s := at_ .run [(Obj.dieState, 0x33333333)]; s.mb.up = true ∧ s.hub.die (4 + 1) = 3 ∧ (s.hub.hdie 1).restarting = false) ∧
    (let s := hubBy (at_ .run []) (fun h => h.modHdie 1 (fun d => { d with restarting := true }));
      s.mb.up = true ∧ (s.hub.hdie 1).restarting = true ∧ s.hub.srv.waiting = []) := by
  decide +kernel

/-! ### The object server -/

/-- A READ of MODE, as a request. -/
def readMode : SrvReq := rowReq 1 0x1201 0 0 false 0 []

/-- The server answered `r` at tick 0. -/
def answered (r : SrvReq) (s : State) : State :=
  hubBy s (fun h => h.modSrv (fun v => { v with answered := [{ req := r, pdus := [[1]] }] }))

/-- Two segments of a BLOCK-WRITE of 60 bytes to CAL_RECORD_IMPORT; the first is in. -/
def segmentOf (k : Fin 256) : Instr :=
  .blockWrite client 0x3320 0 k false 60 (List.replicate (if k = 0 then 54 else 6) 7)
def halfWay : State :=
  hubBy (at_ .configure []) (fun h => h.modSrv (fun v => { v with
    transfers := [{ first := headed client (rowReq 6 0x3320 0 0 false 60 (List.replicate 54 7)), segs := [(0, List.replicate 54 7)] }] }))

/-- The Lead restarts, and `n` requests wait. -/
def away (n : Nat) : State :=
  hubBy (at_ .configure []) (fun h => ((h.modHdie 0 (fun d => { d with restarting := true })).modSrv
    (fun v => { v with waiting := List.replicate n readMode })))

theorem witness_DownServesNothing : asRequest (.read client 0x1201 0 false) = some (client, readMode) ∧
    State.reset.mb.up = false ∧ (at_ .boot []).mb.up = false := by
  decide +kernel

theorem witness_RepeatIsNotExecuted :
    (asRequest (.read client 0x1201 0 false) = some (client, readMode) ∧
      (let s := answered (headed client readMode) (at_ .configure []);
        s.mb.up = true ∧ s.hub.carrierOpen client.src = true ∧ s.hub.serverAway = false ∧ readMode.service ≠ 6 ∧
          ((arrived client s).stored (headed client readMode)).isSome = true)) ∧
    (let r := rowReq 6 0x3320 0 1 false 60 (List.replicate 6 7);
      asRequest (segmentOf 1) = some (client, r) ∧ r.inOne = false ∧ r.formBad = 0 ∧
        (let s := answered { headed client r with data := List.replicate 60 7, segment := 0 } halfWay;
          (s.hub.srv.transfers.find? (fun u => u.takes (headed client r))).isSome = true ∧
          (s.hub.srv.transfers.map (fun x => ({ x with
            segs := (r.segment, r.data) :: x.segs.filter (fun e => e.1 ≠ r.segment) } : Transfer).whole)) = [some (List.replicate 60 7)] ∧
          ((arrived client s).stored { headed client r with data := List.replicate 60 7, segment := 0 }).isSome = true)) := by
  decide +kernel

theorem witness_SixteenWait : asRequest (.read client 0x1201 0 false) = some (client, readMode) ∧
    (∀ n, n = 15 ∨ n = 16 → (away n).mb.up = true ∧ (away n).hub.carrierOpen client.src = true ∧ (away n).hub.serverAway = true ∧
      (away n).hub.srv.waiting.length = n) := by
  refine ⟨by decide +kernel, ?_⟩
  rintro n (rfl | rfl) <;> decide +kernel

/-- FW_TARGET_SLOT takes 0 and 1 (R446); a 5 is refused. -/
theorem witness_RefusedWriteChangesNothing :
    (let s := at_ .service [];
      (s.mb.up && s.hub.carrierOpen client.src && !s.hub.serverAway &&
        ((arrived client s).stored (headed client (writeReq Obj.fwTargetSlot 1 5))).isNone) = true ∧
      writeCheck s.mb (arrived client s) false Obj.fwTargetSlot 1 5 = Abort.valueOutOfRange) := by
  decide +kernel

/-- The request of R444's worked example, a READ of GAIN_G2 of channel 217, is read from the bytes that the rule gives. -/
theorem test_request_R444 :
    parsePdu .mailbox true [0x01, 0x4C, 0x5B, 0x33, 0x25, 0x00, 0x00, 0x00] =
      some { src := .mailbox, tx := 0x4C, service := 1, index := 0x335B, sub := 0x25, nvm := true } ∧
    respPdus { tx := 0x4C, service := 1, index := 0x335B, sub := 0x25 } false (toBytes 4 0x3FFFF36B) =
      [[0x21, 0x4C, 0x5B, 0x33, 0x25, 0x00, 0x10, 0x00, 0x6B, 0xF3, 0xFF, 0x3F]] := by
  decide +kernel

theorem witness_GrantedWriteActs : asWrite (.modeRequestSafe client) = some (client, Obj.modeRequest, 1, 10, actMode 10) ∧
    Granted client Obj.modeRequest 1 10 (actMode 10) (at_ .run []) :=
  ⟨rfl, granted_of (by decide +kernel)⟩

/-- A request reaches the server. -/
theorem reaches_of {q : ReqHead} {r : SrvReq} {s : State} (h : (s.mb.up && s.hub.carrierOpen q.src && !s.hub.serverAway &&
    ((arrived q s).stored (headed q r)).isNone && quiet s.mb (arrived q s) (headed q r) s.pending.head?) = true) : Reaches q r s := by
  simp only [Bool.and_eq_true, Bool.not_eq_true', Option.isNone_iff_eq_none] at h
  exact ⟨h.1.1.1.1, h.1.1.1.2, h.1.1.2, h.1.2, h.2⟩

theorem witness_ServicesRun : Reaches client readMode (at_ .configure []) ∧
    Reaches client (rowReq 8 0 0 0 false 0 []) (at_ .configure []) ∧
    Reaches client (rowReq 7 0 0 0 false 0 []) (at_ .configure []) ∧ knownService 7 = false :=
  ⟨reaches_of (by decide +kernel), reaches_of (by decide +kernel), reaches_of (by decide +kernel), by decide⟩

/-- A hub in SERVICE: slot 1 of both hub dies holds factory firmware, and FW_TARGET_SLOT names it. -/
def serviced (l : List (Nat × Nat)) : State :=
  hubBy (at_ .service (l ++ [(Obj.fwTargetSlot, 1)])) (fun h =>
    (h.modSlotFw 0 1 (fun _ => { state := 2, version := 7, factory := true })).modSlotFw 1 1
      (fun _ => { state := 2, version := 7, factory := true }))

/-- A record of kind 0 and no payload, and its CRC-32. -/
def emptyRecord : List (Fin 256) :=
  let b := [0, 1, 0, 1] ++ List.replicate 36 0
  (b ++ toBytes 4 (crc32 b)).map (fun n => Fin.ofNat _ n)

theorem witness_ServicesRun_bytes :
    (∀ r, r ∈ [rowReq 1 (Obj.cbRecord / 256) (Obj.cbRecord % 256) 0 false 0 [], rowReq 5 0x1201 0 0 false 2 (toBytes 2 4),
        rowReq 5 (Obj.slotData 3 / 256) (Obj.slotData 3 % 256) 0 false 2 (toBytes 2 4),
        rowReq 5 (Obj.traceTraceData 3 / 256) (Obj.traceTraceData 3 % 256) 0 false 2 (toBytes 2 4),
        rowReq 2 0x1201 0 0 false 1 [5], rowReq 6 0x1201 0 0 false 1 [5], rowReq 6 0x1201 0 0 true 1 [5],
        rowReq 9 0 0 0 false 4 [0, 9, 0, 0]] → Reaches client r (at_ .configure [])) ∧
    (let r := rowReq 6 0x3320 0 1 false 60 (List.replicate 6 7);
      Reaches client r (at_ .configure []) ∧ 1 < segCount 60 ∧ 6 = segLen 60 1 ∧
        (arrived client (at_ .configure [])).srv.transfers.all (fun t => !t.takes (headed client r)) = true) ∧
    (let s := at_ .configure [];
      Reaches client (rowReq 3 0x5113 6 0 false 4 [5, 0, 0, 0]) s ∧ writeCheck s.mb (arrived client s) true (0x5113 * 256 + 6) 4 5 = 0 ∧
        0x5113 * 256 + 6 ≠ Obj.fwTargetSlot ∧ stagingFits (stageInto s.hub.srv.staging { key := 0x5113 * 256 + 6, len := 4, val := 5 }) = true) := by
  refine ⟨?_, ⟨reaches_of (by decide +kernel), by decide, by decide, by decide +kernel⟩,
    ⟨reaches_of (by decide +kernel), by decide +kernel, by decide, by decide +kernel⟩⟩
  simp only [List.forall_mem_cons]
  refine ⟨?_, ?_, ?_, ?_, ?_, ?_, ?_, ?_, by simp⟩ <;> exact reaches_of (by decide +kernel)

theorem witness_ServicesRun_writes :
    Granted client Obj.stageClear 1 1 actStageClear (at_ .configure []) ∧
    Granted client Obj.fwTargetSlot 1 1 (actFwTarget 1) (serviced []) ∧
    Granted client Obj.fwErase 1 1 actFwErase (serviced []) ∧
    Granted client Obj.fwVerify 1 1 actFwVerify (serviced []) ∧
    Granted client (Obj.fwBootSlot 0) 1 1 (actStore (Obj.fwBootSlot 0) 1) (serviced []) ∧
    Granted client Obj.configSave 1 1 actConfigSave (at_ .configure []) ∧
    Granted client Obj.configSave 1 2 actConfigErase (at_ .configure []) ∧
    (serviced []).hub.get Obj.fwTargetSlot < 2 ∧ 0 ∈ (serviced []).hub.part.hubDies ∧ (serviced []).hub.fwBusy = 0 ∧
    (let d := byteVals (List.replicate 8 7);
      Reaches client (blockReq Obj.fwData d) (serviced []) ∧
        writeCheck (serviced []).mb (arrived client (serviced [])) false Obj.fwData d.length (ofBytes d) = 0 ∧
        (serviced []).hub.get Obj.fwOffset + d.length ≤ 3 * 1024 * 1024) ∧
    (let d := byteVals emptyRecord;
      Reaches client (blockReq Obj.calRecordImport d) (serviced []) ∧
        writeCheck (serviced []).mb (arrived client (serviced [])) false Obj.calRecordImport d.length (ofBytes d) = 0 ∧
        (arrived client (serviced [])).importRefusal (serviced []).mb.mode d = 0) := by
  refine ⟨?_, ?_, ?_, ?_, ?_, ?_, ?_, by decide +kernel, by decide +kernel, by decide +kernel,
    ⟨reaches_of (by decide +kernel), by decide +kernel, by decide +kernel⟩,
    ⟨reaches_of (by decide +kernel), by decide +kernel, by decide +kernel⟩⟩ <;> exact granted_of (by decide +kernel)


/-- R442 and R444's worked example: the response to node 0x12 has identifier 0x192 and the 12 bytes of one frame. -/
theorem test_can_identifier : (at_ .run [(Obj.nodeId 0, 0x12)]).hub.canOut 0 3
    [0x21, 0x4C, 0x5B, 0x33, 0x25, 0x00, 0x10, 0x00, 0x6B, 0xF3, 0xFF, 0x3F] =
    .can 0 0x192 [0x21, 0x4C, 0x5B, 0x33, 0x25, 0x00, 0x10, 0x00, 0x6B, 0xF3, 0xFF, 0x3F] := by
  decide +kernel

/-! ### Front end, conversion and calibration -/

/-- Every die is UP. -/
def allUp : Nat × Nat := (Obj.dieState, 0x33333333)

/-- A hub in RUN with driver 3 as given, and these objects. -/
def driver (f : DrvSt → DrvSt) (l : List (Nat × Nat)) : State := hubBy (at_ .run (allUp :: l)) (fun h => h.modDrv 3 f)

theorem witness_Excitation :
    (let s := driver (fun v => { v with active := true }) [(Obj.excMode 3, 1)];
      s.hub.excOn 3 = true ∧ (s.hub.drv 3).fault = none ∧ s.mb.drives = true) ∧
    (let s := driver (fun v => { v with active := true, fault := some 9 }) [(Obj.excMode 3, 1)];
      (s.hub.drv 3).fault = some 9 ∧ s.hub.bit (Obj.excStatus 3) 3 = false ∧ s.hub.bit (Obj.excStatus 3) 2 = false) ∧
    (let s := driver (fun v => { v with turnOn := some 8 }) [(Obj.excMode 3, 1)];
      (s.hub.drv 3).turnOn = some 8 ∧ s.hub.get (Obj.excMode 3) ≠ 0) ∧
    (∀ w, w = none ∨ w = some uGrid →
      let s := driver (fun v => { v with active := true, window := w }) [(Obj.excMode 3, 3), (Obj.excPulseEvery 3, 5)];
      (s.hub.drv 3).active = true ∧ s.hub.get (Obj.excMode 3) = 3 ∧ s.hub.pulsePeriod 3 ≠ 0 ∧ (s.hub.drv 3).window = w) := by
  refine ⟨by decide +kernel, by decide +kernel, by decide +kernel, ?_⟩
  rintro w (rfl | rfl) <;> decide +kernel

theorem witness_Excitation_clear : Granted client (Obj.excFaultClear 3) 1 1 (actExcFaultClear 3) (at_ .run [allUp]) :=
  granted_of (by decide +kernel)

/-- The worked example of R121: 2.300 ns before the grid instant at INCREMENT 4.000012 ns the code is 294. -/
theorem test_steer_R121 : steer 0 4398059705630 (150733 : Nat) = 294 := by decide +kernel

/-- The hub die that FE1's arbiter selects sends it no grid marks. -/
def unmarked : State := hubBy (at_ .run [allUp]) (fun h => h.modArb 1 (fun v => { v with ok0 := false, ok1 := false }))

theorem witness_GridHold : (at_ .run [allUp]).mb.samples = true ∧ 0 < (at_ .run [allUp]).hub.incr 0 ∧
    (at_ .run [allUp]).hub.feUp (chFe 7) = true ∧ (at_ .run [allUp]).hub.marked (chFe 7) = true ∧
    (at_ .run [allUp]).hub.get Obj.calStep = 0 ∧ unmarked.mb.samples = true ∧ unmarked.hub.marked 1 = false ∧
    (at_ .service []).mb.samples = false ∧ (at_ .service []).mb.up = true ∧
    (let s := hubBy (at_ .run [allUp]) (fun h => h.waitTicks 100);
      (0 : Int) ≤ 512 * ((s.hub.time.ticks : Int) - 1) + steer (s.hub.acc 0 - s.hub.incr 0) (s.hub.incr 0) (gridU 1) +
        s.hub.getI 8 (Obj.holdTrim 2)) := by
  decide +kernel

theorem witness_RangeDecision :
    (let v : InSt := { range := 2, conv := [(4, 2, 131071), (3, 2, 0)], down := 5 };
      0 ≤ v.range ∧ v.range ≤ 3 ∧ v.predict 5 > (upThreshold : Rat) ∧ 0 < v.range) ∧
    (let v : InSt := { range := 2, conv := [(4, 2, 100), (3, 2, 100)], down := 5 };
      v.predict 5 ≤ (upThreshold : Rat) ∧ v.range < 3 ∧ 4 * v.predict 5 < (upThreshold : Rat)) ∧
    (let v : InSt := { range := 2, conv := [(4, 2, 26214), (3, 2, 20000)], down := 5 };
      v.predict 5 ≤ (upThreshold : Rat) ∧ (upThreshold : Rat) ≤ 4 * v.predict 5) := by
  decide +kernel

theorem witness_AutoRanges : (at_ .run [allUp]).mb.samples = true ∧ (at_ .run [allUp]).hub.auto 7 = true ∧
    (at_ .run [allUp]).hub.get (Obj.chRangeCoarsest 7) ≤ ((at_ .run [allUp]).hub.ch 7).range ∧
    ((at_ .run [allUp]).hub.ch 7).range ≤ (at_ .run [allUp]).hub.get (Obj.chRangeFinest 7) := by
  decide +kernel

/-- A hub in RUN with core 13 as given. -/
def coreIs (c : CoreSt) (l : List (Nat × Nat)) : State := hubBy (at_ .run (allUp :: l)) (fun h => h.modCore 13 (fun _ => c))

theorem witness_CoreSlots : (coreIs { slot := 9, guard := true, injUsed := 1 } []).mb.samples = true ∧
    (coreIs { slot := 9, guard := true, injUsed := 1 } []).hub.feUp 1 = true ∧
    (coreIs { slot := 9, guard := true, injUsed := 1 } []).hub.core 13 = { slot := 9, guard := true, injUsed := 1 } := by
  decide +kernel

/-- Input 2 of core 13 is eligible for injection (R131). -/
def injecting (c : CoreSt) : State :=
  coreIs c [(Obj.chInjEligible 106, 1)]

theorem witness_InjectedSequences :
    (∀ b, b = [] ∨ b = [{ input := 2 }] → let s := injecting { edges := [100, 200], injQ := b };
      s.mb.injects = true ∧ s.hub.injKind 13 ≠ 3 ∧ (s.hub.core 13).edges = [100, 200] ∧ s.hub.injEntries 13 ≠ [] ∧
        (s.hub.core 13).injBusy = !b.isEmpty) ∧
    (let s := injecting { dues := [gridU 3, gridU 5] };
      (s.hub.core 13).dues = [gridU 3, gridU 5] ∧ (s.hub.core 13).injBusy = false ∧ s.hub.injRangeChange 13 = false) ∧
    (let s := hubBy (injecting { dues := [gridU 3 - 5] }) (fun h => ({ h with time := { h.time with nextGrid := 3 } }).modCh 106
        (fun v => { v with next := some 2 }));
      (s.hub.core 13).injBusy = false ∧ gridU 3 < gridU 3 - 5 + 2 * uSlot ∧ s.hub.injRangeChange 13 = true) := by
  refine ⟨?_, by decide +kernel, by decide +kernel⟩
  rintro b (rfl | rfl) <;> decide +kernel

theorem witness_InjectedSequences_soft :
    Granted client (Obj.coreInjSoftStart 13) 1 1 (actInjSoftStart 13) (injecting {}) := granted_of (by decide +kernel)

theorem witness_HoldSkew : (at_ .run [allUp]).mb.drives = true ∧ (at_ .run [allUp]).hub.feUp 2 = true ∧
    (at_ .run []).hub.feUp 2 = false ∧
    (mbBy (at_ .safe []) (fun b => { b with safeFrom := .configure })).mb.samples = true := by
  decide +kernel

/-- A hub in RUN whose FE1 has swing state `st` and, where it has, core 13 (FE1's core 1) in the swing core's hands. -/
def swing (st : Nat) (f : SwingSt → SwingSt) (l : List (Nat × Nat)) : State :=
  hubBy (at_ .run ([allUp, (Obj.swingState 1, st), (Obj.swingCore 1, if st = 0 then 0xFF else 1)] ++ l))
    (fun h => h.modFe 1 (fun v => { v with swing := f v.swing }))

theorem witness_SwingCore_requests :
    Granted client (Obj.swingRequest 1) 1 1 (actSwing 1 1) (swing 0 id []) ∧
    (Granted client (Obj.swingRequest 1) 1 0xFE (actSwing 1 0xFE) (swing 2 id []) ∧ (swing 2 id []).hub.swingSt 1 = 2 ∧
      (swing 2 id []).hub.get (Obj.swingCore 1) = 1) :=
  ⟨granted_of (by decide +kernel), granted_of (by decide +kernel), by decide +kernel, by decide +kernel⟩

theorem witness_SwingCore : (swing 1 id []).mb.samples = true ∧ (swing 1 id []).hub.get (Obj.swingCore 1) = 1 ∧
    (swing 1 id []).hub.swingSt 1 = 1 ∧ (swing 3 id []).hub.swingSt 1 = 3 ∧ (swing 3 id []).hub.bg 1 = {} ∧
    0 ≤ (swing 1 id []).hub.get Obj.swingMatchLsb ∧ (swing 1 id []).hub.get Obj.swingMatchLsb < 99999 ∧
    ((swing 3 (fun v => { v with failedOnce := true }) []).hub.fe 1).swing.failedOnce = true ∧
    (∀ st, st = 0 ∨ st = 4 → let s := hubBy (swing st id []) (fun h => h.modCore 13 (fun v => { v with refStreak := 16 }));
      16 ≤ (s.hub.core (1 * 12 + 1)).refStreak ∧ s.hub.get (Obj.coreCoreStatus (1 * 12 + 1)) < 4 ∧ s.hub.swingSt 1 = st) := by
  refine ⟨by decide +kernel, by decide +kernel, by decide +kernel, by decide +kernel, by decide +kernel, by decide +kernel,
    by decide +kernel, by decide +kernel, ?_⟩
  rintro st (rfl | rfl) <;> decide +kernel

/-- A hub in RUN whose FE1 has this background calibration. -/
def bgAt (b : BgSt) : State := hubBy (at_ .run [allUp]) (fun h => h.modBg 1 (fun _ => b))

theorem witness_BackgroundCalibration :
    (let s := bgAt {}; s.mb.samples = true ∧ s.mb.mode ≠ .calibrate ∧ s.hub.flag Obj.calBgEnable = true ∧
      s.hub.get Obj.calCyclePeriod ≠ 0 ∧ s.hub.feUp 1 = true ∧ s.hub.swingSt 1 ≠ 4 ∧ (s.hub.bg 1).round = false ∧
      s.hub.swingSt 1 = 0) ∧
    (bgAt { round := true }).hub.bg 1 = { round := true } ∧
    (∀ ph rep cv, (ph = 0 ∨ ph = 1 ∨ ph = 2) → (cv = 5 ∨ cv = 12) → (rep = false ∨ rep = true) →
      let b : BgSt := { round := true, conv := some cv, phase := ph, repeated := rep };
      (bgAt b).hub.bg 1 = b ∧ b.conv = some cv ∧ cv ≤ 12) := by
  refine ⟨by decide +kernel, by decide +kernel, ?_⟩
  rintro ph rep cv (rfl | rfl | rfl) (rfl | rfl) (rfl | rfl) <;> decide +kernel

/-- A hub in CALIBRATE at a step of a calibration of FULL kind. -/
def calAt (step : Nat) : State :=
  hubBy (at_ .calibrate [allUp, (Obj.calStep, step)]) (fun h => { h with cal := { h.cal with step := step - 1 } })

/-- Readings of a quiet package, and of one whose converter 0 is unstable twice. -/
def quiet : CalReading := { (default : CalReading) with dt := 0 }
def noisy : CalReading := { (default : CalReading) with convs := [{ (default : CalConv) with spread1 := [500], spread2 := [500] }] }

theorem witness_ForegroundCalibration : (calAt 1).mb.mode = .calibrate ∧ (calAt 1).hub.get Obj.calStep = 1 ∧
    (((calAt 1).hub.feList.flatMap (fun f => (List.range 13).map (fun c => f * 13 + c))).find? (unstable quiet.convs)) = none ∧
    (((calAt 1).hub.feList.flatMap (fun f => (List.range 13).map (fun c => f * 13 + c))).find? (unstable noisy.convs)) = some 0 ∧
    (calAt 3).hub.get Obj.calStep = 3 ∧ (calAt 6).hub.get Obj.calStep = 6 := by
  decide +kernel

theorem witness_ForegroundCalibration_cancel : Granted client Obj.calCancel 1 1 actCalCancel (calAt 3) :=
  granted_of (by decide +kernel)

theorem witness_BackgroundResultsAreStored : (at_ .run []).mb.up = true ∧ (at_ .run []).mb.loader = false ∧ (at_ .run []).hub.part.fe ≤ 4 ∧
    0x100 ∈ (at_ .run []).hub.part.records ∧ 0x12F ∈ (at_ .run []).hub.part.records ∧ 0x143 ∈ (at_ .run []).hub.part.records := by
  decide +kernel

/-! ### Filter pipeline -/

/-- A hub in RUN on two hub dies, and the hub made of it. -/
def duplex (l : List (Nat × Nat)) (f : Hub → Hub) : State :=
  hubBy (at_ .run ([allUp, (Obj.dieRole 0, 2), (Obj.dieRole 1, 3)] ++ l)) f

/-- FE1 has sent the frame of grid index 0, and grid index 1 is next. -/
def sentFrame : State :=
  duplex [] (fun h => ({ h with time := { h.time with nextGrid := 1 } }).modFe 1 (fun v => { v with sent := [{ idx := 0 }] }))

theorem witness_RawFrames : sentFrame.mb.samples = true ∧ sentFrame.hub.feUp 1 = true ∧ sentFrame.hub.pathRuns 1 = true ∧
    (sentFrame.hub.alignOf 1 1).failed = false ∧ sentFrame.hub.nextFrame 1 1 = some { idx := 0 } ∧
    sentFrame.hub.relIdx < sentFrame.hub.time.nextGrid ∧ sentFrame.hub.wasHeld sentFrame.hub.relIdx = true ∧
    0 < sentFrame.hub.incr 0 ∧ sentFrame.hub.gotFrame 1 1 0 = none := by
  decide +kernel

/-- Channel 100 with a chain of this history. -/
def chained (c : ChainCtx) : State :=
  duplex [] (fun h => { (h.modChain 100 (fun v => { v with ctxs := [c] })) with relIdx := 99999 })

theorem witness_OutputsLeave :
    (∀ l, l = none ∨ l = some (0 : Int) → let s := chained { last := l };
      s.mb.samples = true ∧ s.hub.feUp (chFe 100) = true ∧ s.hub.flag (Obj.chGated 100) = false ∧
        (s.hub.chain 100).ctxs = [{ last := l }] ∧ ({ last := l } : ChainCtx).newest 0 < s.hub.relIdx) ∧
    (let s := duplex [] (fun h => { (h.modCh 100 (fun v => { v with avg := { done := some 7 } })) with relIdx := 8 });
      (s.hub.ch 100).avg.done = some 7 ∧ 7 < s.hub.relIdx) ∧
    (let s := duplex [] (fun h => h.modCore 13 (fun v => { v with diag := [(2, { fin := 2 * diagHalf, cnt := 5 })] }));
      s.hub.feUp (13 / 12) = true ∧ s.hub.diagNext 13 2 = some { fin := 2 * diagHalf, cnt := 5 }) := by
  refine ⟨?_, by decide +kernel, by decide +kernel⟩
  rintro l (rfl | rfl) <;> decide +kernel

theorem witness_OutputWords : -outMax ≤ (-outMax : Int) ∧ (-outMax : Int) ≤ outMax ∧ stage5Clamped (7 / 2) = false := by
  decide +kernel

theorem witness_SynchronisingResets :
    (let s := duplex [] (fun h => h.modCh 100 (fun v => { v with resyncAt := some 40 }));
      s.hub.flag (Obj.chGated 100) = false ∧ s.mb.samples = true ∧ s.hub.feUp (chFe 100) = true ∧
        (s.hub.ch 100).resyncAt = some 40) ∧
    Granted client Obj.resyncRequest 2 100 (actResync 100) (duplex [] id) ∧
    Granted client Obj.resyncRequest 2 0xFFFF (actResync 0xFFFF) (duplex [] id) :=
  ⟨by decide +kernel, granted_of (by decide +kernel), granted_of (by decide +kernel)⟩

/-- Detector 9 with an output of its source due at 500, lost or not, `cnt` into its block. -/
def detecting (type cnt : Nat) (lost : Bool) : State :=
  duplex [(Obj.detType 9, type), (Obj.detParamA 9, 3)]
    (fun h => h.modDet 9 (fun v => { v with cnt := cnt, inbox := [(500, { instant := 400, lost0 := lost, lost1 := lost }, false)] }))

theorem witness_DetectorsUpdate : ∀ type cnt lost, (type = 1 ∨ type = 2 ∨ type = 3 ∨ type = 4) → (cnt = 0 ∨ cnt = 7) →
    (lost = false ∨ lost = true) → let s := detecting type cnt lost;
    s.mb.up = true ∧ (s.hub.det 9).inbox = [(500, { instant := 400, lost0 := lost, lost1 := lost }, false)] ∧
      s.hub.get (Obj.detType 9) = type ∧ (s.hub.det 9).cnt = cnt ∧ s.hub.get (Obj.detParamA 9) = 3 := by
  rintro type cnt lost (rfl | rfl | rfl | rfl) (rfl | rfl) (rfl | rfl) <;> decide +kernel

/-! ### Time -/

/-- A hub in RUN with base ARRAY in state `st` from source PPS_IN (3) or another, and its servo. -/
def servo (src st : Nat) (f : Servo → Servo) (l : List (Nat × Nat)) : State :=
  duplex ([(Obj.tbSource 0, src), (Obj.tbState 0, st)] ++ l) (fun h => h.modServo 0 f)

theorem witness_ServoStates : ∀ st, (st = 0 ∨ st = 1 ∨ st = 2 ∨ st = 3 ∨ st = 4) →
    let s := servo 3 st (fun v => { v with meas := some 900 }) [];
    servoRuns s.mb.mode = true ∧ s.hub.stalled = false ∧ s.mb.mode ≠ .sync ∧ s.hub.get (Obj.tbSource 0) = 3 ∧ s.hub.get (Obj.tbState 0) = st ∧
      (s.hub.servo 0).meas = some 900 ∧ (s.hub.servo 0).force = false ∧ (900 : Int).natAbs < uUs ∧
      900 ≤ s.hub.get (Obj.tbJumpThreshold 0) * 65536 ∧
      (hubBy s (fun h => h.modHdie 0 (fun d => { d with restarting := true }))).hub.stalled = true := by
  rintro st (rfl | rfl | rfl | rfl | rfl) <;> decide +kernel

theorem witness_BasesStep_step :
    (servo 3 0 (fun v => { v with step := some (-5, 100) }) []).hub.servo 0 = { step := some (-5, 100) } ∧
    (let s := hubBy (servo 3 0 (fun v => { v with step := some (-5, 100) }) []) (fun h => { h with time := { h.time with nextGrid := 9 } });
      s.mb.samples = true ∧ (s.hub.waitTick 100).boundary < gridU s.hub.time.nextGrid) ∧
    0 < (at_ .configure [allUp]).hub.incr 0 ∧ (at_ .configure [allUp]).hub.incr 0 ≤ 2 ^ 24 * uGrid ∧
    (duplex [] id).mb.mode ≠ .curtainDown ∧ (duplex [] id).mb.mode ≠ .boot ∧
    ppsValid none 5 = true ∧ ppsValid (some 0) 5 = false := by
  decide +kernel

theorem witness_BasesStep_set :
    (arrived client (at_ .configure [allUp])).setWaits (at_ .configure [allUp]).mb 0 = true ∧
    (arrived client (at_ .configure [allUp])).setWaits (at_ .configure [allUp]).mb 3 = false ∧
    (let s := hubBy (at_ .configure [allUp]) (fun h => (h.modSrv (fun v => { v with sets := [{ word := 9 * 2 ^ 48, from_ := 250 }] })));
      (s.hub.servo 0).step = none ∧ (s.hub.waitTick 250).holdDue s.mb.samples = true ∧
      ((hubBy s (fun h => { h with time := { h.time with nextGrid := 9 } })).hub.waitTick 250).holdDue s.mb.samples = false) := by
  decide +kernel

theorem witness_BasesStep :
    Granted client (Obj.tbSet 3) 12 (9 * 2 ^ 48) (actSet 3 (9 * 2 ^ 48)) (at_ .configure [allUp]) ∧
    Granted client (Obj.tbJumpAccept 0) 1 1 (actJumpAccept 0) (at_ .configure [allUp]) ∧
    Granted client (Obj.tbIncrement 3) 8 4398046511104 (actIncrement 4398046511104) (at_ .configure [allUp]) ∧
    Granted client (Obj.tbSource 0) 1 3 (actStore (Obj.tbSource 0) 3) (at_ .configure [allUp]) ∧
    Granted client (Obj.tbSourcePort 0) 1 2 (actStore (Obj.tbSourcePort 0) 2) (at_ .configure [allUp]) ∧
    Granted client Obj.todNext 12 (9 * 2 ^ 48) (actTodNext (9 * 2 ^ 48)) (at_ .configure [allUp]) := by
  refine ⟨?_, ?_, ?_, ?_, ?_, ?_⟩ <;> exact granted_of (by decide +kernel)

/-- A hub in RUN with uplink UP1 (lane 1) and downlink DN1 (lane 5) ACTIVE, and their time transfer. -/
def linked (f g : TtPort → TtPort) : State :=
  duplex [(Obj.laneState 1, 5), (Obj.laneState 5, 5)] (fun h => (h.modTt 1 f).modTt 5 g)

theorem witness_TimeTransfer :
    (let s := linked (fun v => { v with seq := 7, t2 := some 100, t3 := some 200 }) (fun v => { v with seq := 7, t1 := some 5, t4 := some 6 });
      s.hub.laneTalks (dnLane 1) = true ∧ s.hub.timeRole (laneDie (dnLane 1)) = true ∧ s.hub.laneNative (upPort 1) = true ∧
        s.hub.laneTalks (upPort 1) = true ∧
        (vget s.hub.time.ports (dnLane 1)).t1 = some 5 ∧ (vget s.hub.time.ports (dnLane 1)).t4 = some 6 ∧
        (vget s.hub.time.ports (upPort 1)).t2 = some 100 ∧ (vget s.hub.time.ports (upPort 1)).t3 = some 200 ∧
        (vget s.hub.time.ports (upPort 1)).left = false ∧ (vget s.hub.time.ports (upPort 1)).valid < 8 ∧
        (s.hub.lane (dnLane 1)).msgs.length < 64 ∧ s.hub.now 0 ≤ 200 + 10 * uMs) ∧
    (let s := linked (fun v => { v with t2 := some 100 }) id;
      s.hub.timeRole (laneDie (upPort 1)) = true ∧ (vget s.hub.time.ports (upPort 1)).t3 = none) := by
  decide +kernel

/-- ARRAY takes its time from UP2, which is not eligible, where UP1 is. -/
def reselecting : State :=
  duplex [(Obj.laneState 1, 5), (Obj.tbSource 0, 1), (Obj.portPeerQuality 1, 0), (Obj.portPeerLevel 1, 1)]
    (fun h => (h.modTt 1 (fun v => { v with lastValid := true })).modServo 0 (fun v => { v with port := some 2 }))

theorem witness_TimeTransfer_reselect : servoRuns reselecting.mb.mode = true ∧ reselecting.hub.get (Obj.tbSource 0) = 1 ∧
    (reselecting.hub.servo 0).port = some 2 ∧ reselecting.hub.eligible 2 = false ∧
    reselecting.hub.bestUplink = some 1 := by
  decide +kernel

/-- An Ethernet uplink UP1, ACTIVE, that serves PTP for ARRAY, with the client as given. -/
def ptp (c : PtpSt) : State :=
  duplex [(Obj.laneState 1, 5), (Obj.pairPersonality 0, 1), (Obj.tbSource 0, 4), (Obj.tbSourcePort 0, 1)]
    (fun h => h.modPtp (fun _ => c))

theorem witness_PtpClient :
    (let s := ptp { sel := some 9, twoStep := true, syncSeq := 3, syncT1 := some 10, syncT2 := some 20, reqT3 := some 30, reqSeq := 3 };
      s.hub.ptpOn = true ∧ s.hub.ptpPort = some 1 ∧ s.hub.get Obj.ptpDomain < 256 ∧ s.hub.time.ptp.sel = some 9 ∧
        s.hub.time.ptp.twoStep = true ∧ s.hub.time.ptp.syncSeq = 3 ∧ s.hub.time.ptp.syncT1 = some 10 ∧
        s.hub.time.ptp.syncT2 = some 20 ∧ s.hub.time.ptp.reqT3 = some 30 ∧ s.hub.time.ptp.reqSeq = 3 ∧
        s.hub.time.ptp.wrongScale = false) := by
  decide +kernel

/-- Cue 5 on ARRAY, armed or not, with PERIOD 0. -/
def cue (st : Nat) (l : List (Nat × Nat)) : State := duplex ([(Obj.cueState 5, st), (Obj.cueInstant 5, 9 * 2 ^ 48)] ++ l) id

theorem witness_TimeCues :
    (let s := cue 1 []; s.mb.up = true ∧ s.hub.cueArmed 5 = true ∧ s.hub.cueOver 5 1 = true ∧ 0 < s.hub.incr (s.hub.cueBase 5) ∧
        ¬(s.hub.time.cueJoint.1 = s.hub.time.ticks ∧ (5 : Fin 32).val ∈ s.hub.time.cueJoint.2)) ∧
    (cue 1 [(Obj.cuePeriod 5, 65536000), (Obj.cueCount 5, 3)]).hub.cueOver 5 1 = false ∧
    (let s := duplex [(Obj.ppsOutSource, 1), (Obj.ppsOutGate, 0)] id; s.hub.gateOk (s.hub.get Obj.ppsOutGate) = true ∧ s.hub.get Obj.ppsOutSource = 0 + 1) ∧
    (let s := duplex [(Obj.ppsOutSource, 3), (Obj.ppsOutGate, 0)] (fun h => h.modPins (fun p => { p with ppsDue := some 77, ppsOut := true }));
      s.hub.get Obj.ppsOutSource = 3 ∧ s.hub.time.pins.ppsDue = some 77 ∧ s.hub.time.pins.ppsOut = true ∧
        s.hub.gateOk (s.hub.get Obj.ppsOutGate) = true) := by
  decide +kernel

theorem witness_TimeCues_writes :
    Granted client (Obj.cueArm 5) 1 1 (actCueArm 5 1) (cue 0 []) ∧
    Granted client (Obj.cueArm 5) 1 0 (actCueArm 5 0) (cue 1 []) ∧
    Granted client (Obj.cueInstant 5) 12 (10 * 2 ^ 48) (actCue 5 (Obj.cueInstant 5) (10 * 2 ^ 48)) (cue 0 []) ∧
    Granted client (Obj.cueCount 5) 4 (6 % 4294967296) (actCue 5 (Obj.cueCount 5) (6 % 4294967296)) (cue 0 []) ∧
    Granted client (Obj.cuePeriod 5) 8 65536000 (actCue 5 (Obj.cuePeriod 5) 65536000) (cue 0 []) := by
  refine ⟨?_, ?_, ?_, ?_, ?_⟩ <;> exact granted_of (by decide +kernel)

/-! ### Triggers -/

/-- A hub in RUN whose sequencer runs, with these objects and trigger state. -/
def sequencing (l : List (Nat × Nat)) (f : TrigSt → TrigSt) : State := duplex ((Obj.seqEnable, 1) :: l) (fun h => h.modTrig f)

/-- Source 0 is an edge of comparator 3, source 1 an edge of SOFT 1; state 2 goes to 5 on source 0, to 6 on source 1. -/
def evaluating (edge : Nat) : State :=
  sequencing [(Obj.seqState, 2), (Obj.srcWord 0, 1 + 3 * 16), (Obj.srcWord 1, 9 + 16), (Obj.seqWord 2 0, 2 ^ 25), (Obj.seqWord 2 1, 5),
    (Obj.seqWord 2 2, 2 ^ 25 + 1), (Obj.seqWord 2 3, 6)] (fun t => { t with srcs := vset t.srcs edge { edge := true } })

theorem witness_TriggerSources :
    (∀ i, i = 0 ∨ i = 1 ∨ i = 2 → (let s := evaluating i;
      s.hub.seqRuns s.mb = true ∧ s.hub.trig.soft = [] ∧ vget s.hub.trig.timers 0 = none ∧ vget s.hub.trig.timers 1 = none ∧
        vget s.hub.trig.reachDue 0 = false ∧ vget s.hub.trig.reachDue 1 = false ∧
        s.hub.condTrue (s.hub.get (Obj.seqWord (s.hub.get Obj.seqState) 0)) = decide (i = 0) ∧
        s.hub.condTrue (s.hub.get (Obj.seqWord (s.hub.get Obj.seqState) 2)) = decide (i = 1) ∧
        field (s.hub.get (Obj.seqWord (s.hub.get Obj.seqState) 1)) 4 12 = 0 ∧
        field (s.hub.get (Obj.seqWord (s.hub.get Obj.seqState) 3)) 4 12 = 0)) ∧
    (let s := sequencing [(Obj.srcWord 4, 8 + 16)] (fun t => { t with timers := vset t.timers 1 (some 900) });
      s.hub.seqRuns s.mb = true ∧ vget s.hub.trig.timers 1 = some 900 ∧ s.hub.srcKind 4 = 8 ∧ s.hub.srcNum 4 = 1) ∧
    (let s := sequencing [(Obj.srcWord 4, 7 + 16 + 2 ^ 14)] (fun t => { t with reachDue := vset t.reachDue 1 true });
      s.hub.seqRuns s.mb = true ∧ vget s.hub.trig.reachDue 1 = true ∧ s.hub.srcKind 4 = 7 ∧ s.hub.srcNum 4 = 1) ∧
    (∀ o, o = none ∨ o = some (0, 71) ∨ o = some (2 ^ 40, 71) →
      let s := duplex [(Obj.cmpMode 9, 1), (Obj.cmpThreshHi 9, 0), (Obj.cmpHyst 9, 0)] (fun h => h.modTrig (fun t => { t with tdc := vset t.tdc 1 o }));
      s.mb.up = true ∧ s.hub.feUp (9 / 8) = true ∧
      cmpOutput (s.hub.get (Obj.cmpMode 9)) (s.hub.getI 16 (Obj.cmpThreshHi 9)) (s.hub.getI 16 (Obj.cmpThreshLo 9))
        (s.hub.get (Obj.cmpHyst 9)) 5 (vget s.hub.trig.cmps 9).out = true ∧
      (vget s.hub.trig.cmps 9).out = false ∧ vget s.hub.trig.tdc (9 / 8) = o ∧
      (o = some (0, 71) → 0 + 20 * 65536 ≤ (s.hub.waitTicks 100).edgeStamp 2 5) ∧
      (o = some (2 ^ 40, 71) → (s.hub.waitTicks 100).edgeStamp 2 5 < 2 ^ 40 + 20 * 65536)) ∧
    (let s := duplex [] (fun h => h.modCmp 9 (fun v => { v with link := [77, 88] }));
      s.mb.up = true ∧ (vget s.hub.trig.cmps 9).link = 77 :: [88] ∧ s.hub.trig.events = []) := by
  refine ⟨?_, by decide +kernel, by decide +kernel, ?_, by decide +kernel⟩
  rotate_left
  · rintro o (rfl | rfl | rfl) <;> decide +kernel
  rintro i (rfl | rfl | rfl) <;> decide +kernel

/-- An ARMED manager of a hub of this role that joins. -/
def armed (role : Nat) (f : TrigSt → TrigSt) : State :=
  sequencing [(Obj.cueRole, role), (Obj.join, 3), (Obj.managerState, 1), (Obj.laneState 1, 5)] f

/-- A trigger message of hub 77. -/
def fromHub77 : TrigMsg := { hub := 77, num := 6, time := 9 * 2 ^ 48, forced := false }

theorem witness_Manager :
    (let s := armed 2 id; s.mb.up = true ∧ s.hub.seqRuns s.mb = true ∧ s.hub.trig.fireIn = false ∧ s.hub.trig.pulse = none ∧
      s.hub.get Obj.cueRole ≠ 0 ∧ s.hub.bit Obj.join 0 = true ∧ s.hub.bit Obj.join 1 = true ∧ s.hub.manager = 1 ∧
      s.hub.laneNative 1 = true ∧ s.hub.msgNew fromHub77.hub 0x12 fromHub77.num = true) ∧
    (let s := armed 1 (fun t => { t with autoAt := some 900 });
      s.mb.up = true ∧ s.hub.seqRuns s.mb = true ∧ s.hub.manager = 1 ∧ s.hub.trig.autoAt = some 900) ∧
    (let s := armed 1 (fun t => { t with pulse := some 900 }); s.mb.up = true ∧ s.hub.trig.pulse = some 900) ∧
    (let s := armed 1 (fun t => { t with events := [{ tick := 5 }] });
      s.mb.up = true ∧ s.hub.settling = some { tick := 5 }) := by
  decide +kernel

theorem witness_Manager_arm :
    (let s := armed 2 id; s.mb.up = true ∧ s.hub.get Obj.cueRole = 2 ∧ s.hub.seqRuns s.mb = true ∧ s.hub.trig.armIn ≠ true ∧
      s.hub.manager = 1) ∧
    (let s := hubBy (armed 2 id) (fun h => h.put Obj.managerState 0);
      s.mb.up = true ∧ s.hub.get Obj.cueRole = 2 ∧ s.hub.seqRuns s.mb = true ∧ s.hub.trig.armIn ≠ true ∧ s.hub.manager = 0) ∧
    (∀ code, code = 0x10 ∨ code = 0x11 →
      (let s := armed 3 id; s.mb.up = true ∧ s.hub.laneNative 1 = true ∧ s.hub.msgNew fromHub77.hub code fromHub77.num = true ∧
        s.hub.get Obj.cueRole = 3 ∧ s.hub.seqRuns s.mb = true ∧ s.hub.manager = 1) ∧
      (let s := armed 3 (fun t => { t with seen := [{ hub := 77, code := code, high := 6, nums := [6] }] });
        s.mb.up = true ∧ s.hub.laneNative 1 = true ∧ s.hub.msgNew fromHub77.hub code fromHub77.num = false)) := by
  refine ⟨by decide +kernel, by decide +kernel, ?_⟩
  rintro code (rfl | rfl) <;> decide +kernel

/-- The message of `fromHub77`, as FIRE_INJECT and ARM_INJECT carry it, `forced` or ARM by its last byte. -/
def carried (b : Bool) : Fin 87112285931760246646623899502532662132736 :=
  Fin.ofNat _ (77 + 6 * 65536 + 9 * 2 ^ 80 + b2n b * 2 ^ 128)

theorem witness_Manager_injects : (∀ role, role = 2 ∨ role = 3 → let s := armed role id;
      Granted client Obj.fireInject 17 (carried false).val (actFireInject (carried false)) s ∧
      s.hub.msgNew (injectMsg (carried false)).hub 0x12 (injectMsg (carried false)).num = true ∧ s.hub.seqRuns s.mb = true ∧
      s.hub.get Obj.cueRole = role ∧ s.hub.bit Obj.join 1 = true ∧ s.hub.manager = 1) ∧
    (∀ arm, arm = true ∨ arm = false → let s := hubBy (armed 3 id) (fun h => h.put Obj.managerState (b2n (!arm)));
      Granted client Obj.armInject 17 (carried arm).val (actArmInject (carried arm)) s ∧
      (injectMsg (carried arm)).forced = arm ∧ s.hub.manager = b2n (!arm) ∧ s.hub.get Obj.cueRole = 3 ∧ s.hub.seqRuns s.mb = true ∧
      s.hub.msgNew (injectMsg (carried arm)).hub (if arm then 0x10 else 0x11) (injectMsg (carried arm)).num = true) ∧
    Granted client Obj.softTrigger 1 5 (actSoftTrigger 5) (armed 1 id) := by
  refine ⟨?_, ?_, granted_of (by decide +kernel)⟩
  · rintro role (rfl | rfl) <;> exact ⟨granted_of (by decide +kernel), by decide +kernel⟩
  · rintro arm (rfl | rfl) <;> exact ⟨granted_of (by decide +kernel), by decide +kernel⟩

/-! ### Captures -/

/-- A hub in RUN whose slot 4 is in `st`, as given. -/
def slotted (st : Nat) (f : SlotSt → SlotSt) (l : List (Nat × Nat)) : State :=
  duplex ([(Obj.slotState 4, st), (Obj.slotEnable 4, 1)] ++ l) (fun h => h.modSlot 4 f)

/-- Two rows of one channel and a fire between them. -/
def twoRows (v : SlotSt) : SlotSt :=
  { v with chMask := 2, preset := 3, cap := 1024, rows := [{ inst := 2 * uGrid, words := [7] }, { inst := uGrid, words := [8] }]
           fixed := true, pre := 1, post := 1, trig := some { time := 2 * uGrid } }

theorem witness_Captures :
    (slotted 2 twoRows []).hub.slotDone 4 = true ∧
    ((slotted 4 twoRows []).mb.up = true ∧ (slotted 4 twoRows []).hub.get (Obj.slotState 4) = 4) ∧
    Granted client (Obj.slotRelease 4) 1 1 (actRelease 4) (slotted 3 twoRows []) ∧
    Granted client (Obj.slotReadoutStart 4) 1 1 (actReadout 4) (slotted 3 twoRows []) := by
  refine ⟨by decide +kernel, by decide +kernel, ?_, ?_⟩ <;> exact granted_of (by decide +kernel)

theorem witness_Captures_data :
    (let s := slotted 3 twoRows [];
      Reaches client (rowReq 5 (Obj.slotData 4 / 256) (Obj.slotData 4 % 256) 0 false 2 (toBytes 2 100)) s ∧
      readCheck s.mb (arrived client s) (Obj.slotData 4) = 0 ∧ s.hub.slotReadable 4 = true) :=
  ⟨reaches_of (by decide +kernel), by decide +kernel, by decide +kernel⟩

/-- R240: a trigger 1.25 grid periods after the first row, and one whose fraction rounds up to the next. -/
theorem test_trigPoint_R240 : trigPoint (5 * uGrid / 4) 0 = (1, 16384) ∧ trigPoint (2 * uGrid - 1) 0 = (2, 0) := by decide +kernel

/-- R251's limits: 1 MiB holds 259,072 rows (B = 254) of one filtered channel, and 2,520 raw rows of one die. -/
theorem test_capacity_R251 : capCapacity 0 1 1 0 = (254 - 1) * 1024 ∧ capCapacity 1 1 0 1 = 2520 := by decide +kernel

/-! ### The control engine -/

/-- Loop 9 of a hub in RUN, on control output 6, in `st` as given. -/
def looped (st : Nat) (f : LoopSt → LoopSt) (l : List (Nat × Nat)) : State :=
  duplex ([(Obj.loopEnable 9, 1), (Obj.loopOutputKind 9, 1), (Obj.loopOutputA 9, 6), (Obj.loopLoopState 9, st)] ++ l)
    (fun h => h.modLoop 9 f)

/-- Trace buffer 2 of loop 9, as given. -/
def traced (f : TraceSt → TraceSt) (l : List (Nat × Nat)) : State :=
  hubBy (looped 2 id ((Obj.traceTraceLoop 2, 9) :: l)) (fun h => h.modTrace 2 f)

theorem witness_ControlLoops :
    ((looped 2 id []).mb.up = true ∧ (at_ .configure []).mb.up = true ∧ (at_ .configure []).mb.drives = false) ∧
    (let s := looped 2 (fun v => { v with safeDue := 3 }) [];
      (s.hub.loop 9).safeDue ≠ 0 ∧ s.hub.get (Obj.loopLoopState 9) ≠ 5 ∧ s.hub.get (Obj.loopLoopState 9) ≠ 6) ∧
    ((looped 4 (fun v => { v with injEnd := true }) []).hub.loop 9).injEnd = true ∧ (looped 4 id []).hub.stalled = false ∧
    ((traced (fun v => { v with full := true }) []).hub.trace 2).full = true ∧
    (∀ m, m = 0 ∨ m = 1 ∨ m = 2 ∨ m = 3 ∨ m = 4 →
      (let s := looped 2 id [(Obj.genGenEnable 9, 1), (Obj.injInjKind 9, 1)];
        Granted client (Obj.loopLoopMode 9) 1 m (actLoopMode 9 m) s ∧ s.hub.loopCycles s.mb 9 = true) ∧
      (let s := looped 6 id [(Obj.genGenEnable 9, 1), (Obj.injInjKind 9, 1)];
        Granted client (Obj.loopLoopMode 9) 1 m (actLoopMode 9 m) s ∧ s.hub.loopCycles s.mb 9 = false)) := by
  refine ⟨by decide +kernel, by decide +kernel, by decide +kernel, by decide +kernel, by decide +kernel, ?_⟩
  rintro m (rfl | rfl | rfl | rfl | rfl) <;>
    exact ⟨⟨granted_of (by decide +kernel), by decide +kernel⟩, ⟨granted_of (by decide +kernel), by decide +kernel⟩⟩

theorem witness_ControlLoops_writes :
    Granted client (Obj.loopManualOutput 9) 2 1 (actManual 9 1) (looped 1 id []) ∧
    Granted client (Obj.genTarget 9) 8 5 (actTarget 9 5) (looped 3 id []) ∧
    Granted client (Obj.injInjGo 9) 1 1 (actInjGo 9) (looped 4 id []) ∧
    Granted client (Obj.traceTraceGo 2) 1 1 (actTraceGo 2 1) (traced id []) ∧
    Granted client (Obj.traceTraceGo 2) 1 0 (actTraceGo 2 0) (traced id [(Obj.traceTraceState 2, 2)]) ∧
    Reaches client (rowReq 5 (Obj.traceTraceData 2 / 256) (Obj.traceTraceData 2 % 256) 0 false 2 (toBytes 2 8)) (traced id []) ∧
    readCheck (traced id []).mb (arrived client (traced id [])) (Obj.traceTraceData 2) = 0 ∧
    (traced id []).hub.get (Obj.traceTraceState 2) ≠ 1 ∧ (traced id []).hub.get (Obj.traceTraceState 2) ≠ 2 := by
  refine ⟨?_, ?_, ?_, ?_, ?_, reaches_of (by decide +kernel), by decide +kernel, by decide +kernel, by decide +kernel⟩ <;>
    exact granted_of (by decide +kernel)

/-- R266: of three due loops of 3, 38 and 2 units the first and the third are evaluated. -/
theorem test_schedule_R266 : schedule (fun l => [3, 38, 2].getD l 0) 40 [0, 1, 2] = ([(0, true), (1, false), (2, true)], 35) := by
  decide +kernel

/-- The worked example of R275: J_c, and the first two cycles. -/
theorem test_generator_R275 : perCycle (10000000 * 2 ^ 32) 100 3 = 0x028F5C29 ∧
    (let r := genStep 0 0 0 (1000000 * q32) (200 * q32) q32 0x028F5C29;
      r = ⟨0x028F5C29, 0x028F5C29, 0x028F5C29, none⟩ ∧
      genStep r.p r.v r.a (1000000 * q32) (200 * q32) q32 0x028F5C29 =
        ⟨4 * 0x028F5C29, 3 * 0x028F5C29, 2 * 0x028F5C29, none⟩) := by
  decide +kernel

/-- Control output 6 as given, driven by loop 9. -/
def output (f : CtlSt → CtlSt) (l : List (Nat × Nat)) : State := hubBy (looped 2 id l) (fun h => h.modCtl 6 f)

theorem witness_OutputsAndFootlights_outputs :
    (let s := output (fun v => { v with pulseEnd := some 900 }) [(Obj.ctlStatus 6, 1)];
      (s.hub.ctl 6).pulseEnd = some 900 ∧ s.hub.obeys (6 / 4) = true ∧ s.hub.feUp (6 / 4) = true ∧ s.hub.incr 0 ≠ 0 ∧
        s.hub.red.switched = none) ∧
    (let s := output id []; s.mb.up = true ∧ s.hub.feUp (6 / 4) = true ∧ s.hub.bit (Obj.ctlStatus 6) 3 = false ∧
      s.hub.ctlLoop 6 = some 9) ∧
    (let s := output id [(Obj.ctlStatus 6, 8), (Obj.loopStatus 9, 128)];
      Granted client (Obj.ctlFaultClear 6) 1 1 (actCtlFaultClear 6) s ∧ s.hub.bit (Obj.ctlStatus 6) 3 = true ∧
        s.hub.ctlLoop 6 = some 9) ∧
    (let s := output id [(Obj.ctlSource 6, 0)];
      Granted client (Obj.ctlHostLevel 6) 1 (b2n true) (actHostLevel 6 (b2n true)) s ∧ s.mb.drives = true ∧
        s.hub.get (Obj.ctlSource 6) = 0 ∧ s.hub.obeys (6 / 4) = true ∧ s.hub.feUp (6 / 4) = true ∧ s.hub.incr 0 ≠ 0 ∧
        s.hub.red.switched = none ∧ s.hub.srv.appliedAt = none) :=
  ⟨by decide +kernel, by decide +kernel, ⟨granted_of (by decide +kernel), by decide +kernel, by decide +kernel⟩,
    ⟨granted_of (by decide +kernel), by decide +kernel, by decide +kernel, by decide +kernel, by decide +kernel, by decide +kernel,
      by decide +kernel, by decide +kernel⟩⟩

/-- String 5 of a hub in RUN, enabled and driven by loop 9, as given. -/
def strung (f : FlSt → FlSt) (l : List (Nat × Nat)) : State :=
  duplex ([(Obj.flEnable 5, 1), (Obj.flEffTarget 5, 400), (Obj.loopEnable 9, 1), (Obj.loopOutputKind 9, 3), (Obj.loopOutputA 9, 5),
    (Obj.loopLoopState 9, 2)] ++ l) (fun h => h.modStr 5 f)

/-- String 5 with GATE high for 50 µs at full duty, with this STATUS. -/
def lit (fs : Nat) : State :=
  let s := strung (fun v => { v with on := true, duty := 65536, want := 65536 }) [(Obj.flStatus 5, fs)]
  hubBy s (fun h => let h := h.waitTicks 100000; h.modStr 5 (fun v => { v with gate := true, gateAt := h.now 2 - 50 * uUs, gateSeen := h.now 2 }))

theorem witness_OutputsAndFootlights_open :
    let h := ((lit 0).hub.waitTicks 3).gateFollow 5
    (h.str 5).gate = true ∧ h.gateRuns 5 = true ∧ (h.str 5).gateAt + 50 * uUs ≤ h.now 2 ∧ 51 ≤ h.get (Obj.flEffTarget 5) ∧
      (lit 0).hub.bit (Obj.flStatus 5) 2 = false ∧ h.bit (Obj.flStatus 5) 2 = false := by decide +kernel

theorem witness_OutputsAndFootlights_strings :
    (let s := strung (fun v => { v with on := true, ocRun := 15 }) [];
      s.hub.strRuns 5 = true ∧ (s.hub.str 5).ocRun + 1 = 16 ∧ s.hub.bit (Obj.flStatus 5) 3 = false ∧
        s.hub.bit (Obj.flStatus 5) 2 = false) ∧
    (let s := strung (fun v => { v with openAt := some 70, faultAt := some 60 }) [(Obj.flStatus 5, 4)];
      (s.hub.str 5).openAt = some 70 ∧ (s.hub.str 5).faultAt = some 60 ∧ s.hub.strLoop 5 = some 9 ∧ s.hub.bit (Obj.flStatus 5) 4 = false) ∧
    (let s := strung id [(Obj.flStatus 5, 16)];
      Granted client (Obj.flFaultClear 5) 1 1 (actFlFaultClear 5) s ∧ s.hub.bit (Obj.flStatus 5) 4 = true ∧ s.mb.drives = true ∧
        s.hub.flag (Obj.flEnable 5) = true ∧ s.hub.obeys (5 / 2) = true) :=
  ⟨by decide +kernel, by decide +kernel, granted_of (by decide +kernel), by decide +kernel, by decide +kernel, by decide +kernel,
    by decide +kernel⟩

/-- Engine 3 of a hub in RUN in `st` at a step with this word, as given. -/
def patterned (st step w : Nat) (f : PatSt → PatSt) : State :=
  duplex [(Obj.engEngState 3, st), (Obj.engEngStep 3, step), (Obj.engStep 3 step, w), (Obj.engEngMask 3, 15)] (fun h => h.modPat 3 f)

theorem witness_OutputsAndFootlights_patterns :
    Granted client (Obj.engEngGo 3) 1 1 (actEngGo 3 1) (patterned 0 0 0 id) ∧
    Granted client (Obj.engEngGo 3) 1 0 (actEngGo 3 0) (patterned 1 0 0 id) ∧
    (∀ i, i = 4 ∨ i = 63 →
      (let s := patterned 1 i (1 + 20 * 2 ^ 29) (fun p => { p with i := 21, entry := 7 });
        s.mb.drives = true ∧ s.hub.get (Obj.engEngStep 3) = i ∧ s.hub.get (Obj.engEngState 3) = 1 ∧
          isTimed (s.hub.stepWord 3 i) = true ∧ stepDur (s.hub.stepWord 3 i) < (s.hub.pat 3).i) ∧
      (let s := patterned 2 i (6 + 20 * 2 ^ 29) (fun p => { p with entry := 7 });
        s.mb.drives = true ∧ s.hub.get (Obj.engEngStep 3) = i ∧ s.hub.get (Obj.engEngState 3) = 2 ∧
          stepType (s.hub.stepWord 3 i) = 6 ∧ stepDur (s.hub.stepWord 3 i) ≠ 0 ∧
          (s.hub.pat 3).fired (stepCue (s.hub.stepWord 3 i)) (s.hub.pat 3).entry
            ((s.hub.pat 3).entry + stepDur (s.hub.stepWord 3 i)) = false)) ∧
    (∀ i, i = 4 ∨ i = 63 → (let s := patterned 1 i (4 + i * 2 ^ 53) id;
      s.mb.drives = true ∧ (s.hub.pat 3).start = false ∧ s.hub.patActive 3 = true ∧ s.hub.get (Obj.engEngStep 3) = i ∧
        stepType (s.hub.stepWord 3 i) = 4 ∧ stepArg (s.hub.stepWord 3 i) = i)) := by
  refine ⟨granted_of (by decide +kernel), granted_of (by decide +kernel), ?_, ?_⟩ <;>
    rintro i (rfl | rfl) <;> decide +kernel

/-! ### Lead, Understudy and fail-over -/

/-- A hub in RUN whose hub dies are in these roles, the peer link up, as given. -/
def roles (a b : Nat) (f : RedSt → RedSt) (l : List (Nat × Nat)) : State :=
  hubBy (at_ .run ([allUp, (Obj.dieRole 0, a), (Obj.dieRole 1, b)] ++ l)) (fun h => h.modRed (fun r => f { r with peerUp := true }))

/-- A hand-over under way, and FE2's TAKE received. -/
def handing (m : Mode) (swap : Bool) : State :=
  mbBy (roles 2 3 (fun r => { r with handover := some { at_ := 9 * uFrame, cause := 11, swap := swap }
                                     arbs := vset r.arbs 2 { take := some (9 * uFrame) } }) []) (fun b => { b with mode := m })

theorem witness_FailOver_handover : ∀ swap,
    (handing .run swap).hub.red.handover = some { at_ := 9 * uFrame, cause := 11, swap := swap } ∧
    (handing .run swap).hub.understudy = true ∧ (handing .run swap).hub.srv.waiting = [] ∧ (handing .run swap).mb.mode = .run ∧
    (handing .calibrate swap).mb.mode = .calibrate ∧ ((handing .run swap).hub.arb 2).take.isSome = true ∧
    (handing .run swap).hub.feUp 2 = true := by
  intro swap; cases swap <;> decide +kernel

/-- Sixteen poisoned words and sixteen memory-die errors at hub die 1. -/
def failing (s : State) : State :=
  hubBy s (fun h => (h.modQueue 1 (fun q => { q with poison := List.replicate 16 0 })).modHdie 1 (fun d =>
    { d with mdErrs := List.replicate 16 0 }))

theorem witness_FailOver_faults :
    (let s := failing (roles 2 3 id []);
      s.mb.up = true ∧ s.hub.die (6 + 1) = 3 ∧ 16 ≤ (s.hub.lastSecond (s.hub.queue 1).poison).length ∧
        16 ≤ (s.hub.lastSecond (s.hub.hdie 1).mdErrs).length ∧ s.hub.role 1 = 3 ∧ s.mb.mode = .run) ∧
    (failing (roles 2 4 id [])).hub.role 1 = 4 ∧
    (let s := failing (roles 3 2 id []); s.hub.role 1 = 2 ∧ s.hub.understudy = true ∧ s.hub.red.handover = none) ∧
    (let s := failing (roles 5 2 id []); s.hub.role 1 = 2 ∧ s.hub.understudy = false ∧ canSafe s.mb.mode = true ∧ s.mb.mode ≠ .safe) := by
  decide +kernel

theorem witness_FailOver :
    (let s := roles 2 3 id [];
      s.hub.feUp 2 = true ∧ s.hub.red.handover = none ∧ (s.hub.arb 2).sel = s.hub.leadDie ∧ s.hub.understudy = true ∧
        s.mb.up = true ∧ s.hub.red.peerUp = true ∧ s.hub.role (peerOf s.hub.leadDie) = 3 ∧ (s.hub.hdie s.hub.leadDie).line = false) ∧
    (let s := roles 2 5 (fun r => { r with peerUp := false }) [(Obj.relinquishCause 1, 512)];
      s.mb.up = true ∧ s.hub.red.peerUp = false ∧ s.hub.part.simplex = false ∧ s.hub.role (peerOf s.hub.leadDie) = 5 ∧
        s.hub.get (Obj.relinquishCause (peerOf s.hub.leadDie)) = 512) ∧
    (let s := hubBy (roles 2 3 id [(Obj.hdLinkState 1, 15)]) (fun h => h.modAlign 0 2 (fun a => { a with recent := List.replicate 16 true }));
      s.mb.up = true ∧ (s.hub.alignOf 0 2).failed = false ∧ 16 ≤ ((s.hub.alignOf 0 2).recent.filter id).length ∧ s.hub.role 0 = 2 ∧
        s.hub.understudy = true ∧ s.hub.linkOk (peerOf 0) 2 = true ∧ s.hub.red.handover = none) ∧
    Granted client Obj.roleSwapRequest 1 1 actRoleSwap (roles 2 3 id []) :=
  ⟨by decide +kernel, by decide +kernel, by decide +kernel, granted_of (by decide +kernel)⟩

/-- Dies that have compared no frame, 30 µs after their start. -/
def comparing (b : Nat) : State := hubBy (roles 2 b id []) (fun h => h.waitTicks 7500)

theorem witness_RolesReturn_compare : ∀ b, b = 3 ∨ b = 4 → let s := comparing b;
    s.mb.up = true ∧ s.hub.compares = true ∧ uFrame ≤ (s.hub.waitTicks 0).now 0 ∧ s.hub.red.cmpNext ≤ (s.hub.waitTicks 0).now 0 / uFrame - 1 ∧
      s.hub.attributed ((s.hub.waitTicks 0).now 0 / uFrame - 1) = 0 ∧ (b = 3 → s.hub.understudy = true) ∧
      (b = 4 → s.hub.role (peerOf s.hub.leadDie) = 4) := by
  rintro b (rfl | rfl) <;> decide +kernel

theorem witness_RolesReturn_elect :
    (let s := mbBy (roles 1 1 id []) (fun b => { b with mode := .boot });
      s.mb.mode = .boot ∧ s.hub.part.simplex = false ∧ s.hub.role 0 = 1 ∧ s.hub.role 1 = 1 ∧
        s.hub.eligibleDie 0 (s.hub.reachOf 7) = true ∧ s.hub.eligibleDie 1 (s.hub.reachOf 15) = true) ∧
    (let s := mbBy (hubBy (roles 1 0 id []) (fun h => { h with part := { h.part with simplex := true } })) (fun b => { b with mode := .boot });
      s.mb.mode = .boot ∧ s.hub.part.simplex = true ∧ s.hub.role 0 = 1) := by
  decide +kernel

theorem witness_FailOver_simplex :
    (let s := hubBy (roles 2 0 id []) (fun h => { h with part := { h.part with simplex := true } });
      s.hub.feUp 2 = true ∧ s.hub.part.simplex = true ∧ (s.hub.arb 2).sel = 0) := by decide +kernel

/-- A write passed to the peer at tick 7400 and not yet confirmed. -/
theorem witness_RolesReturn_timeout :
    (let s := hubBy (comparing 3) (fun h => h.modSrv (fun v => { v with passed := some (5 * 256 + 6, 7400) }));
      s.mb.up = true ∧ s.hub.understudy = true ∧ s.hub.srv.passed = some (5 * 256 + 6, 7400) ∧ s.hub.time.ticks ≤ 7400 + 25000 ∧
        s.hub.stalled = false) := by decide +kernel

theorem witness_RolesReturn :
    (let s := roles 2 5 id [(Obj.relinquishCause 1, 4)];
      s.mb.up = true ∧ s.hub.role 1 = 5 ∧ s.hub.recovered 1 ((s.hub.get (Obj.relinquishCause 1)).log2) = true ∧ s.hub.red.peerUp = true) ∧
    (let s := roles 2 5 (fun r => { r with sole := some 1 }) [];
      s.mb.up = true ∧ s.hub.role 0 = 2 ∧ s.hub.red.sole = some 1 ∧ s.hub.recovered 0 1 = true) ∧
    (let s := roles 2 4 (fun r => { r with readmit := some (77, true) }) [];
      s.hub.red.readmit = some (77, true) ∧ s.hub.role (peerOf s.hub.leadDie) = 4 ∧ s.hub.red.sole = none) ∧
    (let s := roles 2 4 id [(Obj.shadowMatched, 2 ^ 31)];
      Granted client Obj.readmitRequest 1 1 actReadmit s ∧ s.hub.red.readmit = none) ∧
    ((roles 2 4 id [(Obj.readmitsLeft, 1)]).mb.up = true ∧ (roles 2 4 id [(Obj.readmitsLeft, 1)]).hub.get Obj.readmitsLeft < 3) :=
  ⟨by decide +kernel, by decide +kernel, by decide +kernel, ⟨granted_of (by decide +kernel), by decide +kernel⟩, by decide +kernel⟩

/-! ### Streams and queues -/

/-- A packet of stream 3 of hub 77 with its length and check word. -/
def packet (type flags seq first : Nat) (body : List Nat) : List Nat :=
  let n := type + flags * 2 ^ 8 + 77 * 2 ^ 16 + 3 * 2 ^ 32 + seq * 2 ^ 48 + first * 2 ^ 96 + (9 + body.length) * 2 ^ 240
  let w := (List.range 8).map (fun i => field n (32 * i) 32) ++ body
  w ++ [crc32 (w.flatMap (toBytes 4))]

/-- A hub in RUN whose downlink DN1 (lane 5) and uplink UP1 (lane 1) are ACTIVE, with forward entry 6 for stream 3 of hub 77. -/
def forwarding (f : Hub → Hub) (l : List (Nat × Nat)) : State :=
  duplex ([(Obj.laneState 1, 5), (Obj.laneState 5, 5), (Obj.fwdEnable 6, 1), (Obj.fwdSrcHub 6, 77), (Obj.fwdSrcStream 6, 3),
    (Obj.fwdFrameRate 6, 100), (Obj.fwdMaxFrameBytes 6, 1000)] ++ l) f

/-- The window in which number 8 has been seen. -/
def seen8 : DupWin := { die := 0, hub := 77, stream := 3, high := 8, seen := [(8, (packet 1 0 8 0 [5]).getLastD 0)] }

theorem witness_StreamsAndQueues_window : seen8.verdict 9 5 = .accept ∧
    seen8.verdict 8 ((packet 1 0 8 0 [5]).getLastD 0) = .duplicate := by
  decide +kernel

theorem witness_StreamsAndQueues_next : ∃ k, (forwarding (fun h => h.modQueue 0 (fun q => { q with packets := [{ prim := 1 }] })) []).hub.nextPacket 0 1 =
    some k := ⟨{ prim := 1 }, by decide +kernel⟩

theorem witness_StreamsAndQueues_frame :
    (let s := forwarding id [];
      s.mb.up = true ∧ s.hub.laneNative 5 = true ∧ s.hub.laneNative 1 = true ∧ laneUp 1 = true ∧ laneUp 5 = false ∧
        rxOk (packet 1 0 8 0 [5]) = true ∧ rxOk [1, 2] = false ∧ s.hub.entryOf 77 3 = some 6 ∧ s.hub.entryOf 77 4 = none ∧
        (rxHead (packet 1 0 8 0 [5])).type ≠ 3 ∧ (rxHead (packet 1 0 8 0 [5])).hub = 77 ∧ (rxHead (packet 1 0 8 0 [5])).stream = 3 ∧
        s.hub.win 0 77 3 false = none ∧ 4 * (packet 1 0 8 0 [5]).length ≤ s.hub.get (Obj.fwdMaxFrameBytes 6) ∧
        tSec ≤ (s.hub.waitTicks 5).budget 6 0) ∧
    (forwarding (fun h => h.setWin seen8) []).hub.win 0 77 3 false = some seen8 ∧
    (let w := packet 3 0 8 0 [9, 4 * 2 ^ 16, 0, 0];
      rxOk w = true ∧ (rxHead w).type = 3 ∧ field (wordsNat ((w.drop 8).take 8)) 56 2 ≠ 1 ∧
        (forwarding id []).hub.win 0 77 3 true = none) := by
  decide +kernel

theorem witness_StreamsAndQueues :
    (let s := forwarding (fun h => h.modStream 9 (fun v => { v with recs := [{ left := 700 }] })) [];
      s.mb.up = true ∧ s.mb.streams = true ∧ (s.hub.stream 9).recs = [{ left := 700 }]) ∧
    (let g : GapRec := { stream := 9, seq := 4, last := 5 };
      let s := forwarding (fun h => { h with gaps := [g] }) [];
      s.hub.lost = [] ∧ s.hub.gaps = [g] ∧ g.hub = s.hub.get Obj.hubIdActive ∧ g.stream < 64) ∧
    (let o : OpenRange := { nums := [{ lo := 4, hi := 6 }], due := 900 };
      (forwarding (fun h => h.modFwd 6 (fun v => { v with opens := [o] })) []).hub.fwd 6 = { opens := [o] }) ∧
    (let s := forwarding id []; s.hub.flag (Obj.fwdEnable 6) = true ∧ s.hub.bit (Obj.fwdStatus 6) 0 = false ∧ s.hub.stalled = false) ∧
    Granted client (Obj.queueFlush 1) 1 1 (actFlush 1) (forwarding id []) :=
  ⟨by decide +kernel, by decide +kernel, by decide +kernel, by decide +kernel, granted_of (by decide +kernel)⟩

/-! ### Serial lanes -/

/-- Lane `l` of a hub in RUN in `st`, as given. -/
def laned (l st : Nat) (f : LaneSt → LaneSt) (o : List (Nat × Nat)) : State :=
  duplex ([(Obj.laneState l, st), (Obj.laneEnable l, 1)] ++ o) (fun h => h.modLane l f)

/-- A CAP message of downlink 2 of hub 77's HD0, and training words. -/
def capOf77 : CapMsg := { hub := 77, die := 0, down := true, port := 2, rate := 0, brev := 3, rev := 1, version := 1 }
def trainWord (ready : Bool) : TrainWord := { inverted := true, rate := 7, ffeReq := 4, ready := ready, good := true }
def eye (width height : Nat) : EyeReading := { width := Fin.ofNat _ width, height := Fin.ofNat _ height, taps := 77 }

/-- A pass whose boost 5 and preset 3 are best, and that ends with the given eye at boost 9. -/
def pass (last : EyeReading) : TrainPass :=
  { first := eye 20 60, low := (Vector.replicate 16 (eye 1 1)).set 5 (eye 20 60), presets := (Vector.replicate 11 (eye 2 2)).set 3 (eye 20 64)
    high := (Vector.replicate 16 (eye 0 0)).set 9 last }

theorem witness_LaneStates :
    (let s := laned 1 1 id []; s.hub.get (Obj.laneState 1) = 1 ∧ s.hub.laneEth 1 = false) ∧
    (let s := laned 1 2 (fun v => { v with rxReady := true, peerReady := 15 }) [(Obj.laneFallbackDiv 1, 8), (Obj.laneRate 1, 7)];
      s.hub.get (Obj.laneState 1) = 2 ∧ s.hub.laneEth 1 = false ∧ (trainWord true).good = true ∧ (trainWord true).ready = true ∧
        (trainWord true).rate.val = s.hub.get (Obj.laneRate 1) ∧
        (s.hub.lane 1).rxReady = true ∧ 15 ≤ (s.hub.lane 1).peerReady ∧ (s.hub.lane 1).div < s.hub.get (Obj.laneFallbackDiv 1)) ∧
    (let s := laned 1 2 (fun v => { v with stored := true, peerReady := 16 }) [];
      s.hub.get (Obj.laneState 1) = 2 ∧ (s.hub.lane 1).stored = true ∧ (s.hub.lane 1).rxReady = false ∧
        s.hub.get Obj.fomMin ≤ eyeFom (eye 64 100).width (eye 64 100).height ∧ ((laned 1 2 id []).hub.lane 1).stored = false) ∧
    (∀ c : Fin 16, c ≠ 9 → eyeFom (pass (eye 64 100)).high[c].width (pass (eye 64 100)).high[c].height <
      eyeFom (pass (eye 64 100)).high[9].width (pass (eye 64 100)).high[9].height) ∧
    (let s := laned 1 2 (fun v => { v with div := 8 }) [(Obj.laneFallbackDiv 1, 8)];
      s.hub.get (Obj.laneState 1) = 2 ∧ s.hub.get (Obj.laneFallbackDiv 1) ≤ (s.hub.lane 1).div) ∧
    (let s := laned 1 2 id [(Obj.pairPersonality 0, 1)]; s.hub.get (Obj.laneState 1) = 2 ∧ s.hub.laneEth 1 = true) ∧
    ((laned 1 3 id []).hub.get (Obj.laneState 1) = 3 ∧ ((laned 1 3 id []).hub.lane 1).lockFails = 0 ∧
      ((laned 1 3 (fun v => { v with lockFails := 1 }) []).hub.lane 1).lockFails ≠ 0) ∧
    (let s := laned 1 4 id [];
      s.hub.get (Obj.laneState 1) = 4 ∧ s.hub.laneEth 1 = false ∧ capOf77.down = laneUp 1 ∧
        capOf77.hub.val ≠ s.hub.get Obj.hubIdActive ∧ capOf77.version.val = 1 ∧ capOf77.down ≠ laneUp 5) ∧
    (let s := laned 1 4 id [(Obj.hubIdActive, 77)]; capOf77.hub.val = s.hub.get Obj.hubIdActive) ∧
    (let s := laned 1 5 (fun v => { v with eyeLowRun := 9 }) [];
      s.hub.get (Obj.laneState 1) = 5 ∧ 9 ≤ (s.hub.lane 1).eyeLowRun ∧ eyeFom 1 1 < s.hub.get Obj.fomWarn ∧
        s.hub.get Obj.fomWarn ≤ eyeFom 64 100) ∧
    (laned 1 9 id []).hub.get (Obj.laneState 1) = 9 ∧ (0 : Fin 8).val = lanePair 1 ∧
    (laned 1 0 id []).hub.get (Obj.laneState 1) = 0 := by
  decide +kernel

theorem witness_LaneStates_writes :
    Granted client (Obj.laneRetrain 1) 1 1 (actRetrain 1) (laned 1 5 id []) ∧
    Granted client (Obj.laneEnable 1) 1 0 (actStore (Obj.laneEnable 1) 0) (laned 1 5 id []) ∧
    (Granted client (Obj.laneEnable 1) 1 1 (actStore (Obj.laneEnable 1) 1) (laned 1 0 id []) ∧
      (laned 1 0 id []).hub.die (4 + laneDie 1) = 3) ∧
    Granted client (laneFieldKey .txInvert 1) 1 1 (actStore (laneFieldKey .txInvert 1) 1) (mbBy (laned 1 5 id []) (fun b => { b with mode := .configure })) ∧
    Granted client (laneFieldKey .fallbackDiv 1) 1 4 (actStore (laneFieldKey .fallbackDiv 1) 4)
      (mbBy (laned 1 0 id []) (fun b => { b with mode := .configure })) := by
  refine ⟨granted_of (by decide +kernel), granted_of (by decide +kernel), ⟨granted_of (by decide +kernel), by decide +kernel⟩,
    granted_of (by decide +kernel), granted_of (by decide +kernel)⟩

/-- A packet of four words of right parity on HD0's UP1. -/
def sending : Packet := { hub := 1, stream := 3, seq := 8, last := 8, prim := 1, words := [1, 2, 3, 4].map (fun w => storedWord w false) }

theorem witness_LanePowerAndData_writes :
    (∀ x, x = 0 ∨ x = 1 ∨ x = 2 → Granted client (Obj.laneLpmRequest 1) 1 x (actStore (Obj.laneLpmRequest 1) x) (laned 1 5 id [])) ∧
    (∀ x, x = 1 ∨ x = 2 → Granted client (Obj.laneLoopback 1) 1 x (actLoopback 1 x)
      (mbBy (laned 1 5 id []) (fun b => { b with mode := .service }))) ∧
    Granted client (Obj.laneLoopback 1) 1 0 (actLoopback 1 0) (mbBy (laned 1 8 id []) (fun b => { b with mode := .service })) ∧
    Granted client (Obj.laneLoopback 1) 1 3 (actLoopback 1 3) (mbBy (laned 1 5 id []) (fun b => { b with mode := .service })) := by
  refine ⟨?_, ?_, granted_of (by decide +kernel), granted_of (by decide +kernel)⟩
  · rintro x (rfl | rfl | rfl) <;> exact granted_of (by decide +kernel)
  · rintro x (rfl | rfl) <;> exact granted_of (by decide +kernel)

theorem witness_LanePowerAndData :
    (let s := laned 1 5 (fun v => { v with lpSent := some (70, 6), lpRetry := some 90, floopSent := some 60 })
        [(Obj.laneStatus 1, 256), (Obj.laneLpmRequest 1, 1)];
      s.mb.up = true ∧ s.hub.laneNative 1 = true ∧ (s.hub.lane 1).lpSent = some (70, 6) ∧ (s.hub.lane 1).lpRetry = some 90 ∧
        (s.hub.lane 1).floopSent.isSome = true ∧ (s.hub.lane 1).floopSent = some 60 ∧ s.hub.bit (Obj.laneStatus 1) 8 = true ∧
        s.hub.get (Obj.laneLpmRequest 1) ≠ 0 ∧ s.hub.packetWaits 1 = false ∧ s.hub.exchanging 1 = false) ∧
    (let s := mbBy (laned 1 5 id [(Obj.farLoopAllow, 1)]) (fun b => { b with mode := .service });
      s.mb.mode = .service ∧ s.hub.flag Obj.farLoopAllow = true ∧ s.hub.bit (Obj.laneStatus 1) 8 = false ∧
        (s.hub.lane 1).msgs.length < 64) ∧
    (let s := laned 1 5 (fun v => { v with lpRetry := some 90 }) [(Obj.laneLpmRequest 1, 1)]; s.hub.laneTalks 1 = true ∧
      (s.hub.lane 1).lpRetry = some 90 ∧ (s.hub.lane 1).lpSent = none) ∧
    ((laned 1 6 id []).hub.get (Obj.laneState 1) = 6 ∧ (laned 1 7 id []).hub.get (Obj.laneState 1) = 7 ∧
      (laned 1 6 (fun v => { v with wake := true }) []).hub.wakes 1 = true ∧ (laned 1 6 id []).hub.wakes 1 = false) := by
  decide +kernel

theorem witness_LanePowerAndData_blocks :
    (∀ s, (s = laned 1 5 (fun v => { v with msgNow := some ({ code := 0x30, bytes := [1] }, 1) }) [] ∨
        s = laned 1 5 (fun v => { v with frameNow := some (sending, sending.words) }) [] ∨
        s = laned 1 5 (fun v => { v with frameNow := some (sending, []) }) [] ∨
        s = hubBy (laned 1 5 id []) (fun h => h.modQueue 0 (fun q => { q with packets := [sending] }))) →
      s.mb.up = true ∧ s.hub.laneNative 1 = true ∧ s.hub.srv.events = [] ∧ s.hub.get (Obj.laneLpmRequest 1) = 0 ∧
        (s.hub.waitTicks 1).captureDue 1 = none ∧ (s.hub.lane 1).nextMsg = none ∧ (s.hub.lane 1).lpAck = none) ∧
    2 ≤ sending.words.length ∧ (sending.words.take 2).all parityOk = true ∧ sending.words ≠ [] ∧
    (let s := hubBy (laned 1 5 id []) (fun h => h.modQueue 0 (fun q => { q with packets := [sending] }));
      (s.hub.lane 1).frameNow = none ∧ (s.hub.lane 1).msgNow = none ∧ s.hub.lanePacket 1 = some sending) ∧
    (let s := laned 1 5 id []; (s.hub.lane 1).frameNow = none ∧ s.hub.lanePacket 1 = none) ∧
    (let s := laned 1 5 (fun v => { v with msgs := [⟨0x30, [1]⟩] }) []; (s.hub.lane 1).msgNow = none ∧ (s.hub.lane 1).nextMsg = some ⟨0x30, [1]⟩) := by
  refine ⟨?_, by decide +kernel, by decide +kernel, by decide +kernel, by decide +kernel, by decide +kernel, by decide +kernel⟩
  rintro s (rfl | rfl | rfl | rfl) <;> decide +kernel

/-- The check value of CRC-16 with polynomial 0x1021 and initial value 0xFFFF over the digits 1 to 9. -/
theorem test_crc16 : crc16 [0x31, 0x32, 0x33, 0x34, 0x35, 0x36, 0x37, 0x38, 0x39] = 0x29B1 := by decide +kernel

/-! ### Ethernet, carriers and the commit -/

/-- UP1 (uplink number 1, lane 1) ACTIVE as Ethernet, its port as given. Addresses stand in network order: 10.0.0.2 and a
destination 10.0.0.9 in its /24. -/
def ethernet (f : EthSt → EthSt) (o : List (Nat × Nat)) : State :=
  duplex (o ++ [(Obj.laneState 1, 5), (Obj.pairPersonality 0, 1), (Obj.ethIpVersion 1, 4), (Obj.ethIpv4Address 1, 0x0200000A),
    (Obj.ethDestIpv4 1, 0x0900000A), (Obj.ethIpv4Prefix 1, 24)]) (fun h => h.modEth 1 f)

/-- The same under IPv6. -/
def ethernet6 : State := ethernet id [(Obj.ethIpVersion 1, 6), (Obj.ethIpv6Address 1, 0x02000000000000000000000000001020),
  (Obj.ethDestIpv6 1, 0x09000000000000000000000000001020), (Obj.ethIpv6Prefix 1, 64)]

theorem witness_EthernetCarriersAndCommits_frames :
    (let s := ethernet id [];
      s.hub.ethActive 1 = true ∧ s.hub.v4 1 = true ∧ 0x0A000002 = s.hub.ownAddr 1 ∧ 0x0A000009 = s.hub.nextHop 1 ∧
        s.hub.get (Obj.ethDestMac 1) = 0 ∧ (vget s.hub.eths 1).echoes = [] ∧ s.hub.unresolved 1 = true ∧
        (vget s.hub.eths 1).requests < 10 ∧ s.hub.bit (Obj.ethEthStatus 1) 2 = false) ∧
    (let s := ethernet6;
      s.hub.ethActive 1 = true ∧ s.hub.v4 1 = false ∧ 0x20100000000000000000000000000002 = s.hub.ownAddr 1 ∧
        0x20100000000000000000000000000009 = s.hub.nextHop 1 ∧ s.hub.get (Obj.ethDestMac 1) = 0) ∧
    (let s := ethernet (fun e => { e with requests := 10 }) [];
      s.hub.unresolved 1 = true ∧ 10 ≤ (vget s.hub.eths 1).requests ∧ (vget s.hub.eths 1).failLog = none ∧ s.hub.stalled = false) ∧
    (let s := ethernet (fun e => { e with resolvedAt := some 50, faultAt := some 60 }) [];
      s.hub.ethActive 1 = true ∧ (vget s.hub.eths 1).resolvedAt = some 50 ∧ (vget s.hub.eths 1).refreshed = false ∧
        (vget s.hub.eths 1).faultAt = some 60) := by
  decide +kernel

/-- A READ of MODE as bytes. -/
def readModeBytes : List (Fin 256) := [1, 1, 0x01, 0x12, 0, 0, 0, 0]

/-- A block transfer under way. -/
def halfTransfer : Transfer := { first := readMode, at_ := 40 }

theorem witness_EthernetCarriersAndCommits :
    (let s := duplex [(Obj.nodeId 0, 17)] id;
      s.mb.up = true ∧ s.hub.canOpen 0 = true ∧ (17 : Fin 128).val = s.hub.nodeOf 0 ∧ (18 : Fin 128).val ≠ 0 ∧
        (18 : Fin 128).val ≠ s.hub.nodeOf 0 ∧ s.hub.serverAway = false ∧
        (parsePdu (.can 0) false (byteVals readModeBytes)).isSome = true ∧
        (parsePdu (.own 0) false (byteVals readModeBytes)).isSome = true ∧
        (parsePdu (.can 0) false (byteVals readModeBytes)).all
          (fun r => Machine.quiet s.mb (({ s.hub with out := [] }).waitTicks 5) r s.pending.head?) = true ∧
        s.hub.addressed (77 : Fin 65536).val = false ∧ s.hub.addressed (65535 : Fin 65536).val = true) ∧
    (let s := duplex [(Obj.canStatus 1, 2), (Obj.heartbeatPeriod, 100)] (fun h => h.modSrv (fun v => { v with transfers := [halfTransfer] }));
      s.mb.up = true ∧ s.hub.get (Obj.canStatus 1) = 2 ∧ s.hub.get Obj.heartbeatPeriod ≠ 0 ∧ s.hub.serverAway = false ∧
        s.hub.canOpen 0 = true ∧ s.hub.firstTransfer = some halfTransfer) ∧
    (let s := laned 1 5 (fun v => v) [];
      s.hub.laneNative 1 = true ∧ s.hub.srv.unseen 77 5 = true ∧ s.hub.addressed 78 = false) ∧
    (let s := hubBy (laned 1 5 id []) (fun h => h.modSrv (fun v => { v with seen := [(77, [5])] })); s.hub.srv.unseen 77 5 = false) := by
  decide +kernel

/-- A prepared commit of one entry that a running mode may take, or one that needs a stopped hub. -/
def prepared (m : Mode) (st : Nat) (k v : Nat) : State :=
  hubBy (at_ m [allUp, (Obj.dieRole 0, 2), (Obj.dieRole 1, 3), (Obj.commitState, st), (Obj.commitId, 9), (Obj.commitCue, 9 * 2 ^ 48)])
    (fun h => h.modSrv (fun r => { r with staging := [{ key := k, val := v }] }))

/-- The same where a slot the staging set changes holds a COMPLETE capture. -/
def preparedBusy : State :=
  hubBy (slotted 3 twoRows [(Obj.commitState, 2), (Obj.commitId, 9), (Obj.commitCue, 9 * 2 ^ 48)])
    (fun h => h.modSrv (fun r => { r with staging := [{ key := Obj.slotPre 4, val := 7 }] }))

theorem witness_EthernetCarriersAndCommits_commits :
    (let s := prepared .run 2 (Obj.slotPre 3) 7;
      s.hub.get Obj.commitState = 2 ∧ s.hub.stagedStopped = false ∧ s.hub.staged.slotsBusy s.hub = false ∧ s.hub.stalled = false ∧
        s.hub.srv.staging.getLast? = some { key := Obj.slotPre 3, val := 7 }) ∧
    (let s := preparedBusy;
      s.hub.get Obj.commitState = 2 ∧ s.hub.stagedStopped = false ∧ s.hub.staged.slotsBusy s.hub = true) ∧
    (let s := prepared .run 2 (Obj.syncTimeout) 7; s.hub.get Obj.commitState = 2 ∧ s.hub.stagedStopped = true ∧ s.mb.mode.stopped = false) ∧
    (prepared .configure 1 (Obj.syncTimeout) 7).hub.get Obj.commitState = 1 := by
  decide +kernel

/-- A staging set with no commit, and one PREPARED for tick 9 s. -/
def toPrepare : State := prepared .run 0 (Obj.slotPre 3) 7
def toConfirm : State := prepared .run 1 (Obj.slotPre 3) 7

theorem witness_EthernetCarriersAndCommits_prepare :
    Reaches client (commitReq 1 9 (9 * 2 ^ 48)) toPrepare ∧ Reaches client (commitReq 3 9 0) toPrepare ∧
      (((arrived client toPrepare).prepare false 9 (9 * 2 ^ 48)).1.result = 0 ∧ ((arrived client toPrepare).prepare true 9 0).1.result = 0) :=
  ⟨reaches_of (by decide +kernel), reaches_of (by decide +kernel), by decide +kernel⟩

theorem witness_EthernetCarriersAndCommits_confirm :
    Reaches client (commitReq 2 9 (9 * 2 ^ 48)) toConfirm ∧
      Reaches client (rowReq 9 0 0 0 false 4 ([1, 0] ++ toBytes 2 9)) toConfirm ∧
      (toConfirm.hub.get Obj.commitState = 1 ∧ toConfirm.hub.commitPending = true ∧ toConfirm.hub.get Obj.commitId = 9 ∧
        ((arrived client toConfirm).confirm 9 (9 * 2 ^ 48)).1.result = 0) :=
  ⟨reaches_of (by decide +kernel), reaches_of (by decide +kernel), by decide +kernel⟩

/-! ### The mirror port and the memories -/

/-- A hub in RUN with the port and the mailbox on, as given. -/
def mirrored (f : MirSt → MirSt) (o : List (Nat × Nat)) : State :=
  duplex ([(Obj.mirEnable, 1), (Obj.mailboxEnable, 1)] ++ o) (fun h => h.modMir f)

theorem witness_MirrorAndMemories_reads :
    (let s := mirrored (fun m => { m with held := some (0x4010, [1, 2, 3]) }) [];
      s.mb.up = true ∧ s.hub.mir.switch = none ∧ s.hub.mir.held = some (0x4010, [1, 2, 3]) ∧
        (itemAt s.mb (({ s.hub with out := [] }).waitTicks 5) 0x4010).map (fun e => (e.1, e.2.1)) = some (0x4010, 16) ∧
        (itemAt s.mb (({ s.hub with out := [] }).waitTicks 5) 0x4012).map (fun e => (e.1, e.2.1)) = some (0x4010, 16) ∧
        (itemAt s.mb (({ s.hub with out := [] }).waitTicks 5) 0x4022).map (fun e => (e.1, e.2.1)) = some (0x4020, 16) ∧
        (itemAt s.mb (({ s.hub with out := [] }).waitTicks 5) 2).map (fun e => (e.1, e.2.1)) = some (2, 2) ∧
        itemAt s.mb (({ s.hub with out := [] }).waitTicks 5) 0x200 = none) ∧
    (mirrored (fun m => { m with switch := some 700 }) []).hub.mir.switch = some 700 := by
  decide +kernel

/-- The mailbox holds a READ of MODE. -/
def mailed (busy : Bool) : State :=
  mirrored (fun m => { m with mbox := { m.mbox with
    req := vset (vset (vset m.mbox.req 0 0x0101) 1 0x1201) 32 8, busy := busy, doorbell := 4 } }) []

theorem witness_MirrorAndMemories :
    ((mailed true).hub.mir.mbox.busy = true ∧ (mailed true).hub.flag Obj.mailboxEnable = true) ∧
    ((mailed false).hub.mir.mbox.busy = false ∧ (mailed false).hub.mir.mbox.doorbell = 4 ∧ (mailed false).hub.serverAway = false ∧
      (parsePdu .mailbox true (mailed false).hub.mir.mbox.pdu).isSome = true ∧
      (parsePdu .mailbox true (mailed false).hub.mir.mbox.pdu).all
        (fun q => Machine.quiet (mailed false).mb (({ (mailed false).hub with out := [] }).waitTicks 5) q (mailed false).pending.head?) = true) ∧
    ((mirrored id []).hub.mir.mbox.busy = false ∧ parsePdu .mailbox true (mirrored id []).hub.mir.mbox.pdu = none) ∧
    (duplex [(Obj.mailboxEnable, 0)] id).hub.flag Obj.mailboxEnable = false ∧
    (let s := hubBy (slotted 3 twoRows []) (fun h => ((h.put (Obj.dieRole 1) 4).put (Obj.mdSlotBase 4) 7).put (Obj.slotSize 4) 3);
      s.mb.up = true ∧ s.hub.die (4 + 1) = 3 ∧ s.hub.role 1 = 4 ∧ s.hub.die (6 + 1) = 3 ∧ (9437189 : Fin 4294967296).val < 0xF0000000 ∧ s.hub.slotAt 9437189 = some 4 ∧
        (vget s.hub.slots 4).rows[1]? = some { inst := uGrid, words := [8] }) := by
  decide +kernel

theorem witness_MirrorAndMemories_clear :
    Granted client Obj.grCountersClear 1 1 actGrClear (at_ .configure [(Obj.rotateSplits 1, 6), (Obj.conflicts 1 3, 9)]) :=
  granted_of (by decide +kernel)

/-! ### Commands that no sender can give, one for each check of WellFormed -/

theorem test_wf_refuses : ([
    .request 0 true 5 17 (List.replicate 65 0) 0 true, .tunnelRequest 0 17 5 (List.replicate 63 0) 0 true,
    .horol 1 0 { dest := 1, origin := 2, number := 3, pdu := List.replicate 65 0 } true true,
    .horol 1 0 { dest := 1, origin := 2, number := 3, pdu := [] } true true,
    .blockWrite client 0x3320 0 0 false 60 (List.replicate 55 7), .serviceUnknown client 3 0 0,
    .injectedHold 0 (List.replicate 5 (1, false)) 0, .frameRx 1 0 [2 ^ 32] false, .gapRecordRx 1 0 [2 ^ 32],
    .armMessage 1 0 { fromHub77 with hub := 65536 } true, .disarmMessage 1 0 { fromHub77 with num := 65536 } true,
    .fireMessage 1 0 { fromHub77 with time := 2 ^ 96 } true,
    .ttFollowReceive 1 0 { (default : TtFollow) with increment := 2 ^ 48 } true, .ptpAnnounce 0 { (default : PtpAnnounce) with domain := 256 },
    .ptpFollowUp 0 { (default : PtpHead) with seq := 65536 }, .shutdownDone 0 [(1, 2)], .bgCalNvmWrite [(1, 2)],
    .grScrub 0 0 [] [2 ^ 24] true, .relinquish 0 1 (2 ^ 24), .arpRequestRx 1 0 (2 ^ 32) default, .arpReplyRx 1 0 5 (2 ^ 48) default,
    .neighborSolicitationRx 1 0 (2 ^ 128) default, .neighborAdvertisementRx 1 0 5 (2 ^ 48) default, .echoRequestRx 1 0 true (2 ^ 128) 5 default,
    .ptpDelayResp 0 default (2 ^ 80)] :
    List Instr).all (fun c => !c.wf) = true := by
  decide +kernel

theorem test_wf_refuses_long : (Instr.write client 0 0 (List.replicate 16384 0)).wf = false ∧
    (Instr.stage client 0 0 (List.replicate 16384 0)).wf = false ∧ (Instr.calRecordImport client (List.replicate 13825 0)).wf = false ∧
    (Instr.fwData client (List.replicate 13825 0)).wf = false ∧ (Instr.holdSkewMeasure (List.replicate 5 0)).wf = false ∧
    (Instr.gridHold { volts := List.replicate 385 0, trips := [], senses := [] }).wf = false ∧
    (Instr.gridHold { volts := [], trips := List.replicate 385 0, senses := [] }).wf = false ∧
    (Instr.gridHold { volts := [], trips := [], senses := List.replicate 97 none }).wf = false ∧
    (Instr.selfTestDone 0 [(8, 1)] 0).wf = false ∧ (Instr.bootComplete true [(1, 65536)]).wf = false := by
  simp only [Instr.wf, atMost, diesBelow, List.length_replicate]
  decide

theorem test_wf_accepts : ([
    .request 0 true 5 17 readModeBytes 0 true, .read client 0x1201 0 false, .horol 1 0 { dest := 1, origin := 2, number := 3, pdu := readModeBytes } true true,
    .fireMessage 1 0 fromHub77 true, .powerOn true true true true true] : List Instr).all (fun c => c.wf) = true := by
  decide +kernel

/-- No row of the table has bits. -/
theorem test_decode_nothing : decodeTableWord 16 5 = none ∧ State.withFetchWord State.reset 16 5 = State.reset := by
  constructor <;> rfl

/-- A command at the front of the queue runs, and the queue's rest stays: the tick of the sequencer on a hub in RUN. -/
def afterStep (s : State) : Option (List Instr × Nat) :=
  match step s with
  | .next t => some (t.pending, t.hub.get Obj.seqState)
  | _ => none
theorem test_step_queue : afterStep { evaluating 0 with pending := [.sequencerTick 0, .autoTimeout] } = some ([.autoTimeout], 5) := by
  decide +kernel

end Sys2Proof.Tests
end

section
/-! PROOF. The range decision of an AUTO channel (R95, R96): what a finished conversion does to the down count, and where a decision
lands. -/
namespace Sys2Proof.Machine

/-! ### Reading an input pair after an update -/

theorem vget_vupd_same {α : Type} [Inhabited α] {n : Nat} (v : Vector α n) {i : Nat} (f : α → α) (hi : i < n) :
    vget (vupd v i f) i = f (vget v i) := by
  simp only [vget, vupd, vset, List.getD_eq_getElem?_getD, Vector.length_toList, hi, getElem?_pos, Vector.getElem_toList,
    Option.getD_some, Vector.toList_setIfInBounds, List.length_set, List.getElem_set_self]

theorem Hub.ch_modCh_same (h : Hub) {n : Nat} (f : InSt → InSt) (hn : n < 384) : (h.modCh n f).ch n = f (h.ch n) :=
  vget_vupd_same h.ins f hn

@[simp] theorem Hub.ch_putBit (h : Hub) (k i : Nat) (b : Bool) (n : Nat) : (h.putBit k i b).ch n = h.ch n := rfl
@[simp] theorem Hub.ch_modFe (h : Hub) (i : Nat) (f : FeSt → FeSt) (n : Nat) : (h.modFe i f).ch n = h.ch n := rfl
@[simp] theorem Hub.ch_when_bump (h : Hub) (c : Bool) (k n : Nat) : (h.when c (·.bump k)).ch n = h.ch n := by
  cases c <;> rfl

/-! ### The down count (R96) -/

/-- A regular conversion advances its channel's down count up to DOWN_COUNT while the channel is in AUTO and the code, of the range
in force, is at or below the down threshold; else it clears it. -/
theorem Hub.finishRegular_down (h : Hub) (k : Nat) (c : Conv) (hn : k * 8 + c.input < 384) :
    ((h.finishRegular k c).ch (k * 8 + c.input)).down =
      if h.auto (k * 8 + c.input) = true ∧ c.word.range = (h.ch (k * 8 + c.input)).range ∧
        c.word.code.natAbs ≤ downThreshold.natAbs
      then min ((h.ch (k * 8 + c.input)).down + 1) (h.get (Obj.chDownCount (k * 8 + c.input))) else 0 := by
  simp only [Hub.finishRegular, Hub.ch_modFe, Hub.ch_putBit, Hub.ch_when_bump, Hub.ch_modCh_same h _ hn, Bool.and_eq_true,
    decide_eq_true_eq, and_assoc]

/-! ### Where a step up lands (R96) -/

section StepUp
variable (p : Rat) (r coarsest : Nat)

/-- The walk goes on while a coarser range is allowed and P is above the up threshold. -/
theorem stepUpTo_succ (fuel n : Nat) :
    stepUpTo p r coarsest (fuel + 1) n =
      if coarsest < n ∧ (upThreshold : Rat) * 4 ^ (r - n) < p then stepUpTo p r coarsest fuel (n - 1) else n := by
  simp only [stepUpTo, gt_iff_lt, Bool.and_eq_true, decide_eq_true_eq]

theorem stepUpTo_bounds (fuel n : Nat) (hn : coarsest ≤ n) :
    coarsest ≤ stepUpTo p r coarsest fuel n ∧ stepUpTo p r coarsest fuel n ≤ n := by
  induction fuel generalizing n with
  | zero => exact ⟨hn, Nat.le_refl n⟩
  | succ fuel ih =>
    rw [stepUpTo_succ]
    by_cases hgo : coarsest < n ∧ (upThreshold : Rat) * 4 ^ (r - n) < p
    · rw [if_pos hgo]
      have := ih (n - 1) (by omega)
      omega
    · rw [if_neg hgo]
      exact ⟨hn, Nat.le_refl n⟩

/-- Every range passed over on the way has P above its up threshold. -/
theorem stepUpTo_passed (fuel n : Nat) {m : Nat} (hm : stepUpTo p r coarsest fuel n < m) (hmn : m ≤ n) :
    (upThreshold : Rat) * 4 ^ (r - m) < p := by
  induction fuel generalizing n with
  | zero =>
    rw [stepUpTo] at hm
    omega
  | succ fuel ih =>
    rw [stepUpTo_succ] at hm
    by_cases hgo : coarsest < n ∧ (upThreshold : Rat) * 4 ^ (r - n) < p
    · rw [if_pos hgo] at hm
      obtain rfl | hlt := Nat.eq_or_lt_of_le hmn
      · exact hgo.2
      · exact ih (n - 1) hm (by omega)
    · rw [if_neg hgo] at hm
      omega

/-- With fuel for every range down to the coarsest, the walk ends where P is within the up threshold or nothing coarser is allowed. -/
theorem stepUpTo_lands (fuel n : Nat) (hn : coarsest ≤ n) (hfuel : n ≤ coarsest + fuel) :
    p ≤ (upThreshold : Rat) * 4 ^ (r - stepUpTo p r coarsest fuel n) ∨ stepUpTo p r coarsest fuel n = coarsest := by
  induction fuel generalizing n with
  | zero => exact .inr (by rw [stepUpTo]; omega)
  | succ fuel ih =>
    rw [stepUpTo_succ]
    by_cases hgo : coarsest < n ∧ (upThreshold : Rat) * 4 ^ (r - n) < p
    · rw [if_pos hgo]
      exact ih (n - 1) (by omega) (by omega)
    · rw [if_neg hgo]
      obtain rfl | hlt := Nat.eq_or_lt_of_le hn
      · exact .inr rfl
      · exact .inl (Rat.not_lt.mp fun hp => hgo ⟨hlt, hp⟩)

end StepUp

/-! ### The branches of a decision (R95) -/

section Decision
variable {v : InSt} {i count coarsest finest : Nat} {hold : Bool}

/-- P calls for a coarser range, and one is allowed. -/
def InSt.mustStepUp (v : InSt) (i coarsest : Nat) : Prop := (upThreshold : Rat) < v.predict i ∧ coarsest < v.range

theorem decideRange_up (hup : v.mustStepUp i coarsest) :
    decideRange v i count coarsest finest hold = ⟨stepUpTo (v.predict i) v.range coarsest 4 (v.range - 1), 0, false⟩ := by
  obtain ⟨hp, hr⟩ := hup
  simp only [decideRange, gt_iff_lt, hp, hr, decide_true, Bool.and_self, ↓reduceIte]

theorem decideRange_of_not_up (hup : ¬ v.mustStepUp i coarsest) :
    decideRange v i count coarsest finest hold =
      if v.down = count ∧ v.range < finest then
        if 4 * v.predict i < (upThreshold : Rat) then
          if hold then ⟨v.range, v.down, false⟩ else ⟨v.range + 1, 0, false⟩
        else ⟨v.range, v.down, true⟩
      else ⟨v.range, v.down, false⟩ := by
  rw [InSt.mustStepUp] at hup
  simp only [decideRange, gt_iff_lt, Bool.and_eq_true, decide_eq_true_eq, hup, ↓reduceIte]

theorem decideRange_down (hup : ¬ v.mustStepUp i coarsest) (hcount : v.down = count) (hr : v.range < finest)
    (hp : 4 * v.predict i < (upThreshold : Rat)) :
    decideRange v i count coarsest finest false = ⟨v.range + 1, 0, false⟩ := by
  rw [decideRange_of_not_up hup, if_pos ⟨hcount, hr⟩, if_pos hp, if_neg Bool.false_ne_true]

theorem decideRange_pending (hup : ¬ v.mustStepUp i coarsest) (hcount : v.down = count) (hr : v.range < finest)
    (hp : (upThreshold : Rat) ≤ 4 * v.predict i) :
    decideRange v i count coarsest finest hold = ⟨v.range, v.down, true⟩ := by
  rw [decideRange_of_not_up hup, if_pos ⟨hcount, hr⟩, if_neg (Rat.not_lt.mpr hp)]

/-- Without a step up, the range stays or the step down is taken, for which every condition of R96 holds. -/
theorem decideRange_stays_or_down (hup : ¬ v.mustStepUp i coarsest) :
    (decideRange v i count coarsest finest hold).next = v.range ∨
      decideRange v i count coarsest finest hold = ⟨v.range + 1, 0, false⟩ ∧
        v.down = count ∧ v.range < finest ∧ 4 * v.predict i < (upThreshold : Rat) ∧ hold = false := by
  rw [decideRange_of_not_up hup]
  by_cases hdue : v.down = count ∧ v.range < finest
  · by_cases hp : 4 * v.predict i < (upThreshold : Rat)
    · rw [if_pos hdue, if_pos hp]
      cases hold with
      | false => exact .inr ⟨rfl, hdue.1, hdue.2, hp, rfl⟩
      | true => exact .inl rfl
    · rw [if_pos hdue, if_neg hp]
      exact .inl rfl
  · rw [if_neg hdue]
    exact .inl rfl

/-- A step up ends on a coarser range, within the limits. -/
theorem decideRange_up_bounds (hup : v.mustStepUp i coarsest) :
    coarsest ≤ (decideRange v i count coarsest finest hold).next ∧
      (decideRange v i count coarsest finest hold).next < v.range := by
  have hr := hup.2
  obtain ⟨hlo, hhi⟩ := stepUpTo_bounds (v.predict i) v.range coarsest 4 (v.range - 1) (by omega)
  rw [decideRange_up hup]
  exact ⟨hlo, by dsimp only; omega⟩

theorem decideRange_bounds (hcoarse : coarsest ≤ v.range) (hfine : v.range ≤ finest) :
    coarsest ≤ (decideRange v i count coarsest finest hold).next ∧
      (decideRange v i count coarsest finest hold).next ≤ finest ∧
      (decideRange v i count coarsest finest hold).next ≤ v.range + 1 := by
  by_cases hup : v.mustStepUp i coarsest
  · have := decideRange_up_bounds (count := count) (finest := finest) (hold := hold) hup
    omega
  · obtain hstay | ⟨hdown, -, hr, -⟩ := decideRange_stays_or_down (count := count) (finest := finest) (hold := hold) hup
    · omega
    · rw [hdown]
      exact ⟨by dsimp only; omega, hr, Nat.le_refl _⟩

/-- A step up clears the count and lands on the finest allowed range in which P is within the up threshold, else the coarsest. -/
theorem decideRange_up_lands (hup : v.mustStepUp i coarsest) (hr : v.range ≤ 3) :
    let d := decideRange v i count coarsest finest hold
    d.next < v.range ∧ d.down = 0 ∧
      (v.predict i ≤ (upThreshold : Rat) * 4 ^ (v.range - d.next) ∨ d.next = coarsest) ∧
      ∀ m, d.next < m → m < v.range → v.predict i > (upThreshold : Rat) * 4 ^ (v.range - m) := by
  have hlt := hup.2
  refine ⟨(decideRange_up_bounds hup).2, ?_⟩
  rw [decideRange_up hup]
  exact ⟨rfl, stepUpTo_lands _ _ _ 4 _ (by omega) (by omega),
    fun m hm hmr => stepUpTo_passed _ _ _ 4 _ hm (by omega)⟩

/-- A finer range is decided only by a step down that R96 allows. -/
theorem decideRange_down_only (hnext : (decideRange v i count coarsest finest hold).next = v.range + 1) :
    v.down = count ∧ 4 * v.predict i < (upThreshold : Rat) ∧
      (decideRange v i count coarsest finest hold).down = 0 ∧ hold = false := by
  have hup : ¬ v.mustStepUp i coarsest := fun hup => by
    have := (decideRange_up_bounds (count := count) (finest := finest) (hold := hold) hup).2
    omega
  obtain hstay | ⟨hdown, hcount, -, hp, hhold⟩ :=
    decideRange_stays_or_down (count := count) (finest := finest) (hold := hold) hup
  · omega
  · exact ⟨hcount, hp, by rw [hdown], hhold⟩

end Decision

/-- Settles O25: the down count by `Hub.finishRegular_down`, the decision branch by branch (R95, R96). -/
theorem rangeDecision : Obligations.RangeDecision := by
  refine ⟨fun h k c hk hc => h.finishRegular_down k c (by omega), ?_⟩
  intro v i count coarsest finest hold hcoarse hfine hthree d p
  obtain ⟨hlo, hhi, hone⟩ := decideRange_bounds (i := i) (count := count) (hold := hold) hcoarse hfine
  refine ⟨hlo, hhi, hone, fun hp hr => decideRange_up_lands ⟨hp, hr⟩ (by omega), decideRange_down_only, ?_⟩
  intro hstay hcount hr
  have hup : ¬ v.mustStepUp i coarsest := fun ⟨hp, hlt⟩ => hstay.elim (Rat.not_le.mpr hp) (Nat.ne_of_gt hlt)
  constructor
  · rintro hp rfl
    exact congrArg RangeDecision.next (decideRange_down hup hcount hr hp)
  · intro hp
    have hd : d = ⟨v.range, v.down, true⟩ := decideRange_pending hup hcount hr hp
    rw [hd]
    exact ⟨rfl, rfl, rfl⟩

end Sys2Proof.Machine
end

section
/-! PROOF. The trigger point (R240): its fraction is rounded to the nearest, and the carry of a fraction of 65,536 into TRIG_INDEX
leaves the point where it was. -/
namespace Sys2Proof.Machine

/-! ### The fraction before its carry -/

/-- The rest `r` of a grid period in 2⁻¹⁶ of the period, to the nearest and ties up: TRIG_FRAC before its carry (R240). -/
def gridFrac (r : Nat) : Nat := (2 * r * 65536 + uGrid) / (2 * uGrid)

theorem gridFrac_le {r : Nat} (hr : r < uGrid) : gridFrac r ≤ 65536 := by
  refine Nat.le_of_lt_succ (Nat.div_lt_of_lt_mul ?_)
  unfold uGrid at *
  omega

/-- The rest is off its fraction by at most half a step: half a step only where it lies below, since ties go up. -/
theorem gridFrac_nearest (r : Nat) :
    -(uGrid : Int) ≤ 2 * (65536 * r - gridFrac r * uGrid) ∧ 2 * (65536 * (r : Int) - gridFrac r * uGrid) < uGrid := by
  have hlo : gridFrac r * (2 * uGrid) ≤ 2 * r * 65536 + uGrid := Nat.div_mul_le_self _ _
  have hhi : 2 * r * 65536 + uGrid < gridFrac r * (2 * uGrid) + 2 * uGrid := Nat.lt_div_mul_add (by decide)
  unfold uGrid at *
  omega

/-! ### The index, and the carry -/

/-- The time since `first` is whole grid periods and a rest; the trigger point is their count and the rest's fraction, a fraction of
65,536 carried into the count. -/
theorem trigPoint_split (t first : Nat) :
    ∃ (i : Int) (r : Nat), r < uGrid ∧ (t : Int) - first = i * uGrid + r ∧
      trigPoint t first = if gridFrac r = 65536 then (i + 1, 0) else (i, gridFrac r) := by
  have hpos : (0 : Int) < uGrid := by decide
  have hdiv := Int.ediv_mul_add_emod ((t : Int) - first) uGrid
  have hnonneg := Int.emod_nonneg ((t : Int) - first) (Int.ne_of_gt hpos)
  have hlt := Int.emod_lt_of_pos ((t : Int) - first) hpos
  refine ⟨((t : Int) - first) / uGrid, ((t : Int) - first - ((t : Int) - first) / uGrid * uGrid).toNat, ?_, ?_, rfl⟩
  · omega
  · omega

theorem trigPoint_frac_lt (t first : Nat) : (trigPoint t first).2 < 65536 := by
  obtain ⟨i, r, hr, -, heq⟩ := trigPoint_split t first
  rw [heq]
  split
  case isTrue => exact Nat.zero_lt_succ _
  case isFalse hne => exact Nat.lt_of_le_of_ne (gridFrac_le hr) hne

/-- The carry moves no point: index and fraction together are the whole periods and the rest's fraction. -/
theorem trigPoint_steps (t first : Nat) :
    ∃ (i : Int) (r : Nat), (t : Int) - first = i * uGrid + r ∧
      (trigPoint t first).1 * 65536 + (trigPoint t first).2 = i * 65536 + gridFrac r := by
  obtain ⟨i, r, -, hd, heq⟩ := trigPoint_split t first
  refine ⟨i, r, hd, ?_⟩
  rw [heq]
  split
  case isTrue hcarry =>
    show (i + 1) * 65536 + 0 = i * 65536 + (gridFrac r : Int)
    omega
  case isFalse => rfl

/-- Settles O51: the whole grid periods cancel, and what is left is the rest against its fraction, `gridFrac_nearest` (R240). -/
theorem trigPointIsNearest : Obligations.TrigPointIsNearest := by
  intro t first
  refine ⟨trigPoint_frac_lt t first, ?_⟩
  obtain ⟨i, r, hd, hsteps⟩ := trigPoint_steps t first
  have hrest : 65536 * ((t : Int) - first) - (i * 65536 + gridFrac r) * uGrid = 65536 * r - gridFrac r * uGrid := by
    rw [hd]
    unfold uGrid
    omega
  rw [hsteps, hrest]
  exact gridFrac_nearest r

end Sys2Proof.Machine
end
